-- ==== Sys2Proof/Word.lean ====
section
/-! DEFINITION. Words, counts and fixed-size collections of the 8240, with their plainest arithmetic. -/

namespace Sys2Proof

abbrev Byte := BitVec 8
/-- A bridge time: milliseconds from power-up, modulo 2^32 (R1). -/
abbrev Time := BitVec 32
/-- A console position: bytes received on a slot, modulo 2^32 (R2). -/
abbrev Pos := BitVec 32
/-- A 48-bit Ethernet address, first byte in bits 47..40 (R191). -/
abbrev Addr := BitVec 48
/-- A 32-bit counter that stops at its maximum (R4). -/
abbrev Counter := BitVec 32
/-- The 512 bytes of one block. -/
abbrev Block := Vector Byte 512

/-- Slots 0 to 7. -/
abbrev SlotId := Fin 8
/-- Media units 0 to 3. -/
abbrev UnitId := Fin 4
/-- Station entries 0 to 31. -/
abbrev StationId := Fin 32

/-- One increase of a counter that stops at its maximum (R4). -/
def bump (c : Counter) : Counter := if c = BitVec.allOnes 32 then c else c + 1

/-- `n` increases of a counter that stops at its maximum (R4). -/
def bumpBy (n : Nat) (c : Counter) : Counter := BitVec.ofNat 32 (min (c.toNat + n) (2 ^ 32 - 1))

/-- `n` brought into the range `lo` to `hi` (R3). -/
def clamp (lo hi n : Nat) : Nat := max lo (min n hi)

/-- `n` as an index below `k`, when it is one. -/
def finOf (k n : Nat) : Option (Fin k) := if h : n < k then some ⟨n, h⟩ else none

/-- The block of 512 zero bytes. -/
def zeroBlock : Block := Vector.replicate 512 0

/-- `v` with its item `i` changed by `f`. -/
def upd {α : Type} {n : Nat} (v : Vector α n) (i : Fin n) (f : α → α) : Vector α n :=
  v.set i (f v[i])

end Sys2Proof
end

