-- ==== Sys2Proof/Syntax.lean ====
section
/-! DEFINITION. The commands of the 8240, one constructor of `Instr` per row of the table of
operations and events, with the operands each carries: slots, units and buttons for the events at
the pins and at the Time Base, and the fields of the bridge messages (R191) for the requests. -/

namespace Sys2Proof

/-- The two Ethernet ports of the management side. -/
inductive Port where
  | uplink
  | chain
  deriving DecidableEq, Repr

/-- The two button inputs of a slot: PWR_IN and RST_IN. -/
inductive Button where
  | pwr
  | rst
  deriving DecidableEq, Repr

/-- The eight actions of a power sequence (R98's record field). -/
inductive Action where
  | powerOn
  | powerOffSoft
  | powerOffHard
  | reset
  | cycleSoft
  | cycleFeed
  | feedOff
  | feedOn
  deriving DecidableEq, Repr

/-- The four recovery actions a watch action may name (R60). -/
inductive RecoveryAction where
  | reset
  | cycleSoft
  | powerOffHard
  | cycleFeed
  deriving DecidableEq, Repr

/-- The rights of a station entry (R180). -/
structure Rights where
  read : Bool := false
  type : Bool := false
  force : Bool := false
  power : Bool := false
  media : Bool := false
  notice : Bool := false
  admin : Bool := false
  deriving DecidableEq, Repr

/-- The address field of a station entry: a 48-bit address or ANY. -/
inductive StationAddr where
  | any
  | mac (a : Addr)
  deriving DecidableEq, Repr

/-- The written fields of a Station Table entry (R183). -/
structure StationEntry where
  valid : Bool := false
  address : StationAddr := .any
  rights : Rights := {}
  mask : BitVec 8 := 0
  deriving DecidableEq, Repr

/-- Active level and enable of one output (R19). -/
structure OutSetup where
  high : Bool
  enable : Bool := true
  deriving DecidableEq, Repr

inductive PanelMode where
  | pass
  | block
  deriving DecidableEq, Repr

/-- A SLOT_SETUP entry, with its factory values (R19). -/
structure SlotSetup where
  profile : Nat := 0
  powerControl : Bool := true
  armed : Bool := false
  recoveryLimit : Nat := 2
  windowHours : Nat := 6
  matchEnable : Bool := false
  startState : Nat := 0
  resetOnBoot : Bool := true
  silenceEnable : Bool := false
  silenceLimit : Nat := 10
  silenceUnit : Nat := 64
  silenceAction : Nat := 0
  panel : PanelMode := .pass
  pwrOut : OutSetup := { high := false }
  rstOut : OutSetup := { high := false }
  feed : OutSetup := { high := true }
  feedAtPowerUp : Bool := true
  pgHigh : Bool := true
  pgFilter : Nat := 5
  deriving DecidableEq, Repr

inductive Parity where
  | none
  | even
  | odd
  deriving DecidableEq, Repr

/-- A CONSOLE_SETUP entry, with its factory values (R20, R42). -/
structure ConsoleSetup where
  baud : Nat := 115200
  dataBits : Nat := 8
  parity : Parity := .none
  stopBits : Nat := 1
  idleLimit : Nat := 600
  flushOnBoot : Bool := false
  deriving DecidableEq, Repr

inductive MediaGate where
  | none
  | wait
  | require
  deriving DecidableEq, Repr

/-- A PROFILE entry, with its factory values (R97). -/
structure Profile where
  tapWidth : Nat := 250
  holdWidth : Nat := 6000
  resetWidth : Nat := 200
  softGrace : Nat := 120
  escalate : Bool := true
  offDwell : Nat := 5
  onDeadline : Nat := 15
  gate : MediaGate := .none
  gateWait : Nat := 30
  autoPress : Bool := true
  feedCharge : Nat := 120
  startCharge : Nat := 40
  feedSettle : Nat := 1500
  startSettle : Nat := 800
  holdUp : Nat := 2000
  deriving DecidableEq, Repr

/-- A WATCH_ACTION entry, with its factory values (R60). -/
structure WatchAction where
  mark : Bool := false
  notify : Bool := false
  recover : Bool := false
  action : RecoveryAction := .reset
  returnState : Nat := 0
  holdOff : Nat := 0
  deriving DecidableEq, Repr

inductive CheckWidth where
  | none
  | w16
  | w32
  deriving DecidableEq, Repr

/-- A UNIT_SETUP entry, with its factory values (R145). -/
structure UnitSetup where
  writeProtect : Bool := false
  width : CheckWidth := .w32
  poly : BitVec 32 := 0x04C11DB7
  init : BitVec 32 := 0xFFFFFFFF
  reflected : Bool := true
  finalXor : BitVec 32 := 0xFFFFFFFF
  fetchDeadline : Nat := 400
  reAskLimit : Nat := 3
  overlayLimit : Nat := 1024
  presentBoots : Nat := 0
  deriving DecidableEq, Repr

inductive RegionKind where
  | remote
  | overlay
  | local_
  | zero
  | absent
  deriving DecidableEq, Repr

/-- A region of an Image Map (R146). The image base is present for REMOTE and OVERLAY only. -/
structure Region where
  first : Nat
  count : Nat
  kind : RegionKind
  base : Option Nat := none
  deriving DecidableEq, Repr

/-- The three classifier thresholds in milliseconds, with their factory values (R85). -/
structure Thresholds where
  glitch : Nat := 50
  hold : Nat := 3000
  stuck : Nat := 10000
  deriving DecidableEq, Repr

/-- The BRIDGE_SETUP entry (R195), with its factory values (R123, R85, R189, R178); the factory
station address differs for each part and is given where the factory tables are. -/
structure BridgeSetup where
  capacity : Nat := 160
  spacing : Nat := 250
  limits : Thresholds := {}
  ownShare : Nat := 4
  frameType : BitVec 16 := 0x88B5
  group : Addr := 0x030000824000
  address : Addr
  deriving DecidableEq, Repr

/-- The eleven tables of R195. -/
inductive TableName where
  | station
  | slotSetup
  | consoleSetup
  | profile
  | classMap
  | automaton
  | stateAction
  | watchAction
  | unitSetup
  | imageMap
  | bridgeSetup
  deriving DecidableEq, Repr

/-- The index of a TABLE_WRITE, and whether every code in its entry fields that stands for one of a
list of values (a parity, a gate, a width, a kind, an effect, a right) names one of them. -/
structure WriteHead where
  index : Nat
  codesKnown : Bool := true
  deriving DecidableEq, Repr

/-- The table and entry fields of a TABLE_WRITE. -/
inductive TableWrite where
  | station (e : StationEntry)
  | slotSetup (e : SlotSetup)
  | consoleSetup (e : ConsoleSetup)
  | profile (e : Profile)
  | classMap (cls : Nat)
  | automaton (next : List Nat)
  | stateAction (action : Nat)
  | watchAction (e : WatchAction)
  | unitSetup (e : UnitSetup)
  | imageMap (e : Option Region)
  | bridgeSetup (e : BridgeSetup)
  | unknownTable
  deriving DecidableEq, Repr

inductive MarkerKind where
  | boot
  | sequence
  | match_
  | silence
  | breakIn
  | holder
  | localPress
  deriving DecidableEq, Repr

/-- The selector of a MARKER read (R36); `unknown` stands for an unknown selector or marker kind,
which R33 refuses. -/
inductive MarkerSel where
  | byNumber (n : BitVec 16)
  | latest (k : MarkerKind)
  | unknown
  deriving DecidableEq, Repr

/-- The mode of a CONSOLE_READ with its own fields (R33 to R36). -/
inductive ReadMode where
  | absolute (p : Pos)
  | cursor
  | marker (sel : MarkerSel) (offset : BitVec 16)
  | unknown
  deriving DecidableEq, Repr

inductive HoldForm where
  | take
  | force
  | release
  | renew
  | unknown
  deriving DecidableEq, Repr

/-- The action of a POWER request: one of the eight, ABORT, or an action outside the nine (R101). -/
inductive PowerAction where
  | act (a : Action)
  | abort
  | unknown
  deriving DecidableEq, Repr

/-- The group of a BRIDGE_CONTROL COUNTERS request (R201), with the number it carries. Port 0 is
UPLINK and port 1 is CHAIN. -/
inductive CounterGroup where
  | port (n : Nat)
  | frame
  | slot (n : Nat)
  | unit (n : Nat)
  | fetch
  | inrush
  | unknown
  deriving DecidableEq, Repr

inductive ControlForm where
  | save
  | restart (quote : BitVec 16)
  | counters (group : CounterGroup) (clear : Bool)
  | unknown
  deriving DecidableEq, Repr

/-- A message kind that no station sends to the bridge (R192): an unknown kind code, or one of the
three kinds that only the bridge sends. -/
inductive ForeignKind where
  | code (k : Byte)
  | reply
  | blockFetch
  | notice
  deriving DecidableEq, Repr

/-- The message kinds a station may send (R191), as a REPLY names them. -/
inductive MsgKind where
  | discover
  | slotQuery
  | slotClear
  | consoleRead
  | historyClear
  | consoleHold
  | consoleWrite
  | consoleBreak
  | linesQuery
  | power
  | mediaBind
  | mediaUnbind
  | mediaQuery
  | blockData
  | blockAbsent
  | tableWrite
  | tableRead
  | bridgeControl
  | foreign (k : ForeignKind)
  deriving DecidableEq, Repr

/-- The longest body of a message, in bytes (R191). -/
def bodyLimit : Nat := 1482

/-- What a consumed message brings besides its kind's fields (R191): the arrival port, the source
address, the version, the target, the tag and the body length; the length of its frame, counted as R177
counts it; and whether its body holds exactly the fields its kind needs (R192). -/
structure Header where
  port : Port
  src : Addr
  version : Byte := 1
  target : Byte := 0
  tag : BitVec 16 := 0
  bodyLength : BitVec 16 := 0
  frameLength : Nat := 64
  bodyExact : Bool := true
  deriving DecidableEq, Repr

/-- The body, which starts at offset 21 (R191), ends before the 4 bytes of the FCS (R192 test 3). -/
def Header.bodyFits (h : Header) : Bool := decide (21 + h.bodyLength.toNat + 4 ≤ h.frameLength)

/-- A quoted boot count of a POWER request: a count or none (R101). -/
abbrev Quote := Option (BitVec 16)

/-- A message with its kind's body fields (R191). The target stands in the header. -/
inductive Message where
  | discover
  | slotQuery
  | slotClear
  | consoleRead (mode : ReadMode) (max : BitVec 16)
  | historyClear
  | consoleHold (form : HoldForm)
  | consoleWrite (quote : BitVec 32) (count : BitVec 16) (bytes : List Byte)
  | consoleBreak (quote : BitVec 32) (duration : BitVec 16)
  | linesQuery
  | power (action : PowerAction) (profile : Option Nat) (quotes : List Quote)
  | mediaBind (slot : Byte)
  | mediaUnbind
  | mediaQuery
  | blockData (id : BitVec 16) (block : BitVec 32) (check : BitVec 32) (data : Block)
  | blockAbsent (id : BitVec 16) (first : BitVec 32) (count : Nat) (reason : Byte)
  | tableWrite (w : WriteHead) (e : TableWrite)
  | tableRead (table : Option TableName) (index : Nat)
  | bridgeControl (form : ControlForm)
  | foreign (k : ForeignKind)
  deriving DecidableEq, Repr

/-- The kinds whose catalogue row gives no body fields (R191). -/
def Message.hasNoFields : Message → Bool
  | .discover => true
  | .slotQuery => true
  | .slotClear => true
  | .historyClear => true
  | .linesQuery => true
  | .mediaUnbind => true
  | .mediaQuery => true
  | .consoleRead _ _ => false
  | .consoleHold _ => false
  | .consoleWrite _ _ _ => false
  | .consoleBreak _ _ => false
  | .power _ _ _ => false
  | .mediaBind _ => false
  | .blockData _ _ _ _ => false
  | .blockAbsent _ _ _ _ => false
  | .tableWrite _ _ => false
  | .tableRead _ _ => false
  | .bridgeControl _ => false
  | .foreign _ => false

/-- What a frame carries after its type field: a bridge header and message, or bytes that are none
(their first bytes are then read at the header's offsets, R191). `fieldsExact` says whether the body
length is that of the kind's fields, whose widths the manual does not give; the kinds without fields
have body length 0. -/
inductive Payload where
  | bridge (version target : Byte) (tag bodyLength : BitVec 16) (fieldsExact : Bool) (msg : Message)
  | other (bytes : List Byte)
  deriving DecidableEq, Repr

/-- An Ethernet frame as a port takes it: its addresses and type, its length from the first byte of
the destination to the last byte of the FCS, and whether the FCS matches (R177). -/
structure Frame where
  dst : Addr
  src : Addr
  etype : BitVec 16
  length : Nat
  fcsGood : Bool := true
  payload : Payload
  deriving DecidableEq, Repr

/-- Where a DISCOVER is addressed (R196). -/
inductive DiscoverTo where
  | bridge
  | group
  | broadcast
  deriving DecidableEq, Repr

/-- The commands of the 8240, one per row of the table of operations and events, in its order. -/
inductive Instr where
  | powerUp
  | bridgeRestart
  /-- `marks` are the data bits as sampled (mark is 1), `parityMark` the sampled parity bit and
  `stopMark` the sampled first stop bit (R21). -/
  | consoleCharacterReceived (slot : SlotId) (marks : Byte) (parityMark stopMark : Bool)
  | rxReturnToMark (slot : SlotId)
  | breakDetected (slot : SlotId)
  | silenceTick (slot : SlotId)
  | silenceTerminal (slot : SlotId)
  | holdOffExpiry (slot : SlotId) (action : Nat)
  | recoveryRequestTaken (slot : SlotId)
  | recoveryWindowClose (slot : SlotId)
  | txByteFinished (slot : SlotId)
  | breakItemDeadline (slot : SlotId)
  | breakItemFinished (slot : SlotId)
  | holderIdleExpiry (slot : SlotId)
  /-- The PG pin of `slot` takes the level `high`. -/
  | pgRawChange (slot : SlotId) (high : Bool)
  | pgFilterExpiry (slot : SlotId)
  | buttonPressEdge (slot : SlotId) (button : Button)
  | buttonReleaseEdge (slot : SlotId) (button : Button)
  | glitchDeadline (slot : SlotId) (button : Button)
  | stuckDeadline (slot : SlotId) (button : Button)
  | lastAssertAgeOut (slot : SlotId)
  | pressDeadline (slot : SlotId)
  | dwellDeadline (slot : SlotId)
  | expectHighDeadline (slot : SlotId)
  | expectLowDeadline (slot : SlotId)
  | gateWaitDeadline (slot : SlotId)
  | inrushEvaluation
  | inrushUnitUpkeep
  | coldMarkSet (slot : SlotId)
  | storageCheck (slot : SlotId)
  | storageCapacity (slot : SlotId)
  | storageRead (slot : SlotId) (first count : Nat)
  | storageWrite (slot : SlotId) (first count : Nat)
  | storageWriteDataBlock (slot : SlotId) (data : Block)
  | serverAbort (slot : SlotId)
  | fetchDeadline (id : BitVec 16)
  | linkUp (port : Port)
  | linkDown (port : Port)
  | frameReceived (port : Port) (frame : Frame)
  | messageUnknownKind (h : Header) (kind : ForeignKind)
  | egressChoice (port : Port)
  | frameSent (port : Port)
  | discover (h : Header) (dest : DiscoverTo)
  | slotQuery (h : Header)
  | slotClear (h : Header)
  | consoleReadAbsolute (h : Header) (position : Pos) (max : BitVec 16)
  | consoleReadCursor (h : Header) (max : BitVec 16)
  | consoleReadMarker (h : Header) (sel : MarkerSel) (offset max : BitVec 16)
  | historyClear (h : Header)
  | consoleHoldTake (h : Header)
  | consoleHoldForce (h : Header)
  | consoleHoldRelease (h : Header)
  | consoleHoldRenew (h : Header)
  | consoleWrite (h : Header) (quote : BitVec 32) (count : BitVec 16) (bytes : List Byte)
  | consoleBreak (h : Header) (quote : BitVec 32) (duration : BitVec 16)
  | linesQuery (h : Header)
  | powerOn (h : Header) (profile : Option Nat) (quotes : List Quote)
  | powerOffSoft (h : Header) (profile : Option Nat) (quotes : List Quote)
  | powerOffHard (h : Header) (profile : Option Nat) (quotes : List Quote)
  | powerReset (h : Header) (profile : Option Nat) (quotes : List Quote)
  | powerCycleSoft (h : Header) (profile : Option Nat) (quotes : List Quote)
  | powerCycleFeed (h : Header) (profile : Option Nat) (quotes : List Quote)
  | powerFeedOff (h : Header) (profile : Option Nat) (quotes : List Quote)
  | powerFeedOn (h : Header) (profile : Option Nat) (quotes : List Quote)
  | powerAbort (h : Header) (profile : Option Nat) (quotes : List Quote)
  | mediaBind (h : Header) (slot : Byte)
  | mediaUnbind (h : Header)
  | mediaQuery (h : Header)
  | blockData (h : Header) (id : BitVec 16) (block check : BitVec 32) (data : Block)
  | blockAbsent (h : Header) (id : BitVec 16) (first : BitVec 32) (count : Nat) (reason : Byte)
  | tableWriteStation (h : Header) (w : WriteHead) (e : StationEntry)
  | tableWriteSlotSetup (h : Header) (w : WriteHead) (e : SlotSetup)
  | tableWriteConsoleSetup (h : Header) (w : WriteHead) (e : ConsoleSetup)
  | tableWriteProfile (h : Header) (w : WriteHead) (e : Profile)
  | tableWriteClassMap (h : Header) (w : WriteHead) (cls : Nat)
  | tableWriteAutomaton (h : Header) (w : WriteHead) (next : List Nat)
  | tableWriteStateAction (h : Header) (w : WriteHead) (action : Nat)
  | tableWriteWatchAction (h : Header) (w : WriteHead) (e : WatchAction)
  | tableWriteUnitSetup (h : Header) (w : WriteHead) (e : UnitSetup)
  | tableWriteImageMap (h : Header) (w : WriteHead) (e : Option Region)
  | tableWriteBridgeSetup (h : Header) (w : WriteHead) (e : BridgeSetup)
  | tableRead (h : Header) (table : Option TableName) (index : Nat)
  | bridgeControlSave (h : Header)
  | saveComplete
  | bridgeControlRestart (h : Header) (quote : BitVec 16)
  | bridgeControlCounters (h : Header) (group : CounterGroup) (clear : Bool)
  | startBitDetected (slot : SlotId)
  | rxLineAtMark (slot : SlotId)
  deriving DecidableEq, Repr

end Sys2Proof
end

