-- ==== Sys2Proof/Decode.lean ====
section
/-! DEFINITION. The commands that a word spells. No row of the table of operations and events has bits:
the commands reach the 8240 as frames, as events at its pins and as ticks, never as words. -/

namespace Sys2Proof

/-- The command that a word of `nbits` bits spells: none, for no row of the table gives bits. -/
def decodeTableWord (_nbits _w : Nat) : Option Instr := none

end Sys2Proof
end

