-- ==== Sys2Proof/Config.lean ====
section
/-! DEFINITION. What one part fixes for itself: the identification address set at manufacture. -/

namespace Sys2Proof.Config

/-- The 47 bits of the identification address that the manufacturer sets, different for each part
(R178). Nothing constrains them. -/
opaque identBits : BitVec 47

/-- The identification address: `identBits` around the group bit, which is clear (R178). The group
bit is the least significant bit of the first byte, bit 40 of the 48. -/
def identAddress : Addr :=
  (identBits.extractLsb' 40 7 ++ (0#1)) ++ identBits.extractLsb' 0 40

end Sys2Proof.Config
end

