-- ==== Sys2Proof/Machine/Types.lean ====
section
/-! DEFINITION. The records that the state of the 8240 is made of, block by block, and the contents
of the replies and notices it sends. -/

namespace Sys2Proof.Machine

open Sys2Proof

/-! ## Slots and boot records (chapter 1) -/

/-- Observed power (R5). -/
inductive Power where
  | feedOff
  | standby
  | on
  deriving DecidableEq, Repr

/-- The causes a pending cause may hold (R11). -/
inductive PendingCause where
  | operator
  | recoveryPattern
  | recoverySilence
  | localButton
  deriving DecidableEq, Repr

/-- The five causes a boot is attributed to (R9, R12). -/
inductive Cause where
  | operator
  | recoveryPattern
  | recoverySilence
  | localButton
  | unattributed
  deriving DecidableEq, Repr

/-- The cause set: which of the five last-cause values it holds (R12). -/
structure CauseSet where
  operator : Bool := false
  recoveryPattern : Bool := false
  recoverySilence : Bool := false
  localButton : Bool := false
  unattributed : Bool := false
  deriving DecidableEq, Repr

/-- The Slot Record fields of a slot that are specified in chapter 1 (R18). -/
structure SlotRecord where
  observed : Power
  resetWhileOn : Bool := false
  bootCount : BitVec 16 := 0
  pendingCause : Option PendingCause := none
  lastCause : Cause := .unattributed
  causeSet : CauseSet := {}
  feedDropped : Option Time := none
  deriving DecidableEq, Repr

/-! ## Console capture and history (chapter 2) -/

/-- A Console Receiver (R21 to R24): waiting for the line to be at mark (for half a bit time after a
framing error, else for one bit time), waiting for a start bit, or with a character in reception
under the setup of its start bit. `held` is set from the first stop bit's sample of an all-space
frame until the line returns to mark or the break is detected. -/
inductive Receiver where
  | needMark (half : Bool)
  | waiting
  | reception (setup : ConsoleSetup) (held : Bool)
  deriving DecidableEq, Repr

inductive PressClass where
  | tap
  | hold
  | stuck
  deriving DecidableEq, Repr

/-- The reasons of a halted sequencer (R99). -/
inductive HaltReason where
  | pgTimeout
  | gateFailed
  | aborted
  | bridgeRestart
  deriving DecidableEq, Repr

inductive SequenceOutcome where
  | started
  | done
  | halted (r : HaltReason)
  deriving DecidableEq, Repr

/-- The detail of a marker, by its kind (R31). -/
inductive MarkerDetail where
  | boot (count : BitVec 16) (cause : Cause)
  | sequence (action : Action) (outcome : SequenceOutcome)
  | match_ (action : Nat)
  | silence (action : Nat)
  | breakIn
  | holder (station : Option StationId)
  | localPress (button : Button) (cls : PressClass)
  deriving DecidableEq, Repr

/-- A marker (R28); its kind is that of its detail. -/
structure Marker where
  number : BitVec 16
  position : Pos
  time : Time
  detail : MarkerDetail
  deriving DecidableEq, Repr

/-- The History Store and Marker List of a slot (R25, R28, R32). `ring` lists the ring places whose
byte is not 0, in rising order; only the retained positions are ever read. -/
structure History where
  next : Pos := 0
  retained : Nat := 0
  ring : List (Nat × Byte) := []
  markers : List Marker := []
  markerCount : BitVec 16 := 0
  deriving DecidableEq, Repr

/-! ## Console input and the holder (chapter 3) -/

inductive InputItem where
  | byte (b : Byte)
  | brk (duration : Nat)
  deriving DecidableEq, Repr

/-- The transmitter of a slot (R43 to R45). A byte is held with the baud and the line levels of its
character frame (mark is true), built from the setup with which it was taken. -/
inductive Transmitter where
  | idle
  | byte (b : Byte) (baud : Nat) (bits : List Bool)
  | breakSpace (due : Time)
  | breakMark (baud : Nat)
  deriving DecidableEq, Repr

structure InputQueue where
  items : List InputItem := []
  tx : Transmitter := .idle
  holder : Option StationId := none
  count : BitVec 32 := 0
  idleDue : Option Time := none
  deriving DecidableEq, Repr

/-! ## Watch patterns, silence and recovery (chapter 4) -/

/-- The Pattern Matcher's state of one slot (R62); `holdOffs` lists the running hold-offs by watch
action index, in rising order. -/
structure Matcher where
  state : Nat := 0
  holdOffs : List (Nat × Option Time) := []
  deriving DecidableEq, Repr

structure Silence where
  count : Nat := 0
  terminal : Bool := false
  deriving DecidableEq, Repr

/-- What raised a recovery request (R70). -/
inductive RecoverySource where
  | pattern
  | silence
  deriving DecidableEq, Repr

structure RecoveryRequest where
  action : RecoveryAction
  source : RecoverySource
  watch : Nat
  quote : BitVec 16
  deriving DecidableEq, Repr

/-- An open recovery window (R73). -/
structure Window where
  start : Time
  count : Nat
  closes : Time
  deriving DecidableEq, Repr

structure Recovery where
  window : Option Window := none
  waiting : List RecoveryRequest := []
  deriving DecidableEq, Repr

/-! ## Front-panel lines (chapter 5) -/

/-- The Line Driver of a slot: the claims on PWR_OUT and RST_OUT and the level of FEED (R79, R80). -/
structure Lines where
  pwrSeq : Bool := false
  pwrLocal : Bool := false
  rstSeq : Bool := false
  rstLocal : Bool := false
  feed : Bool
  deriving DecidableEq, Repr

/-- The PG input pin and the Power-Good Monitor (R83). `pin` is the level of the pin (high is true). -/
structure PowerGood where
  pin : Bool := false
  filtered : Bool := false
  due : Option Time := none
  deriving DecidableEq, Repr

inductive BlockReason where
  | mode
  | sequence
  | disabled
  deriving DecidableEq, Repr

/-- A press as its classifier recorded it: its time, the thresholds copied at it, and the due times
of its two deadlines (R86). -/
structure Press where
  time : Time
  limits : Thresholds
  glitchDue : Time
  stuckDue : Time
  deriving DecidableEq, Repr

/-- The states of a Button Classifier (R86 to R90). `stuck` keeps the block reason of a press that
was not passed. -/
inductive ClassState where
  | released
  | pending (p : Press)
  | passing (p : Press)
  | blocked (p : Press) (r : BlockReason)
  | stuck (p : Press) (r : Option BlockReason)
  deriving DecidableEq, Repr

/-- A button input and its classifier: whether the input is pressed, and whether it has been seen
released since the classifier last entered RELEASED (R86). -/
structure Classifier where
  pressed : Bool := false
  seen : Bool := true
  state : ClassState := .released
  deriving DecidableEq, Repr

inductive LogLine where
  | pg
  | pwrIn
  | rstIn
  deriving DecidableEq, Repr

/-- An entry of the Line Event Log (R93): an ASSERT when `assert` is set, else a RELEASE. -/
structure LineEvent where
  line : LogLine
  assert : Bool
  time : Time
  width : Option (BitVec 32)
  deriving DecidableEq, Repr

structure LineLog where
  entries : List LineEvent := []
  lastPg : Option Time := none
  lastPwrIn : Option Time := none
  lastRstIn : Option Time := none
  deriving DecidableEq, Repr

/-! ## Power sequences (chapter 6) -/

inductive PressRole where
  | start
  | stop
  deriving DecidableEq, Repr

/-- The durations of a DWELL: the reset width, the off dwell, or 1 s (R116, R117). -/
inductive DwellKind where
  | reset
  | off
  | one
  deriving DecidableEq, Repr

/-- The steps of the step table. `expectLow soft` follows the stop PRESS of a soft off when `soft`,
else a stop HOLD. `powerOnTail` stands for the POWER_ON steps that CYCLE_SOFT and CYCLE_FEED choose
from the observed power when they reach it (R116, R117). -/
inductive Step where
  | press (role : PressRole)
  | hold
  | expectHigh
  | expectLow (soft : Bool)
  | dwell (d : DwellKind)
  | gate
  | assertRst
  | releaseRst
  | feedDrop
  | feedRestore
  | powerOnTail
  deriving DecidableEq, Repr

inductive SeqState where
  | idle
  | waitBudget
  | stepping
  | waitGate
  | halted (r : HaltReason)
  deriving DecidableEq, Repr

/-- Who asked for a sequence (R103). -/
inductive Origin where
  | operator
  | recovery (src : RecoverySource)
  deriving DecidableEq, Repr

inductive GateOutcome where
  | notApplied
  | primed
  | waived
  deriving DecidableEq, Repr

/-- The sequence record, present while the sequencer is busy (R99). -/
structure SeqRecord where
  action : Action
  origin : Origin
  profile : Nat
  steps : List Step
  current : Step
  deadline : Option Time := none
  escalated : Bool := false
  gate : Option GateOutcome := none
  accepted : Time
  deriving DecidableEq, Repr

structure Sequencer where
  state : SeqState := .idle
  record : Option SeqRecord := none
  deriving DecidableEq, Repr

/-! ## Inrush budget (chapter 7) -/

inductive ChargeKind where
  | feedRestore
  | startPress
  deriving DecidableEq, Repr

/-- An Inrush Queue entry. -/
structure Waiting where
  slot : SlotId
  kind : ChargeKind
  charge : Nat
  settle : Nat
  deriving DecidableEq, Repr

/-- An Active Charge List entry. -/
structure Charge where
  slot : SlotId
  kind : ChargeKind
  charge : Nat
  settle : Nat
  start : Time
  deriving DecidableEq, Repr

structure InrushCounters where
  joins : Counter := 0
  started : Counter := 0
  oversized : Counter := 0
  skipped : Counter := 0
  withdrawals : Counter := 0
  deriving DecidableEq, Repr

structure Inrush where
  last : Option Time := none
  queue : List Waiting := []
  active : List Charge := []
  counters : InrushCounters := {}
  deriving DecidableEq, Repr

/-! ## Media units (chapter 8) -/

/-- What a server block resolves to (R147): the overlay block of an LBA, zeros, or an image block. -/
inductive Source where
  | overlay (lba : Nat)
  | zeros
  | image (b : Nat)
  deriving DecidableEq, Repr

/-- The storage port outcomes (R148). -/
inductive PortOutcome where
  | good
  | notPresent
  | mediumChanged
  | range
  | protected_
  | mediumError
  | full
  deriving DecidableEq, Repr

inductive RequestKind where
  | check
  | capacity
  | read
  | write
  deriving DecidableEq, Repr

/-- What a storage port has told its server, in order: a delivered block, the data of a CAPACITY,
and the outcome that completes a request. -/
inductive ServerOut where
  | block (lba : Nat) (data : Block)
  | capacity (blocks blockSize : Nat)
  | done (kind : RequestKind) (o : PortOutcome)
  deriving DecidableEq, Repr

/-- The request in flight on a storage port (R148). A read keeps its next LBA, the resolutions of its
undelivered blocks, and all its image blocks; a write keeps its next LBA and the blocks to come. -/
inductive PortRequest where
  | read (lba : Nat) (rest : List Source) (images : List Nat)
  | write (lba left : Nat)
  deriving DecidableEq, Repr

structure StoragePort where
  inFlight : Option PortRequest := none
  out : List ServerOut := []
  deriving DecidableEq, Repr

inductive UnitState where
  | detached
  | presenting
  | ejecting
  deriving DecidableEq, Repr

inductive PrimeState where
  | none
  | running
  | done
  | failed
  deriving DecidableEq, Repr

inductive EjectReason where
  | unbind
  | stationChange
  | bootsUsed
  deriving DecidableEq, Repr

structure UnitCounters where
  readsGood : Counter := 0
  delivered : Counter := 0
  writesGood : Counter := 0
  written : Counter := 0
  mediaErrors : Counter := 0
  protectedRefusals : Counter := 0
  spaceRefusals : Counter := 0
  aborts : Counter := 0
  fetches : Counter := 0
  reAsks : Counter := 0
  accepted : Counter := 0
  failed : Counter := 0
  deriving DecidableEq, Repr

/-- A media unit (R137). `overlay` is the Overlay Index with the data of each held block, in rising
LBA order; `reserved` the reservation; `primeImages` the image blocks a RUNNING prime covers. -/
structure MediaUnit where
  state : UnitState := .detached
  slot : Option SlotId := none
  station : Option (StationId × Addr) := none
  bootsLeft : Nat := 0
  prime : PrimeState := .none
  primeImages : List Nat := []
  mediumChanged : Bool := false
  overlay : List (Nat × Block) := []
  reserved : Nat := 0
  ejectReason : Option EjectReason := none
  counters : UnitCounters := {}
  deriving DecidableEq, Repr

/-! ## Block fetch and the Block Cache (chapter 9) -/

inductive CacheBlock where
  | empty
  | pending
  | valid (data : Block)
  | failed
  deriving DecidableEq, Repr

/-- A line in use. The cache lists them in use order, least recently used first. -/
structure CacheLine where
  unit : UnitId
  group : Nat
  blocks : Vector CacheBlock 8 := Vector.replicate 8 .empty
  pins : Nat := 0
  deriving DecidableEq, Repr

inductive FetchPhase where
  | held
  | out (due : Time)
  deriving DecidableEq, Repr

/-- A fetch record (R164). Its line is the one of its unit and of the group of `first`. -/
structure FetchRecord where
  id : BitVec 16
  unit : UnitId
  first : Nat
  count : Nat
  phase : FetchPhase := .held
  reAsk : Nat := 0
  waiting : List Nat
  deriving DecidableEq, Repr

/-- An Issue Queue entry (R163): the requester is the unit's prime or the read on its port. -/
structure IssueEntry where
  unit : UnitId
  group : Nat
  prime : Bool
  deriving DecidableEq, Repr

structure FetchCounters where
  malformed : Counter := 0
  foreign : Counter := 0
  stale : Counter := 0
  duplicate : Counter := 0
  checkFail : Counter := 0
  replacements : Counter := 0
  deriving DecidableEq, Repr

structure FetchTable where
  records : List FetchRecord := []
  issue : List IssueEntry := []
  lastId : BitVec 16 := 0
  counters : FetchCounters := {}
  deriving DecidableEq, Repr

/-! ## Tables (R195) -/

/-- The eleven tables. The sparse ones list the entries that differ from the factory value. -/
structure Tables where
  stations : Vector StationEntry 32
  slotSetup : Vector SlotSetup 8
  consoleSetup : Vector ConsoleSetup 8
  profiles : Vector Profile 8
  classMap : List (Nat × Nat)
  automaton : List (Nat × List Nat)
  stateAction : List (Nat × Nat)
  watch : List (Nat × WatchAction)
  unitSetup : Vector UnitSetup 4
  maps : Vector (Option Region) 64
  bridge : BridgeSetup
  deriving DecidableEq, Repr

/-- One entry of a table as a reply carries it; a station entry with its last port (R195). -/
inductive TableEntry where
  | station (e : StationEntry) (last : Option Port)
  | slotSetup (e : SlotSetup)
  | consoleSetup (e : ConsoleSetup)
  | profile (e : Profile)
  | classMap (cls : Nat)
  | automaton (next : List Nat)
  | stateAction (action : Nat)
  | watchAction (e : WatchAction)
  | unitSetup (e : UnitSetup)
  | imageMap (e : Option Region)
  | bridgeSetup (e : BridgeSetup)
  deriving DecidableEq, Repr

/-! ## Counters (R201) -/

structure ButtonCounters where
  glitches : Counter := 0
  passed : Counter := 0
  blocked : Counter := 0
  stuck : Counter := 0
  deriving DecidableEq, Repr

/-- The counters of a slot (R41, R58, R78, R96, R122) and its port's not-present counter (R159). -/
structure SlotCounters where
  received : Counter := 0
  parityErrors : Counter := 0
  framingErrors : Counter := 0
  breaks : Counter := 0
  overwritten : Counter := 0
  txBytes : Counter := 0
  txBreaks : Counter := 0
  flushed : Counter := 0
  matchesFired : Counter := 0
  matchesHeld : Counter := 0
  silences : Counter := 0
  recoveriesStarted : Counter := 0
  recoveriesDeclined : Counter := 0
  pgGlitches : Counter := 0
  pwrIn : ButtonCounters := {}
  rstIn : ButtonCounters := {}
  accepted : Counter := 0
  done : Counter := 0
  halted : Counter := 0
  skipped : Counter := 0
  notPresent : Counter := 0
  deriving DecidableEq, Repr

/-- The per-port counters of R190. -/
structure PortCounters where
  received : Counter := 0
  fcsErrors : Counter := 0
  lengthErrors : Counter := 0
  sent : Counter := 0
  linkDowns : Counter := 0
  flushed : Counter := 0
  passDrop : Counter := 0
  replySpace : Counter := 0
  noticeDrop : Counter := 0
  deriving DecidableEq, Repr

/-- The bridge-wide classifier counters of R190. -/
structure FrameCounters where
  selfSource : Counter := 0
  unknownStation : Counter := 0
  wrongType : Counter := 0
  deriving DecidableEq, Repr

/-! ## Replies -/

/-- The status codes. -/
inductive Status where
  | ok
  | denied
  | busy
  | stale
  | range
  | state
  | full
  | malformed
  | unsupported
  deriving DecidableEq, Repr

/-- What SLOT_QUERY reports of a slot (R16). -/
structure SlotReport where
  observed : Power
  bootCount : BitVec 16
  lastCause : Cause
  causeSet : CauseSet
  pendingCause : Option PendingCause
  feedDropped : Option Time
  seq : SeqState
  holder : Option StationId
  inputCount : BitVec 32
  boundUnit : Option UnitId
  window : Option (Time × Nat)
  deriving DecidableEq, Repr

/-- The reply of a CONSOLE_READ answered OK (R37). -/
structure ReadReport where
  slot : SlotId
  start : Pos
  oldest : Pos
  next : Pos
  gap : Bool
  lost : BitVec 32
  data : List Byte
  marker : Option Marker
  deriving DecidableEq, Repr

inductive ClassName where
  | released
  | pending
  | passing
  | blocked
  | stuck
  deriving DecidableEq, Repr

/-- A classifier as LINES_QUERY reports it (R95). -/
structure ClassReport where
  state : ClassName
  reason : Option BlockReason
  pressTime : Option Time
  deriving DecidableEq, Repr

/-- The level of PWR_OUT or RST_OUT with the holding claim (R95). -/
inductive OutReport where
  | released
  | assertedLocal
  | assertedSequence
  deriving DecidableEq, Repr

/-- The reply of LINES_QUERY (R95). -/
structure LinesReport where
  time : Time
  pwrIn : Bool
  rstIn : Bool
  pwrClass : ClassReport
  rstClass : ClassReport
  pgRaw : Bool
  pgFiltered : Bool
  pgArmed : Bool
  pwrOut : OutReport
  rstOut : OutReport
  feed : Bool
  observed : Power
  logCount : Nat
  log : List LineEvent
  deriving DecidableEq, Repr

/-- The outcome of one slot of a POWER request (R102). -/
inductive PowerOutcome where
  | ok (st : SeqState)
  | denied
  | statePowerControl
  | stateLine
  | busySequencer (st : SeqState)
  | busyLocal
  | stateQuoteRequired
  | stale (count : BitVec 16)
  | stateNotOn
  deriving DecidableEq, Repr

/-- The reply of MEDIA_QUERY (R157). -/
structure MediaReport where
  state : UnitState
  reason : Option EjectReason
  slot : Option SlotId
  station : Option (StationId × Addr)
  bootsLeft : Nat
  presentBoots : Nat
  prime : PrimeState
  mediumChanged : Bool
  capacity : Nat
  port : Option RequestKind
  held : Nat
  limit : Nat
  free : Nat
  deriving DecidableEq, Repr

/-- The snapshot of the Inrush Scheduler (R136); each charge with its contribution. -/
structure InrushSnapshot where
  capacity : Nat
  spacing : Nat
  last : Option Time
  load : Nat
  queue : List Waiting
  active : List (Charge × Nat)
  deriving DecidableEq, Repr

/-- A counter group as a COUNTERS reply carries it (R201). -/
inductive CounterReport where
  | port (c : PortCounters) (up : Bool)
  | frame (c : FrameCounters)
  | slot (c : SlotCounters)
  | unit (c : UnitCounters)
  | fetch (c : FetchCounters)
  | inrush (c : InrushCounters) (snap : InrushSnapshot)
  deriving DecidableEq, Repr

/-- The reply of DISCOVER (R196). -/
structure DiscoverReport where
  address : Addr
  group : Addr
  frameType : BitVec 16
  version : Nat
  slots : Nat
  units : Nat
  restartCount : BitVec 16
  time : Time
  notice : BitVec 16
  storeValid : Bool
  saveRunning : Bool
  restartPending : Bool
  entry : StationId
  rights : Rights
  mask : BitVec 8
  deriving DecidableEq, Repr

/-- The data of a REPLY, as its kind's rule names it for its status (R193). `writeHeld` and `brkHeld` are
the replies refused with STATE, which name the holder (R54). -/
inductive ReplyData where
  | none
  | discover (r : DiscoverReport)
  | slotQuery (time : Time) (slots : List (SlotId × Option SlotReport))
  | slotClear (slots : List (SlotId × Status))
  | read (r : ReadReport)
  | readRange (oldest next : Pos)
  | historyClear (next : Pos)
  | hold (holder : Option StationId) (count : BitVec 32) (due : Option Time)
  | write (accepted : Nat) (count : BitVec 32) (free : Nat)
  | writeHeld (accepted : Nat) (count : BitVec 32) (free : Nat) (holder : Option StationId)
  | brk (duration : Nat) (count : BitVec 32) (free : Nat)
  | brkHeld (holder : Option StationId)
  | brkStale (count : BitVec 32) (free : Nat)
  | lines (r : LinesReport)
  | power (slots : List (SlotId × PowerOutcome))
  | bind (unit : UnitId) (st : UnitState) (slot : SlotId) (bootsLeft capacity : Nat) (prime : PrimeState)
  | bindRefused (st : UnitState) (bound : Option UnitId)
  | unbindRefused (st : UnitState)
  | media (r : MediaReport)
  | table (e : TableEntry)
  | restartAccepted
  | restartStale (count : BitVec 16)
  | counters (r : CounterReport)
  deriving DecidableEq, Repr

/-! ## Notices (R194) -/

inductive HolderReason where
  | take
  | force
  | release
  | idle
  | stationChange
  deriving DecidableEq, Repr

/-- Why a recovery was declined, with the data of the reason (R74). -/
inductive DeclineReason where
  | disarmed
  | busySequencer (st : SeqState)
  | busyLocal
  | exhausted (count limit : Nat) (closes : Option Time)
  | stale (quote count : BitVec 16)
  | state
  deriving DecidableEq, Repr

inductive PressEvent where
  | blocked
  | tap
  | hold
  | stuck
  | stuckCleared
  deriving DecidableEq, Repr

inductive MediaEvent where
  | bound
  | ejecting
  | detached
  | primed
  | primeFailed
  deriving DecidableEq, Repr

inductive FetchReason where
  | noAnswer
  | absent (code : Byte)
  deriving DecidableEq, Repr

/-- What the notice of a sequence's end carries besides its outcome (R120). -/
structure SequenceEnd where
  action : Action
  origin : Origin
  profile : Nat
  step : Option Step
  escalated : Bool
  gate : Option GateOutcome
  accepted : Time
  bootCount : BitVec 16
  observed : Power
  deriving DecidableEq, Repr

/-- The kind and fields of a notice, in the order of R194's table. -/
inductive NoticeBody where
  | powerChanged (before after : Power) (boot : Bool) (count : BitVec 16) (cause : Cause)
  | holderChanged (before after : Option StationId) (reason : HolderReason) (count : BitVec 32)
  | patternMatch (watch : Nat) (position : Pos) (bootCount : BitVec 16) (returnState : Nat)
  | consoleSilent (watch limit unit : Nat) (position : Pos)
  | recoveryStarted (action : RecoveryAction) (source : RecoverySource) (watch count : Nat) (closes : Time)
  | recoveryDeclined (action : RecoveryAction) (source : RecoverySource) (watch : Nat) (reason : DeclineReason)
  | localPress (button : Button) (event : PressEvent) (passed : Bool) (reason : Option BlockReason)
      (width : Option (BitVec 32)) (pressTime : Time)
  | sequenceDone (e : SequenceEnd)
  | sequenceHalted (reason : HaltReason) (e : SequenceEnd)
  | mediaState (unit : UnitId) (st : UnitState) (event : MediaEvent) (reason : Option EjectReason) (held : Nat)
  | fetchFailed (unit : UnitId) (id : BitVec 16) (first count failed lowest : Nat) (reason : FetchReason) (reAsk : Nat)
  | saveDone (taken : Time)
  | bridgeStarted (restartCount : BitVec 16) (restart : Bool) (storeValid : Bool)
  deriving DecidableEq, Repr

/-! ## Ports and frames the bridge originates (chapter 10) -/

inductive OwnBody where
  | reply (kind : MsgKind) (status : Status) (data : ReplyData)
  | notice (number : BitVec 16) (time : Time) (slot : Option SlotId) (body : NoticeBody)
  | blockFetch (unit : UnitId) (id : BitVec 16) (first count reAsk : Nat)
  deriving DecidableEq, Repr

/-- A frame the bridge originates: its addresses, its type, and the header's version, target and tag
(R191). Its kind is that of its body, and the length and bytes of the body follow from it. -/
structure OwnFrame where
  dst : Addr
  src : Addr
  etype : BitVec 16
  version : Byte := 1
  target : Byte
  tag : BitVec 16
  body : OwnBody
  deriving DecidableEq, Repr

inductive Outgoing where
  | pass (f : Frame)
  | own (f : OwnFrame)
  deriving DecidableEq, Repr

/-- A port: link state, Pass Queue, Own Queue, own-share counter and transmitter. -/
structure PortState where
  up : Bool := false
  pass : List Frame := []
  own : List OwnFrame := []
  share : Nat := 0
  sending : Option Outgoing := none
  counters : PortCounters := {}
  deriving DecidableEq, Repr

/-! ## Bridge control (chapter 11) -/

/-- A running SAVE (R198): the copy of the tables, when it was taken, and the latest time at which
its writing is complete. -/
structure SaveJob where
  copy : Tables
  taken : Time
  due : Time
  deriving DecidableEq, Repr

/-- A restart that has been ordered (R199): its reply is still in the bridge, or has left. -/
inductive RestartPhase where
  | none
  | pending
  | due
  deriving DecidableEq, Repr

end Sys2Proof.Machine
end

