-- ==== Sys2Proof/Machine/Factory.lean ====
section
/-! DEFINITION. The factory tables, as each table's rule gives them (R200). -/

namespace Sys2Proof.Machine

open Sys2Proof

/-- The factory class of a byte value and the factory action index of a state (R59, R60). -/
def factoryIndex : Nat := 0

/-- A factory AUTOMATON row: every next state is 0 (R59). -/
def factoryRow : List Nat := List.replicate 32 0

/-- A factory WATCH_ACTION entry (R60). -/
def factoryWatch : WatchAction := {}

/-- The factory Station Table: entry 0 is ANY with ADMIN on all slots, the others not valid (R181). -/
def factoryStations : Vector StationEntry 32 :=
  upd (Vector.replicate 32 {}) 0
    (fun _ => { valid := true, address := .any, rights := { admin := true }, mask := 0xFF })

/-- The factory tables, with the part's identification address as its station address (R178). -/
def factoryTables : Tables where
  stations := factoryStations
  slotSetup := Vector.replicate 8 {}
  consoleSetup := Vector.replicate 8 {}
  profiles := Vector.replicate 8 {}
  classMap := []
  automaton := []
  stateAction := []
  watch := []
  unitSetup := Vector.replicate 4 {}
  maps := Vector.replicate 64 none
  bridge := { address := Config.identAddress }

end Sys2Proof.Machine
end

