-- ==== Sys2Proof/Machine/State.lean ====
section
/-! DEFINITION. The state of the 8240, the reasons a step may stop, and the state after power-up. -/

namespace Sys2Proof.Machine

open Sys2Proof

/-- All the state a slot has, block by block. -/
structure Slot where
  record : SlotRecord
  rx : Receiver := .needMark false
  hist : History := {}
  input : InputQueue := {}
  matcher : Matcher := {}
  silence : Silence := {}
  recovery : Recovery := {}
  lines : Lines
  pg : PowerGood := {}
  pwrBtn : Classifier := {}
  rstBtn : Classifier := {}
  log : LineLog := {}
  seq : Sequencer := {}
  coldMark : Bool := false
  port : StoragePort := {}
  counters : SlotCounters := {}
  deriving DecidableEq, Repr

/-- The state of the bridge. `now`, `msInUnit` and `unitTicks` are the Time Base: bridge time, the
milliseconds since the last unit tick, and the unit ticks since power-up. `cache` lists the cache
lines in use, least recently used first. `store` is the Configuration Store, absent while INVALID. -/
structure State where
  now : Time
  msInUnit : Nat
  unitTicks : Nat
  slots : Vector Slot 8
  units : Vector MediaUnit 4
  poolFree : Nat
  cache : List CacheLine
  fetch : FetchTable
  inrush : Inrush
  uplink : PortState
  chain : PortState
  frameCounters : FrameCounters
  tables : Tables
  lastPorts : Vector (Option Port) 32
  cursors : Vector (Vector (Option Pos) 8) 32
  noticeNumber : BitVec 16
  restartCount : BitVec 16
  restart : RestartPhase
  save : Option SaveJob
  store : Option Tables
  storeValid : Bool
  /-- The commands that wait, the first in front. -/
  pending : List Instr
  deriving DecidableEq, Repr

/-- The faults of the bridge: none. No rule of the manual stops the bridge, so no step ends in a
fault. Safe: there is nothing to raise. -/
inductive Fault where
  deriving DecidableEq, Repr

/-- Why a command has no meaning in this model. -/
inductive Refusal where
  /-- Raised by an arm of `exec` whose command has no meaning yet. Safe: nothing can be proved of
  what such a command does. No arm raises it. -/
  | notModelled (mnemonic : String)
  deriving DecidableEq, Repr

/-- A slot after power-up with the factory tables: FEED is raised, for feed at power-up is ON and
the FEED enable is yes, so observed power is STANDBY (R7, R80); both buttons are up and the PG pin
is low. -/
def Slot.reset : Slot where
  record := { observed := .standby }
  lines := { feed := true }

/-- The machine right after the power-up of a part whose Configuration Store is blank, and so
INVALID: the factory tables are loaded and BRIDGE_STARTED has been generated, to no recipient, with
notice number 1 (R200, R194). Both ports are DOWN (R176). -/
def State.reset : State where
  now := 0
  msInUnit := 0
  unitTicks := 0
  slots := Vector.replicate 8 Slot.reset
  units := Vector.replicate 4 {}
  poolFree := 4096
  cache := []
  fetch := {}
  inrush := {}
  uplink := {}
  chain := {}
  frameCounters := {}
  tables := factoryTables
  lastPorts := Vector.replicate 32 none
  cursors := Vector.replicate 32 (Vector.replicate 8 none)
  noticeNumber := 1
  restartCount := 0
  restart := .none
  save := none
  store := none
  storeValid := false
  pending := []

end Sys2Proof.Machine
end

