-- ==== Sys2Proof/Machine/Ops.lean ====
section
/-! DEFINITION. The operations every block shares: reading and changing one slot, unit or port,
sparse tables, deadlines, the Station Table's lookup, the Own Queues, notices, markers and the
common handling of a request. -/

namespace Sys2Proof.Machine

open Sys2Proof

/-! ## Slots, units, ports -/

def State.slot (s : State) (i : SlotId) : Slot := s.slots[i]

def State.modSlot (s : State) (i : SlotId) (f : Slot → Slot) : State :=
  { s with slots := upd s.slots i f }

def State.unit (s : State) (u : UnitId) : MediaUnit := s.units[u]

def State.modUnit (s : State) (u : UnitId) (f : MediaUnit → MediaUnit) : State :=
  { s with units := upd s.units u f }

def State.port (s : State) : Port → PortState
  | .uplink => s.uplink
  | .chain => s.chain

def State.modPort (s : State) (p : Port) (f : PortState → PortState) : State :=
  match p with
  | .uplink => { s with uplink := f s.uplink }
  | .chain => { s with chain := f s.chain }

def otherPort : Port → Port
  | .uplink => .chain
  | .chain => .uplink

/-- Change the counters of a slot. -/
def State.count (s : State) (i : SlotId) (f : SlotCounters → SlotCounters) : State :=
  s.modSlot i fun x => { x with counters := f x.counters }

/-- Change the counters of a unit. -/
def State.countUnit (s : State) (u : UnitId) (f : UnitCounters → UnitCounters) : State :=
  s.modUnit u fun x => { x with counters := f x.counters }

/-- Change the counters of a port. -/
def State.countPort (s : State) (p : Port) (f : PortCounters → PortCounters) : State :=
  s.modPort p fun x => { x with counters := f x.counters }

/-- Change the bridge-wide counters of the fetch path. -/
def State.countFetch (s : State) (f : FetchCounters → FetchCounters) : State :=
  { s with fetch := { s.fetch with counters := f s.fetch.counters } }

/-- The slot's setup entries. -/
def State.setup (s : State) (i : SlotId) : SlotSetup := s.tables.slotSetup[i]

def State.console (s : State) (i : SlotId) : ConsoleSetup := s.tables.consoleSetup[i]

def State.station (s : State) (e : StationId) : StationEntry := s.tables.stations[e]

def State.unitSetup (s : State) (u : UnitId) : UnitSetup := s.tables.unitSetup[u]

/-- The profile of an index; indices in the tables are 0 to 7. -/
def State.profile (s : State) (n : Nat) : Profile := s.tables.profiles[n]?.getD {}

/-! ## Sparse tables -/

/-- The value of key `a`: the listed one, or `d` when none is listed. -/
def sparseGet {α : Type} (d : α) : List (Nat × α) → Nat → α
  | [], _ => d
  | (k, v) :: m, a => if a = k then v else sparseGet d m a

/-- Give key `a` the value `v`, keeping the keys rising and no entry equal to `d`. -/
def sparseSet {α : Type} [DecidableEq α] (d : α) : List (Nat × α) → Nat → α → List (Nat × α)
  | [], a, v => if v = d then [] else [(a, v)]
  | (k, w) :: m, a, v =>
    if a < k then (if v = d then (k, w) :: m else (a, v) :: (k, w) :: m)
    else if a = k then (if v = d then m else (a, v) :: m)
    else (k, w) :: sparseSet d m a v

/-- Every key is at least `lo`, keys rise, and no entry equals `d`. -/
def sparseFrom {α : Type} [DecidableEq α] (d : α) : Nat → List (Nat × α) → Bool
  | _, [] => true
  | lo, (k, v) :: m => decide (lo ≤ k) && decide (v ≠ d) && sparseFrom d (k + 1) m

/-- The canonical form of a sparse table. -/
def sparseWf {α : Type} [DecidableEq α] (d : α) (m : List (Nat × α)) : Bool := sparseFrom d 0 m

/-- The value of an LBA in an Overlay Index, if it holds it. -/
def indexGet : List (Nat × Block) → Nat → Option Block
  | [], _ => none
  | (k, v) :: m, a => if a = k then some v else indexGet m a

/-- Put LBA `a` with data `v` into an Overlay Index, in rising order and at most once. -/
def indexSet : List (Nat × Block) → Nat → Block → List (Nat × Block)
  | [], a, v => [(a, v)]
  | (k, w) :: m, a, v =>
    if a < k then (a, v) :: (k, w) :: m
    else if a = k then (a, v) :: m
    else (k, w) :: indexSet m a v

/-! ## Deadlines (R1) -/

/-- The due time of a deadline of `ms` milliseconds armed now; a delay of 0 is taken as 1 (R1). -/
def State.after (s : State) (ms : Nat) : Time := s.now + BitVec.ofNat 32 (max 1 ms)

/-- Bridge time has reached the due time: their difference, taken modulo 2^32, is below 2^31, the
bound that R1 gives for delays. -/
def reached (due now : Time) : Bool := decide ((now - due).toNat < 2 ^ 31)

/-- The deadline is armed and bridge time has reached its due time. -/
def expired (due : Option Time) (now : Time) : Bool :=
  match due with
  | some d => reached d now
  | none => false

/-! ## Slot masks and rights (R180) -/

def maskHas (m : BitVec 8) (i : SlotId) : Bool := m.getLsbD i

/-- The slots of a mask in ascending order. -/
def slotsOf (m : BitVec 8) : List SlotId := (List.finRange 8).filter (maskHas m)

/-- A right that concerns a slot is held on it when the entry holds the right and its mask the slot
(R180). -/
def State.holdsOn (s : State) (e : StationId) (right : Rights → Bool) (i : SlotId) : Bool :=
  right (s.station e).rights && maskHas (s.station e).mask i

/-! ## The Station Table's lookup (R182) -/

/-- The valid entry whose address is `a`, else the valid ANY entry, else none. -/
def State.lookup (s : State) (a : Addr) : Option StationId :=
  match (List.finRange 32).find? (fun e => (s.station e).valid && decide ((s.station e).address = .mac a)) with
  | some e => some e
  | none => (List.finRange 32).find? (fun e => (s.station e).valid && decide ((s.station e).address = .any))

/-- Where an entry was last heard, or UPLINK when it has no last port (R165, R187). -/
def State.route (s : State) (e : StationId) : Port := s.lastPorts[e].getD .uplink

/-! ## Own Queues (R186 to R188) -/

/-- A frame the bridge originates: its source is the bridge station address and its type the bridge
frame type (R178). -/
def State.ownFrame (s : State) (dst : Addr) (target : Byte) (tag : BitVec 16) (body : OwnBody) : OwnFrame :=
  { dst, src := s.tables.bridge.address, etype := s.tables.bridge.frameType, target, tag, body }

/-- The Own Queue of `p` has room: the port is UP and the queue holds fewer than 24 frames (R176). -/
def State.ownRoom (s : State) (p : Port) : Bool := (s.port p).up && decide ((s.port p).own.length < 24)

def State.ownAppend (s : State) (p : Port) (f : OwnFrame) : State :=
  s.modPort p fun x => { x with own := x.own ++ [f] }

/-! ## Notices (R194, R187) -/

/-- A notice's recipients: the valid entries with NOTICE, for a slot notice those whose mask holds
the slot, in ascending order. -/
def State.recipients (s : State) (slot : Option SlotId) : List StationId :=
  (List.finRange 32).filter fun e =>
    (s.station e).valid && (s.station e).rights.notice &&
      (match slot with
       | some i => maskHas (s.station e).mask i
       | none => true)

/-- The address a copy goes to: the entry's own, or the bridge group address for ANY (R187). -/
def State.noticeAddr (s : State) (e : StationId) : Addr :=
  match (s.station e).address with
  | .mac a => a
  | .any => s.tables.bridge.group

/-- One copy of a notice is offered to its recipient's Own Queue, or dropped as NOTICE_DROP (R187). -/
def offerCopy (body : OwnBody) (slot : Option SlotId) (s : State) (e : StationId) : State :=
  let p := s.route e
  let target : Byte := match slot with
    | some i => BitVec.ofNat 8 i
    | none => 0
  if s.ownRoom p then s.ownAppend p (s.ownFrame (s.noticeAddr e) target 0 body)
  else s.countPort p fun c => { c with noticeDrop := bump c.noticeDrop }

/-- A notice is generated: it takes the next number and is routed to its recipients (R194, R187). -/
def State.notify (s : State) (slot : Option SlotId) (body : NoticeBody) : State :=
  let s := { s with noticeNumber := s.noticeNumber + 1 }
  (s.recipients slot).foldl (offerCopy (.notice s.noticeNumber s.now slot body) slot) s

/-! ## Markers (R28 to R31) -/

/-- The oldest retained position of a slot (R2). -/
def oldest (h : History) : Pos := h.next - BitVec.ofNat 32 h.retained

/-- Position `p` lies in the interval from `a` to `b` (R2). -/
def inInterval (a b p : Pos) : Bool := decide ((p - a).toNat ≤ (b - a).toNat)

def markerKind : MarkerDetail → MarkerKind
  | .boot _ _ => .boot
  | .sequence _ _ => .sequence
  | .match_ _ => .match_
  | .silence _ => .silence
  | .breakIn => .breakIn
  | .holder _ => .holder
  | .localPress _ _ => .localPress

/-- The Marker List takes a posting (R29). -/
def postTo (h : History) (now : Time) (d : MarkerDetail) : History :=
  let n := h.markerCount + 1
  let kept := if 64 ≤ h.markers.length then h.markers.drop 1 else h.markers
  { h with markerCount := n, markers := kept ++ [{ number := n, position := h.next, time := now, detail := d }] }

def State.post (s : State) (i : SlotId) (d : MarkerDetail) : State :=
  s.modSlot i fun x => { x with hist := postTo x.hist s.now d }

/-! ## Slot masks (R15) -/

/-- The slots are handled one at a time in order, each seeing the effects of those before it. -/
def eachSlot {α : Type} (f : SlotId → State → α × State) : List SlotId → State → List (SlotId × α) × State
  | [], s => ([], s)
  | i :: is, s =>
    let r := f i s
    let rest := eachSlot f is r.2
    ((i, r.1) :: rest.1, rest.2)

end Sys2Proof.Machine
end

