-- ==== Sys2Proof/Machine/Flags.lean ====
section
/-! DEFINITION. The levels and flags that follow from the state: observed power, the levels of the
lines and pins, whether a sequencer is busy or a classifier PASSING, and a slot's bound unit. -/

namespace Sys2Proof.Machine

open Sys2Proof


/-- Observed power from the FEED level and the filtered PG state (R5). -/
def observe (feed filtered : Bool) : Power :=
  if feed then (if filtered then .on else .standby) else .feedOff

def pwrAsserted (l : Lines) : Bool := l.pwrSeq || l.pwrLocal

def rstAsserted (l : Lines) : Bool := l.rstSeq || l.rstLocal

/-- The level of an output's pin: its active level while asserted or raised and enabled, else the
opposite (R79). -/
def pinLevel (o : OutSetup) (active : Bool) : Bool := if active && o.enable then o.high else !o.high

/-- The raw PG line is at the slot's PG active level (R83). -/
def State.pgRaw (s : State) (i : SlotId) : Bool := (s.slot i).pg.pin == (s.setup i).pgHigh

def seqBusy (st : SeqState) : Bool :=
  match st with
  | .idle => false
  | .halted _ => false
  | .waitBudget => true
  | .stepping => true
  | .waitGate => true

def isPassing (c : Classifier) : Bool :=
  match c.state with
  | .passing _ => true
  | _ => false

/-- A Button Classifier of the slot is PASSING. -/
def State.localPassing (s : State) (i : SlotId) : Bool :=
  isPassing (s.slot i).pwrBtn || isPassing (s.slot i).rstBtn

/-- The media unit bound to a slot (R137). -/
def State.unitOf (s : State) (i : SlotId) : Option UnitId :=
  (List.finRange 4).find? fun u => decide ((s.unit u).slot = some i)

/-- The overlay blocks a unit holds or has reserved (R153). -/
def heldCount (m : MediaUnit) : Nat := m.overlay.length + m.reserved

end Sys2Proof.Machine
end

