-- ==== Sys2Proof/Machine/Fetch.lean ====
section
/-! DEFINITION. The Block Cache, the Fetch Table with its Issue Queue, and the Check Engine
(chapter 9). -/

namespace Sys2Proof.Machine

open Sys2Proof

/-! ## Cache lines (R160 to R162) -/

/-- The line of unit `u` and group `g`. -/
def isLine (u : UnitId) (g : Nat) (l : CacheLine) : Bool := decide (l.unit = u) && decide (l.group = g)

def State.line (s : State) (u : UnitId) (g : Nat) : Option CacheLine := s.cache.find? (isLine u g)

/-- The state of an image block of a unit; a block whose group has no line is not held. -/
def State.blockAt (s : State) (u : UnitId) (b : Nat) : CacheBlock :=
  match s.line u (b / 8) with
  | some l => l.blocks[Fin.ofNat 8 b]
  | none => .empty

def isEmpty : CacheBlock → Bool
  | .empty => true
  | _ => false

def isPending : CacheBlock → Bool
  | .pending => true
  | _ => false

def isValid : CacheBlock → Bool
  | .valid _ => true
  | _ => false

def State.modLine (s : State) (u : UnitId) (g : Nat) (f : CacheLine → CacheLine) : State :=
  { s with cache := s.cache.map fun l => if isLine u g l then f l else l }

def setBlock (u : UnitId) (v : CacheBlock) (s : State) (b : Nat) : State :=
  s.modLine u (b / 8) fun l => { l with blocks := upd l.blocks (Fin.ofNat 8 b) fun _ => v }

/-- Move a line to the most recent end of the use order (R160). -/
def touch (u : UnitId) (g : Nat) (s : State) : State :=
  { s with cache := s.cache.filter (fun l => !isLine u g l) ++ s.cache.filter (isLine u g) }

/-- A line that may be replaced: no pin and no PENDING block (R162). -/
def replaceable (l : CacheLine) : Bool := decide (l.pins = 0) && !l.blocks.toList.any isPending

/-- Take a line for a new key: a free one, else the victim of R162. R162 shows that one is always
found; were there none, no line would be taken. -/
def takeLine (u : UnitId) (g : Nat) (s : State) : State :=
  let new : CacheLine := { unit := u, group := g }
  if s.cache.length < 256 then { s with cache := s.cache ++ [new] }
  else
    match s.cache.find? replaceable with
    | some v =>
      ({ s with cache := s.cache.filter (fun l => !isLine v.unit v.group l) ++ [new] }).countFetch
        fun c => { c with replacements := bump c.replacements }
    | none => s

/-! ## Requesters (R161, R163) -/

/-- `n` put into a rising list, at most once. -/
def insertRising (n : Nat) : List Nat → List Nat
  | [] => [n]
  | m :: ms => if n < m then n :: m :: ms else if n = m then m :: ms else m :: insertRising n ms

/-- The groups of some image blocks, in ascending order. -/
def groupsOf (images : List Nat) : List Nat := images.foldr (fun b gs => insertRising (b / 8) gs) []

/-- The image blocks of a requester: the unit's prime, or the read in flight on its port. -/
def State.imagesOf (s : State) (u : UnitId) (prime : Bool) : List Nat :=
  if prime then (s.unit u).primeImages
  else
    match (s.unit u).slot with
    | some i =>
      match (s.slot i).port.inFlight with
      | some (.read _ _ images) => images
      | _ => []
    | none => []

/-- The blocks of a group among `images` that are EMPTY. -/
def State.emptyIn (s : State) (u : UnitId) (g : Nat) (images : List Nat) : List Nat :=
  images.filter fun b => decide (b / 8 = g) && isEmpty (s.blockAt u b)

/-! ## Offering a BLOCK_FETCH (R165, R188) -/

def isHeld (r : FetchRecord) : Bool := decide (r.phase = .held)

def State.modRecord (s : State) (id : BitVec 16) (f : FetchRecord → FetchRecord) : State :=
  { s with fetch := { s.fetch with records := s.fetch.records.map fun r => if r.id = id then f r else r } }

/-- A HELD record offers its BLOCK_FETCH: with room in the Own Queue of its station's port, the frame
enters and the record's deadline is armed (R165). -/
def offerFetch (s : State) (r : FetchRecord) : State :=
  match (s.unit r.unit).station with
  | none => s
  | some (e, a) =>
    let p := s.route e
    if s.ownRoom p then
      let frame := s.ownFrame a (BitVec.ofNat 8 r.unit) 0 (.blockFetch r.unit r.id r.first r.count r.reAsk)
      let due := s.after (s.unitSetup r.unit).fetchDeadline
      ((s.ownAppend p frame).modRecord r.id fun x => { x with phase := .out due }).countUnit r.unit
        fun c => { c with fetches := bump c.fetches }
    else s

/-- The held records that satisfy `which` are offered in the order they were issued (R188). -/
def offerHeld (which : State → FetchRecord → Bool) (s : State) : State :=
  (s.fetch.records.filter isHeld).foldl (fun s r => if which s r then offerFetch s r else s) s

/-- The record's station is reached through port `p`. -/
def viaPort (p : Port) (s : State) (r : FetchRecord) : Bool :=
  match (s.unit r.unit).station with
  | some (e, _) => decide (s.route e = p)
  | none => false

/-- The record's media station is entry `e`. -/
def viaEntry (e : StationId) (s : State) (r : FetchRecord) : Bool :=
  match (s.unit r.unit).station with
  | some (e', _) => decide (e' = e)
  | none => false

/-! ## Issuing (R163, R164) -/

/-- A record can be had: fewer than 16 in the table and fewer than 4 of the unit (R164). -/
def State.canIssue (s : State) (u : UnitId) : Bool :=
  decide (s.fetch.records.length < 16) &&
    decide ((s.fetch.records.filter fun r => decide (r.unit = u)).length < 4)

/-- The next fetch id; 65535 is followed by 1 (R164). -/
def nextId (n : BitVec 16) : BitVec 16 := if n = 0xFFFF then 1 else n + 1

/-- Create a HELD record under the next id and offer it (R164 steps 2 to 4). -/
def createRecord (u : UnitId) (first count reAsk : Nat) (waiting : List Nat) (s : State) : State :=
  let id := nextId s.fetch.lastId
  let r : FetchRecord := { id, unit := u, first, count, reAsk, waiting }
  offerFetch { s with fetch := { s.fetch with records := s.fetch.records ++ [r], lastId := id } } r

/-- The numbers from the lowest to the highest of `b :: bs`. -/
def spanOf (b : Nat) (bs : List Nat) : List Nat :=
  let lo := bs.foldl min b
  let hi := bs.foldl max b
  (List.range (hi - lo + 1)).map (lo + ·)

/-- Issue a fetch for the EMPTY blocks of the group that are needed: every EMPTY block of their span
becomes PENDING (R164). -/
def issueFetch (u : UnitId) (need : List Nat) (s : State) : State :=
  match need with
  | [] => s
  | b :: bs =>
    let span := spanOf b bs
    let marked := span.filter fun k => isEmpty (s.blockAt u k)
    createRecord u (span.headD b) span.length 0 marked (marked.foldl (setBlock u .pending) s)

/-- A group joins the Issue Queue, once per requester (R163). -/
def joinIssue (e : IssueEntry) (s : State) : State :=
  if e ∈ s.fetch.issue then s else { s with fetch := { s.fetch with issue := s.fetch.issue ++ [e] } }

def leaveIssue (which : IssueEntry → Bool) (s : State) : State :=
  { s with fetch := { s.fetch with issue := s.fetch.issue.filter fun e => !which e } }

/-- One entry of the Issue Queue is taken (R163). -/
def serveEntry (s : State) (e : IssueEntry) : State :=
  let need := s.emptyIn e.unit e.group (s.imagesOf e.unit e.prime)
  if need.isEmpty then leaveIssue (fun x => decide (x = e)) s
  else if s.canIssue e.unit then issueFetch e.unit need (leaveIssue (fun x => decide (x = e)) s)
  else s

/-- The Issue Queue is served from the head; an entry that cannot be served does not stop later
entries (R163). -/
def serveIssue (s : State) : State := s.fetch.issue.foldl serveEntry s

/-- One group of a requester: its line is found or taken, moved to the most recent end and pinned,
and its EMPTY blocks are fetched or wait for a record (R160, R161). -/
def requestGroup (u : UnitId) (prime : Bool) (images : List Nat) (s : State) (g : Nat) : State :=
  let s := if (s.line u g).isSome then touch u g s else takeLine u g s
  let s := s.modLine u g fun l => { l with pins := l.pins + 1 }
  let need := s.emptyIn u g images
  if need.isEmpty then s
  else if s.canIssue u then issueFetch u need s
  else joinIssue { unit := u, group := g, prime } s

/-- A unit hands over the image blocks of a read or a prime, group by group (R161). -/
def handOver (u : UnitId) (prime : Bool) (images : List Nat) (s : State) : State :=
  (groupsOf images).foldl (requestGroup u prime images) s

/-- A requester ends: its pins are dropped and its Issue Queue entries leave (R161, R163). -/
def endRequester (u : UnitId) (prime : Bool) (images : List Nat) (s : State) : State :=
  leaveIssue (fun e => decide (e.unit = u) && decide (e.prime = prime))
    ((groupsOf images).foldl (fun s g => s.modLine u g fun l => { l with pins := l.pins - 1 }) s)

/-- Free one record and serve the Issue Queue (R163). -/
def freeRecord (id : BitVec 16) (s : State) : State :=
  serveIssue { s with fetch := { s.fetch with records := s.fetch.records.filter fun r => decide (r.id ≠ id) } }

/-- The records, Issue Queue entries and lines of a unit are released (R171); where that frees a
record the Issue Queue is served. -/
def invalidate (u : UnitId) (s : State) : State :=
  let freed := s.fetch.records.any fun r => decide (r.unit = u)
  let records := s.fetch.records.filter fun r => decide (r.unit ≠ u)
  let issue := s.fetch.issue.filter fun e => decide (e.unit ≠ u)
  let s := { s with
    fetch := { s.fetch with records, issue }
    cache := s.cache.filter fun l => decide (l.unit ≠ u) }
  if freed then serveIssue s else s

/-! ## The Check Engine (R172, R173) -/

/-- One data bit enters the register (R173). -/
def crcBit {w : Nat} (poly : BitVec w) (r : BitVec w) (bit : Bool) : BitVec w :=
  if r.msb ^^ bit then (r <<< 1) ^^^ poly else r <<< 1

/-- The bits of a byte in the order they are taken (R173). -/
def byteBits (reflected : Bool) (b : Byte) : List Bool :=
  if reflected then (List.range 8).map b.getLsbD else (List.range 8).map b.getMsbD

/-- The check over some bytes (R173). -/
def crc {w : Nat} (poly init : BitVec w) (reflected : Bool) (finalXor : BitVec w) (data : List Byte) : BitVec w :=
  let r := data.foldl (fun r b => (byteBits reflected b).foldl (crcBit poly) r) init
  (if reflected then r.reverse else r) ^^^ finalXor

/-- The Check Engine accepts a block: its result equals the check value, or the width is NONE
(R166 check 4, R172). -/
def checkGood (u : UnitSetup) (data : Block) (check : BitVec 32) : Bool :=
  match u.width with
  | .none => true
  | .w16 =>
    crc (u.poly.setWidth 16) (u.init.setWidth 16) u.reflected (u.finalXor.setWidth 16) data.toList ==
      check.setWidth 16
  | .w32 => crc u.poly u.init u.reflected u.finalXor data.toList == check

end Sys2Proof.Machine
end

