-- ==== Sys2Proof/Machine/Media.lean ====
section
/-! DEFINITION. Image Maps, the storage port's deliveries, the detach and the first half of an eject
(chapter 8). What the Power Sequencer is told of a unit stands with the sequencer. -/

namespace Sys2Proof.Machine

open Sys2Proof

/-! ## Image Maps (R146, R147) -/

/-- The regions of a unit's Image Map: its non-empty entries. -/
def State.regions (s : State) (u : UnitId) : List Region :=
  (List.range 16).filterMap fun k => (s.tables.maps[u.val * 16 + k]?).bind id

/-- The capacity of a list of regions: the largest end, or 0 (R146). -/
def capacityOf (rs : List Region) : Nat := rs.foldl (fun c r => max c (r.first + r.count)) 0

def State.capacity (s : State) (u : UnitId) : Nat := capacityOf (s.regions u)

def covers (k : Nat) (r : Region) : Bool := decide (r.first ≤ k) && decide (k < r.first + r.count)

/-- The region that covers a block, if any: blocks below the capacity without one are gaps. -/
def State.regionAt (s : State) (u : UnitId) (k : Nat) : Option Region := (s.regions u).find? (covers k)

/-- What a server block resolves to; none is the error of an ABSENT region (R147). -/
def State.resolve (s : State) (u : UnitId) (k : Nat) : Option Source :=
  match s.regionAt u k with
  | none => some .zeros
  | some r =>
    let written := (indexGet (s.unit u).overlay k).isSome
    let image := Source.image (r.base.getD 0 + (k - r.first))
    match r.kind with
    | .remote => some image
    | .overlay => some (if written then .overlay k else image)
    | .local_ => some (if written then .overlay k else .zeros)
    | .zero => some .zeros
    | .absent => none

/-- The resolutions of `n` blocks from `k`; none when one of them is an error. -/
def State.resolveAll (s : State) (u : UnitId) (k : Nat) : Nat → Option (List Source)
  | 0 => some []
  | n + 1 =>
    match s.resolve u k, s.resolveAll u (k + 1) n with
    | some x, some xs => some (x :: xs)
    | _, _ => none

/-- The data of a block that is ready, or none (R147, R152). -/
def State.ready (s : State) (u : UnitId) : Source → Option Block
  | .zeros => some zeroBlock
  | .overlay k => indexGet (s.unit u).overlay k
  | .image b =>
    match s.blockAt u b with
    | .valid d => some d
    | _ => none

/-- The image blocks among some resolutions. -/
def imagesIn (xs : List Source) : List Nat :=
  xs.filterMap fun x =>
    match x with
    | .image b => some b
    | _ => none

/-! ## Notices of a unit (R158) -/

def mediaNotice (u : UnitId) (slot : Option SlotId) (ev : MediaEvent) (reason : Option EjectReason) (s : State) : State :=
  let m := s.unit u
  s.notify slot (.mediaState u m.state ev reason (heldCount m))

/-! ## The detach and the start of an eject (R141, R142) -/

/-- A request is in flight on the port of the unit's bound slot. -/
def State.portBusy (s : State) (u : UnitId) : Bool :=
  match (s.unit u).slot with
  | some i => (s.slot i).port.inFlight.isSome
  | none => false

/-- The detach of a unit (R142): cache, records, overlay blocks and binding are released. Boots left is not
among what R142 changes and keeps its value. -/
def detach (u : UnitId) (s : State) : State :=
  let s := invalidate u s
  let m := s.unit u
  let s := { s with poolFree := s.poolFree + heldCount m }
  let s := s.modUnit u fun m =>
    { counters := m.counters, ejectReason := m.ejectReason, bootsLeft := m.bootsLeft }
  let s := mediaNotice u m.slot .detached m.ejectReason s
  s.modUnit u fun m => { m with ejectReason := none }

/-- Steps 1 to 3 of R141: EJECTING, a running prime abandoned, the notice. -/
def ejectStart (u : UnitId) (reason : EjectReason) (s : State) : State :=
  let s := s.modUnit u fun m => { m with state := .ejecting, ejectReason := some reason }
  let s :=
    if (s.unit u).prime = .running then
      (endRequester u true (s.unit u).primeImages s).modUnit u fun m =>
        { m with prime := .none, primeImages := [] }
    else s
  mediaNotice u (s.unit u).slot .ejecting (some reason) s

/-- Step 5 of R141: the detach follows when no request is in flight. -/
def ejectEnd (u : UnitId) (s : State) : State := if s.portBusy u then s else detach u s

/-- An eject that no waiting GATE can hear: the bound slot's sequencer is in the middle of a step. -/
def ejectQuiet (u : UnitId) (reason : EjectReason) (s : State) : State := ejectEnd u (ejectStart u reason s)

/-- The boots-left rule of the unit bound to a slot, with the eject it starts (R144). -/
def bootsLeft (eject : UnitId → EjectReason → State → State) (i : SlotId) (s : State) : State :=
  match s.unitOf i with
  | none => s
  | some u =>
    let m := s.unit u
    if m.state = .presenting ∧ (s.unitSetup u).presentBoots ≠ 0 then
      if m.bootsLeft = 0 then eject u .bootsUsed s
      else s.modUnit u fun m => { m with bootsLeft := m.bootsLeft - 1 }
    else s

/-! ## The storage port (R148, R152) -/

/-- The port tells its server something. -/
def tell (i : SlotId) (o : ServerOut) (s : State) : State :=
  s.modSlot i fun x => { x with port := { x.port with out := x.port.out ++ [o] } }

def setInFlight (i : SlotId) (r : Option PortRequest) (s : State) : State :=
  s.modSlot i fun x => { x with port := { x.port with inFlight := r } }

/-- The last request of an EJECTING unit has ended: the detach follows (R142). -/
def afterRequest (u : UnitId) (s : State) : State :=
  if (s.unit u).state = .ejecting then detach u s else s

/-- A block is delivered (R152). -/
def deliverOne (i : SlotId) (u : UnitId) (lba : Nat) (d : Block) (s : State) : State :=
  (tell i (.block lba d) s).countUnit u fun c => { c with delivered := bump c.delivered }

/-- Deliver ready blocks in LBA order until one is not ready (R152). -/
def deliver (i : SlotId) (u : UnitId) (lba : Nat) : List Source → State → (Nat × List Source) × State
  | [], s => ((lba, []), s)
  | src :: rest, s =>
    match s.ready u src with
    | none => ((lba, src :: rest), s)
    | some d => deliver i u (lba + 1) rest (deliverOne i u lba d s)

/-- The lines of some image blocks are moved to the most recent end, in ascending order of group (R160). -/
def touchLines (u : UnitId) (images : List Nat) (s : State) : State :=
  (groupsOf images).foldl (fun s g => touch u g s) s

/-- A read ends with an outcome (R152). -/
def finishRead (i : SlotId) (u : UnitId) (images : List Nat) (o : PortOutcome) (s : State) : State :=
  let s := setInFlight i none (tell i (.done .read o) s)
  let s := endRequester u false images s
  let s := s.countUnit u fun c =>
    if o = .good then { c with readsGood := bump c.readsGood } else { c with mediaErrors := bump c.mediaErrors }
  afterRequest u s

/-- The read in flight on a slot's port delivers what is ready, the lines it was delivered from are moved
in the use order (R160), and the read is completed GOOD after its last block (R152). -/
def pumpRead (i : SlotId) (u : UnitId) (s : State) : State :=
  match (s.slot i).port.inFlight with
  | some (.read lba rest images) =>
    let r := deliver i u lba rest s
    let s := touchLines u (imagesIn (rest.take (r.1.1 - lba))) r.2
    if r.1.2.isEmpty then finishRead i u images .good s
    else setInFlight i (some (.read r.1.1 r.1.2 images)) s
  | _ => s

end Sys2Proof.Machine
end

