-- ==== Sys2Proof/Machine/Boot.lean ====
section
/-! DEFINITION. Observed power, the boot observation and its reactions (chapter 1), and the moves of
RST_OUT and FEED that lead to them (R79, R80). -/

namespace Sys2Proof.Machine

open Sys2Proof

/-! ## The reactions to a boot observation (R10) -/

/-- The Input Queue empties itself when flush on boot is set (R57). -/
def flushInput (i : SlotId) (s : State) : State :=
  if (s.console i).flushOnBoot then
    (s.count i fun c => { c with flushed := bumpBy (s.slot i).input.items.length c.flushed }).modSlot i
      fun x => { x with input := { x.input with items := [] } }
  else s

/-- The Pattern Matcher returns to its start state when reset-on-boot is set (R66). -/
def resetMatcher (i : SlotId) (s : State) : State :=
  if (s.setup i).resetOnBoot then
    s.modSlot i fun x => { x with matcher := { x.matcher with state := (s.setup i).startState } }
  else s

/-- The Silence Timer restarts (R68). -/
def restartSilence (i : SlotId) (s : State) : State := s.modSlot i fun x => { x with silence := {} }

/-! ## The boot record (R9) -/

def causeOf : PendingCause → Cause
  | .operator => .operator
  | .recoveryPattern => .recoveryPattern
  | .recoverySilence => .recoverySilence
  | .localButton => .localButton

def addCause (c : Cause) (x : CauseSet) : CauseSet :=
  match c with
  | .operator => { x with operator := true }
  | .recoveryPattern => { x with recoveryPattern := true }
  | .recoverySilence => { x with recoverySilence := true }
  | .localButton => { x with localButton := true }
  | .unattributed => { x with unattributed := true }

/-- Steps 1 to 4 of R9 on the record. -/
def bootedRecord (r : SlotRecord) : SlotRecord :=
  let cause := match r.pendingCause with
    | some c => causeOf c
    | none => .unattributed
  { r with
    bootCount := r.bootCount + 1
    lastCause := cause
    causeSet := addCause cause r.causeSet
    pendingCause := none }

/-- The updates of R9 in order: the record, the BOOT marker and the POWER_CHANGED notice. -/
def recordBoot (i : SlotId) (before : Power) (s : State) : State :=
  let s := s.modSlot i fun x => { x with record := bootedRecord x.record }
  let r := (s.slot i).record
  let s := s.post i (.boot r.bootCount r.lastCause)
  s.notify (some i) (.powerChanged before r.observed true r.bootCount r.lastCause)

/-- A boot observation: the record is updated and handed to the blocks of the slot (R9, R10).
`eject` is how an eject of the boots-left rule is taken and `meet` what the Power Sequencer does. -/
def bootWith (eject : UnitId → EjectReason → State → State) (meet : SlotId → State → State)
    (i : SlotId) (before : Power) (s : State) : State :=
  meet i (bootsLeft eject i (restartSilence i (resetMatcher i (flushInput i (recordBoot i before s)))))

/-- A boot observation made inside a step of the slot's own sequence or inside its halt: no GATE or
EXPECT step of the slot is then in progress, so the sequencer hears nothing (R106, R118). -/
def bootInStep (i : SlotId) (before : Power) (s : State) : State :=
  bootWith ejectQuiet (fun _ s => s) i before s

/-! ## Observed power (R5, R6) -/

/-- The Slot Table derives observed power again. `boot` takes a boot observation, given the power
before it, and `left` tells the Power Sequencer that the slot has left ON (R5, R6, R8). DESIGN CHOICE
(assumption 38): POWER_CHANGED is generated before the sequencer hears of the change, so before the
notice of a sequence that the change ends. -/
def deriveObserved (boot : SlotId → Power → State → State) (left : SlotId → State → State)
    (i : SlotId) (s : State) : State :=
  let before := (s.slot i).record.observed
  let after := observe (s.slot i).lines.feed (s.slot i).pg.filtered
  if after = before then s
  else
    let s := s.modSlot i fun x => { x with record := { x.record with
      observed := after
      resetWhileOn := if before = .on then false else x.record.resetWhileOn } }
    if after = .on then boot i before s
    else
      let r := (s.slot i).record
      let s := s.notify (some i) (.powerChanged before after false r.bootCount r.lastCause)
      if before = .on then left i (restartSilence i s) else s

/-! ## Moves of RST_OUT (R79, R8) -/

/-- RST_OUT has been asserted: the Slot Table sets the flag when the slot is ON (R8). -/
def rstAssertedNow (i : SlotId) (s : State) : State :=
  if (s.slot i).record.observed = .on then
    s.modSlot i fun x => { x with record := { x.record with resetWhileOn := true } }
  else s

/-- RST_OUT has been released: with the slot ON and the flag set this is a boot observation, and the
flag is cleared (R8). -/
def rstReleasedNow (boot : SlotId → Power → State → State) (i : SlotId) (s : State) : State :=
  let r := (s.slot i).record
  let s := s.modSlot i fun x => { x with record := { x.record with resetWhileOn := false } }
  if r.observed = .on ∧ r.resetWhileOn = true then boot i .on s else s

/-- Change the claims of a slot; RST_OUT is asserted at its first claim and released at its last. -/
def setClaims (boot : SlotId → Power → State → State) (f : Lines → Lines) (i : SlotId) (s : State) : State :=
  let before := rstAsserted (s.slot i).lines
  let s := s.modSlot i fun x => { x with lines := f x.lines }
  let after := rstAsserted (s.slot i).lines
  if !before && after then rstAssertedNow i s
  else if before && !after then rstReleasedNow boot i s
  else s

/-! ## Moves of FEED (R80, R14) -/

/-- FEED is dropped: the time is recorded, the cold mark cleared, and observed power derived again
(R14, R80, R126). A FEED that is already dropped stays as it is. -/
def dropFeed (boot : SlotId → Power → State → State) (left : SlotId → State → State) (i : SlotId) (s : State) : State :=
  if (s.slot i).lines.feed then
    deriveObserved boot left i (s.modSlot i fun x => { x with
      lines := { x.lines with feed := false }
      record := { x.record with feedDropped := some s.now }
      coldMark := false })
  else s

/-- FEED is raised; a FEED that is already raised stays as it is (R80). -/
def raiseFeed (boot : SlotId → Power → State → State) (left : SlotId → State → State) (i : SlotId) (s : State) : State :=
  if (s.slot i).lines.feed then s
  else deriveObserved boot left i (s.modSlot i fun x => { x with lines := { x.lines with feed := true } })

end Sys2Proof.Machine
end

