-- ==== Sys2Proof/Machine/Inrush.lean ====
section
/-! DEFINITION. The Inrush Scheduler's account: charges, committed load and the start test
(chapter 7). -/

namespace Sys2Proof.Machine

open Sys2Proof

/-- A FEED_RESTORE is warm: the feed dropped time is present, the cold mark clear, and the record
younger than the profile's hold-up (R125). -/
def isWarm (x : Slot) (p : Profile) (now : Time) : Bool :=
  match x.record.feedDropped with
  | some t => !x.coldMark && decide ((now - t).toNat < p.holdUp)
  | none => false

/-- The charge and settle time of a handed-over step (R125). -/
def chargeOf (kind : ChargeKind) (x : Slot) (p : Profile) (now : Time) : Nat × Nat :=
  match kind with
  | .feedRestore => (if isWarm x p now then (p.feedCharge + 1) / 2 else p.feedCharge, p.feedSettle)
  | .startPress => (p.startCharge, p.startSettle)

/-- The milliseconds since a charge started. -/
def elapsed (c : Charge) (now : Time) : Nat := (now - c.start).toNat

/-- The contribution of a charge: its linear decay, rounded up (R128). -/
def contribution (c : Charge) (now : Time) : Nat :=
  if c.settle ≤ elapsed c now then 0
  else (c.charge * (c.settle - elapsed c now) + c.settle - 1) / c.settle

def State.modInrush (s : State) (f : Inrush → Inrush) : State := { s with inrush := f s.inrush }

/-- Expired charges leave the Active Charge List (R128). -/
def expireCharges (s : State) : State :=
  s.modInrush fun x => { x with active := x.active.filter fun c => decide (elapsed c s.now < c.settle) }

/-- The committed load of some charges (R129). -/
def loadOf (cs : List Charge) (now : Time) : Nat := (cs.map fun c => contribution c now).sum

/-- The test of the head of the queue: load, spacing and room (R131). -/
def headPasses (s : State) (charge : Nat) : Bool :=
  let b := s.tables.bridge
  let fits := s.inrush.active.isEmpty ||
    decide (loadOf s.inrush.active s.now + min charge b.capacity ≤ b.capacity)
  let spaced := match s.inrush.last with
    | none => true
    | some t => decide (b.spacing ≤ (s.now - t).toNat)
  fits && spaced && decide (s.inrush.active.length < 16)

/-- A slot leaves the Inrush Queue without a start (R134). -/
def withdraw (i : SlotId) (s : State) : State :=
  if s.inrush.queue.any fun w => decide (w.slot = i) then
    s.modInrush fun x => { x with
      queue := x.queue.filter fun w => decide (w.slot ≠ i)
      counters := { x.counters with withdrawals := bump x.counters.withdrawals } }
  else s

/-- The charge of the head starts: it enters the list, the start time is noted, and the head leaves
the queue (R132). -/
def startCharge (w : Waiting) (s : State) : State :=
  s.modInrush fun x => { x with
    active := x.active ++
      [{ slot := w.slot, kind := w.kind, charge := w.charge, settle := w.settle, start := s.now }]
    last := some s.now
    queue := x.queue.drop 1
    counters := { x.counters with
      started := bump x.counters.started
      oversized := if s.tables.bridge.capacity < w.charge then bump x.counters.oversized
        else x.counters.oversized } }

/-- A step joins the tail of the Inrush Queue (R127). -/
def joinQueue (w : Waiting) (s : State) : State :=
  s.modInrush fun x => { x with
    queue := x.queue ++ [w]
    counters := { x.counters with joins := bump x.counters.joins } }

/-- A skipped start: the head leaves the queue and nothing enters the list (R132). -/
def skipStart (s : State) : State :=
  s.modInrush fun x => { x with
    queue := x.queue.drop 1
    counters := { x.counters with skipped := bump x.counters.skipped } }

end Sys2Proof.Machine
end

