-- ==== Sys2Proof/Machine/Sequencer.lean ====
section
/-! DEFINITION. The Power Sequencer: step lists, the entry of a step, the run of the steps that end at
entry, the finish and the halt, and what a GATE and an EXPECT step hear (chapter 6). -/

namespace Sys2Proof.Machine

open Sys2Proof

/-! ## The record -/

def modSeq (i : SlotId) (f : Sequencer → Sequencer) (s : State) : State :=
  s.modSlot i fun x => { x with seq := f x.seq }

def modRecordOf (i : SlotId) (f : SeqRecord → SeqRecord) (s : State) : State :=
  modSeq i (fun q => { q with record := q.record.map f }) s

def setSeqState (i : SlotId) (st : SeqState) (s : State) : State := modSeq i (fun q => { q with state := st }) s

/-- The profile of the slot's sequence, as it stands (R98). -/
def State.seqProfile (s : State) (i : SlotId) : Profile :=
  match (s.slot i).seq.record with
  | some r => s.profile r.profile
  | none => {}

/-- The steps still to be taken. -/
def State.restOf (s : State) (i : SlotId) : List Step :=
  match (s.slot i).seq.record with
  | some r => r.steps
  | none => []

def State.currentIs (s : State) (i : SlotId) (st : Step) : Bool :=
  match (s.slot i).seq.record with
  | some r => decide ((s.slot i).seq.state = .stepping) && decide (r.current = st)
  | none => false

/-- Arm the step deadline. -/
def armStep (i : SlotId) (ms : Nat) (s : State) : State :=
  modRecordOf i (fun r => { r with deadline := some (s.after ms) }) s

def setGate (i : SlotId) (g : GateOutcome) (s : State) : State :=
  modRecordOf i (fun r => { r with gate := some g }) s

/-! ## Step lists (R114 to R117) -/

/-- The POWER_ON steps for an observed power (R114). -/
def powerOnSteps (obs : Power) (p : Profile) : List Step :=
  match obs with
  | .feedOff => .feedRestore :: (if p.autoPress then [.gate, .press .start, .expectHigh] else [])
  | .standby => [.gate, .press .start, .expectHigh]
  | .on => []

/-- The step list of an action (R114 to R117). -/
def stepsFor (a : Action) (obs : Power) (p : Profile) : List Step :=
  match a with
  | .powerOn => powerOnSteps obs p
  | .powerOffSoft => [.press .stop, .expectLow true]
  | .powerOffHard => [.hold, .expectLow false]
  | .reset => [.assertRst, .dwell .reset, .gate, .releaseRst]
  | .cycleSoft => [.press .stop, .expectLow true, .dwell .off, .powerOnTail]
  | .cycleFeed =>
    [.feedDrop, .dwell .off, .feedRestore] ++ (if p.autoPress then [.dwell .one, .powerOnTail] else [])
  | .feedOff => [.feedDrop]
  | .feedOn => [.feedRestore]

def dwellTime (d : DwellKind) (p : Profile) : Nat :=
  match d with
  | .reset => p.resetWidth
  | .off => p.offDwell * 1000
  | .one => 1000

/-! ## The end of a sequence (R118, R120) -/

def endOf (s : State) (i : SlotId) (r : SeqRecord) (step : Option Step) : SequenceEnd :=
  { action := r.action
    origin := r.origin
    profile := r.profile
    step
    escalated := r.escalated
    gate := r.gate
    accepted := r.accepted
    bootCount := (s.slot i).record.bootCount
    observed := (s.slot i).record.observed }

/-- A sequence finishes (R118). -/
def finish (i : SlotId) (s : State) : State :=
  match (s.slot i).seq.record with
  | none => s
  | some r =>
    let s := modSeq i (fun _ => { state := .idle, record := none }) s
    let s := s.post i (.sequence r.action .done)
    let s := s.notify (some i) (.sequenceDone (endOf s i r none))
    s.count i fun c => { c with done := bump c.done }

/-- A sequence halts, in the order of R118; not the halt of a bridge restart. -/
def halt (i : SlotId) (why : HaltReason) (s : State) : State :=
  match (s.slot i).seq.record with
  | none => s
  | some r =>
    let s := withdraw i (modRecordOf i (fun r => { r with deadline := none }) s)
    let s := setClaims bootInStep (fun l => { l with pwrSeq := false, rstSeq := false }) i s
    let s := modSeq i (fun _ => { state := .halted why, record := none }) s
    let s := s.post i (.sequence r.action (.halted why))
    let s := s.notify (some i) (.sequenceHalted why (endOf s i r (some r.current)))
    s.count i fun c => { c with halted := bump c.halted }

/-! ## The entry of a step (R106 to R113) -/

/-- What the entry of a step comes to: the sequence waits in it (or has ended), the step has ended,
or it has been skipped with the EXPECT step that follows it (R108). -/
inductive Entered where
  | stop (s : State)
  | ends (s : State)
  | skips (s : State)

/-- A PRESS or HOLD asserts PWR_OUT and arms its width (R106). -/
def pressNow (i : SlotId) (width : Nat) (s : State) : State :=
  armStep i width (setClaims bootInStep (fun l => { l with pwrSeq := true }) i s)

/-- The purpose of a press is already met (R108). -/
def pressMet (role : PressRole) (obs : Power) : Bool :=
  match role with
  | .start => decide (obs = .on)
  | .stop => decide (obs ≠ .on)

def skipPress (i : SlotId) (s : State) : Entered :=
  .skips (s.count i fun c => { c with skipped := bump c.skipped })

/-- A charged step executes (R109). -/
def executeCharged (i : SlotId) (kind : ChargeKind) (s : State) : Entered :=
  let s := setSeqState i .stepping s
  match kind with
  | .feedRestore => .ends (raiseFeed bootInStep (fun _ s => s) i s)
  | .startPress => .stop (pressNow i (s.seqProfile i).tapWidth s)

/-- The head of the queue is given its start (R132). -/
def giveStart (w : Waiting) (s : State) : Entered :=
  if w.kind = .startPress ∧ (s.slot w.slot).record.observed = .on then
    skipPress w.slot (setSeqState w.slot .stepping (skipStart s))
  else executeCharged w.slot w.kind (startCharge w s)

/-- A charged step is handed to the Inrush Scheduler: without a charge it executes at once, else it
joins the queue, and a queue that was empty is evaluated in the same event (R109, R127, R130). -/
def handToScheduler (i : SlotId) (kind : ChargeKind) (s : State) : Entered :=
  let c := chargeOf kind (s.slot i) (s.seqProfile i) s.now
  if c.1 = 0 then executeCharged i kind s
  else
    let w : Waiting := { slot := i, kind, charge := c.1, settle := c.2 }
    let wasEmpty := s.inrush.queue.isEmpty
    let s := joinQueue w (setSeqState i .waitBudget s)
    if wasEmpty then
      let s := expireCharges s
      if headPasses s w.charge then giveStart w s else .stop s
    else .stop s

/-- The gate fails: with WAIT it is waived, with REQUIRE the sequence halts (R113). DESIGN CHOICE
(assumption 39): no gate outcome is written at a halt, so the notice of a sequence that halts in its
first GATE carries none. -/
def gateFails (i : SlotId) (s : State) : Entered :=
  if (s.seqProfile i).gate = .require then .stop (halt i .gateFailed s) else .ends (setGate i .waived s)

/-- The entry of a GATE step (R112). -/
def enterGate (i : SlotId) (s : State) : Entered :=
  if (s.seqProfile i).gate = .none then .ends (setGate i .notApplied s)
  else
    match s.unitOf i with
    | none => .ends (setGate i .notApplied s)
    | some u =>
      if (s.unit u).state = .presenting then
        match (s.unit u).prime with
        | .done => .ends (setGate i .primed s)
        | .running => .stop (armStep i ((s.seqProfile i).gateWait * 1000) (setSeqState i .waitGate s))
        | .none => gateFails i s
        | .failed => gateFails i s
      else gateFails i s

/-- The entry of a step (R106). -/
def enterStep (i : SlotId) (st : Step) (s : State) : Entered :=
  let p := s.seqProfile i
  let obs := (s.slot i).record.observed
  match st with
  | .press role =>
    if pressMet role obs then skipPress i s
    else
      match role with
      | .start => handToScheduler i .startPress s
      | .stop => .stop (pressNow i p.tapWidth s)
  | .hold => if pressMet .stop obs then skipPress i s else .stop (pressNow i p.holdWidth s)
  | .expectHigh => if obs = .on then .ends s else .stop (armStep i (p.onDeadline * 1000) s)
  | .expectLow soft =>
    if obs = .on then .stop (armStep i (if soft then p.softGrace * 1000 else 2000) s) else .ends s
  | .dwell d => .stop (armStep i (dwellTime d p) s)
  | .gate => enterGate i s
  | .assertRst => .ends (setClaims bootInStep (fun l => { l with rstSeq := true }) i s)
  | .releaseRst => .ends (setClaims bootInStep (fun l => { l with rstSeq := false }) i s)
  | .feedDrop => .ends (dropFeed bootInStep (fun _ s => s) i s)
  | .feedRestore => if (s.slot i).lines.feed then .ends s else handToScheduler i .feedRestore s
  | .powerOnTail => .ends s

/-! ## The run of the steps (R105) -/

/-- The next step becomes the current one, with no deadline. -/
def beginStep (i : SlotId) (st : Step) (rest : List Step) (s : State) : State :=
  modSeq i (fun q => { state := .stepping, record := q.record.map fun r =>
    { r with current := st, steps := rest, deadline := none } }) s

/-- Steps are entered one after another until one waits or the list is empty (R105). `tail` takes the
POWER_ON steps that a cycle chooses when it reaches them. -/
def runWith (tail : SlotId → State → State) (i : SlotId) : List Step → State → State
  | [], s => finish i s
  | .powerOnTail :: _, s => tail i s
  | st :: rest, s =>
    match enterStep i st (beginStep i st rest s) with
    | .stop s => s
    | .ends s => runWith tail i rest s
    | .skips s =>
      match rest with
      | [] => finish i s
      | _ :: more => runWith tail i more s

/-- The POWER_ON steps for the observed power at this moment (R116, R117). -/
def runTail (i : SlotId) (s : State) : State :=
  runWith finish i (powerOnSteps (s.slot i).record.observed (s.seqProfile i)) s

def runSteps (i : SlotId) (steps : List Step) (s : State) : State := runWith runTail i steps s

/-- The current step has ended; the next is entered in the same event (R105). -/
def stepEnds (i : SlotId) (s : State) : State := runSteps i (s.restOf i) s

/-- Go on after the entry of a step outside a run. -/
def goOn (i : SlotId) : Entered → State
  | .stop s => s
  | .ends s => stepEnds i s
  | .skips s => runSteps i ((s.restOf i).drop 1) s

/-! ## Acceptance and abort (R103, R104) -/

/-- Steps 2 to 5 of R103. -/
def accept (i : SlotId) (a : Action) (o : Origin) (profile : Nat) (s : State) : State :=
  let steps := stepsFor a (s.slot i).record.observed (s.profile profile)
  let r : SeqRecord :=
    { action := a, origin := o, profile, steps, current := steps.headD .gate, accepted := s.now }
  let s := modSeq i (fun _ => { state := .stepping, record := some r }) s
  let s := s.post i (.sequence a .started)
  let s := s.count i fun c => { c with accepted := bump c.accepted }
  runSteps i steps s

/-- ABORT is taken for a slot (R104). -/
def abort (i : SlotId) (s : State) : State :=
  if seqBusy (s.slot i).seq.state then halt i .aborted s else setSeqState i (.halted .aborted) s

/-! ## What the sequencer hears -/

/-- A boot observation meets an EXPECT_HIGH in progress (R110). -/
def meetHigh (i : SlotId) (s : State) : State := if s.currentIs i .expectHigh then stepEnds i s else s

/-- The slot leaving ON meets an EXPECT_LOW in progress (R111). -/
def meetLow (i : SlotId) (s : State) : State :=
  if s.currentIs i (.expectLow true) || s.currentIs i (.expectLow false) then stepEnds i s else s

/-- A GATE waiting in WAIT_GATE hears that the unit is primed (`primed`), or that its prime failed,
that it left PRESENTING, or that the gate wait expired (R113). -/
def gateReport (i : SlotId) (primed : Bool) (s : State) : State :=
  if (s.slot i).seq.state = .waitGate then
    let s := setSeqState i .stepping (modRecordOf i (fun r => { r with deadline := none }) s)
    if primed then stepEnds i (setGate i .primed s) else goOn i (gateFails i s)
  else s

/-- An eject whose start is told to the bound slot's sequencer (R141). -/
def eject (u : UnitId) (reason : EjectReason) (s : State) : State :=
  let s := ejectStart u reason s
  let s := match (s.unit u).slot with
    | some i => gateReport i false s
    | none => s
  ejectEnd u s

/-- A boot observation made outside the slot's own sequence (R9, R10). -/
def observeBoot (i : SlotId) (before : Power) (s : State) : State := bootWith eject meetHigh i before s

end Sys2Proof.Machine
end

