-- ==== Sys2Proof/Machine/Console.lean ====
section
/-! DEFINITION. Console capture: the receiver, the History Store, the Pattern Matcher's walk and the
Silence Timer (chapters 2 and 4). -/

namespace Sys2Proof.Machine

open Sys2Proof

/-- What a command answers. -/
abbrev Result := Host.Outcome State Fault Refusal

/-! ## The History Store (R26, R30) -/

/-- The ring place of a position. -/
def ringPlace (p : Pos) : Nat := p.toNat % 131072

/-- The byte stored at a ring place; a place never written is not readable (R25). -/
def ringAt (h : History) (p : Pos) : Byte := sparseGet 0 h.ring (ringPlace p)

/-- A byte is stored at `next`, and markers that the oldest position has passed leave (R26, R30). -/
def storeByte (h : History) (b : Byte) : History :=
  let h := { h with
    ring := sparseSet 0 h.ring (ringPlace h.next) b
    next := h.next + 1
    retained := if h.retained < 131072 then h.retained + 1 else h.retained }
  { h with markers := h.markers.filter fun m => inInterval (oldest h) h.next m.position }

/-- The History Store takes a byte and counts an overwrite (R26). -/
def historyTakes (i : SlotId) (b : Byte) (s : State) : State :=
  let full := decide (131072 ≤ (s.slot i).hist.retained)
  let s := s.modSlot i fun x => { x with hist := storeByte x.hist b }
  if full then s.count i fun c => { c with overwritten := bump c.overwritten } else s

/-! ## Recovery requests raised (R70) -/

/-- A recovery request is raised, or discarded while one from the same source waits (R70). -/
def raiseRecovery (i : SlotId) (a : RecoveryAction) (src : RecoverySource) (w : Nat) (s : State) : State :=
  if (s.slot i).recovery.waiting.any fun r => decide (r.source = src) then s
  else s.modSlot i fun x => { x with recovery := { x.recovery with
    waiting := x.recovery.waiting ++ [{ action := a, source := src, watch := w, quote := x.record.bootCount }] } }

/-! ## The walk (R63 to R65) -/

def State.watchAction (s : State) (w : Nat) : WatchAction := sparseGet factoryWatch s.tables.watch w

def setMatchState (i : SlotId) (n : Nat) (s : State) : State :=
  s.modSlot i fun x => { x with matcher := { x.matcher with state := n } }

/-- A match fires (R64). -/
def fireMatch (i : SlotId) (w : Nat) (s : State) : State :=
  let a := s.watchAction w
  let s := if a.mark then s.post i (.match_ w) else s
  let s := if a.notify then
      s.notify (some i) (.patternMatch w (s.slot i).hist.next (s.slot i).record.bootCount a.returnState)
    else s
  let s := if a.recover then raiseRecovery i a.action .pattern w s else s
  let s := if a.holdOff = 0 then s
    else s.modSlot i fun x => { x with matcher := { x.matcher with
      holdOffs := sparseSet none x.matcher.holdOffs w (some (s.after (a.holdOff * 1000))) } }
  (setMatchState i a.returnState s).count i fun c => { c with matchesFired := bump c.matchesFired }

/-- A match is held off (R65). -/
def holdOffMatch (i : SlotId) (w : Nat) (s : State) : State :=
  (setMatchState i (s.watchAction w).returnState s).count i fun c => { c with matchesHeld := bump c.matchesHeld }

/-- The state that a byte leads to from a state (R63 steps 1 and 2). -/
def nextMatchState (t : Tables) (st : Nat) (b : Byte) : Nat :=
  (sparseGet factoryRow t.automaton st).getD (sparseGet factoryIndex t.classMap b.toNat) 0

/-- The walk of one byte, when the slot's matcher is enabled (R63). -/
def walk (i : SlotId) (b : Byte) (s : State) : State :=
  if (s.setup i).matchEnable then
    let st := nextMatchState s.tables (s.slot i).matcher.state b
    let w := sparseGet factoryIndex s.tables.stateAction st
    let s := setMatchState i st s
    if w = 0 then s
    else if (sparseGet none (s.slot i).matcher.holdOffs w).isSome then holdOffMatch i w s
    else fireMatch i w s
  else s

/-- A byte is handed on: the History Store, the Pattern Matcher and the Silence Timer take it, and the
received byte counter is increased (R22). -/
def handOn (i : SlotId) (b : Byte) (s : State) : State :=
  (restartSilence i (walk i b (historyTakes i b s))).count i fun c => { c with received := bump c.received }

/-! ## The receiver (R21 to R24) -/

def setRx (i : SlotId) (r : Receiver) (s : State) : State := s.modSlot i fun x => { x with rx := r }

/-- The number of mark bits of a byte. -/
def marksIn (b : Byte) : Nat := ((List.range 8).filter b.getLsbD).length

/-- The byte of some sampled data bits: with 7 data bits its top bit is zero (R21). -/
def byteOf (c : ConsoleSetup) (marks : Byte) : Byte := if c.dataBits = 7 then marks &&& 0x7F else marks

/-- The character has a parity error under its setup (R21). -/
def parityWrong (c : ConsoleSetup) (b : Byte) (parityMark : Bool) : Bool :=
  let marks := marksIn b + (if parityMark then 1 else 0)
  match c.parity with
  | .none => false
  | .even => decide (marks % 2 = 1)
  | .odd => decide (marks % 2 = 0)

/-- The frame was at space from its start bit to its first stop bit. -/
def allSpace (c : ConsoleSetup) (b : Byte) (parityMark stopMark : Bool) : Bool :=
  decide (b = 0) && (decide (c.parity = .none) || !parityMark) && !stopMark

/-- A character is checked, counted, stored and handed on; after a framing error the receiver waits
for the line to be at mark (R21). -/
def takeCharacter (i : SlotId) (c : ConsoleSetup) (b : Byte) (parityMark stopMark : Bool) (s : State) : State :=
  let s := s.count i fun k => { k with
    parityErrors := if parityWrong c b parityMark then bump k.parityErrors else k.parityErrors
    framingErrors := if stopMark then k.framingErrors else bump k.framingErrors }
  setRx i (if stopMark then .waiting else .needMark true) (handOn i b s)

/-- START_BIT_DETECTED (R21): a character enters reception under the setup in force (R20). -/
def execStartBitDetected (i : SlotId) (s : State) : Result :=
  .next <| match (s.slot i).rx with
    | .waiting => setRx i (.reception (s.console i) false) s
    | _ => s

/-- RX_LINE_AT_MARK: the receiver again takes start bits (R21, R23, R24). -/
def execRxLineAtMark (i : SlotId) (s : State) : Result :=
  .next <| match (s.slot i).rx with
    | .needMark _ => setRx i .waiting s
    | _ => s

/-- CONSOLE_CHARACTER_RECEIVED (R21): the frame in reception is complete; an all-space frame is held
until the line returns to mark or the break is detected (R23). -/
def execConsoleCharacterReceived (i : SlotId) (marks : Byte) (parityMark stopMark : Bool) (s : State) : Result :=
  .next <| match (s.slot i).rx with
    | .reception c false =>
      let b := byteOf c marks
      if allSpace c b parityMark stopMark then setRx i (.reception c true) s
      else takeCharacter i c b parityMark stopMark s
    | _ => s

/-- RX_RETURN_TO_MARK (R23): the all-space frame was no break and is a character of value 00. DESIGN
CHOICE (assumption 37): a return that comes before the frame is held is taken in the same way. -/
def execRxReturnToMark (i : SlotId) (s : State) : Result :=
  .next <| match (s.slot i).rx with
    | .reception c _ => takeCharacter i c 0 false false s
    | _ => s

/-- A break: a BREAK_IN marker is posted, the break counted, and the receiver waits for one bit time of
mark (R23). -/
def takeBreakIn (i : SlotId) (s : State) : State :=
  setRx i (.needMark false) ((s.post i .breakIn).count i fun c => { c with breaks := bump c.breaks })

/-- BREAK_DETECTED (R23): the line has been at space for longer than a frame. An all-space frame is
discarded; after the framing error of another frame there is none to discard. A break that has been
taken, and the space in which a receiver starts (R24), give no further one. DESIGN CHOICE (assumption
37): a break that comes before the frame in reception is held is taken in the same way. -/
def execBreakDetected (i : SlotId) (s : State) : Result :=
  .next <| match (s.slot i).rx with
    | .reception _ _ => takeBreakIn i s
    | .needMark true => takeBreakIn i s
    | .needMark false => s
    | .waiting => s

/-! ## Hold-offs and silence (R65, R67 to R69) -/

/-- HOLD_OFF_EXPIRY (R65): the hold-off stops running. -/
def execHoldOffExpiry (i : SlotId) (w : Nat) (s : State) : Result :=
  .next <|
    if expired (sparseGet none (s.slot i).matcher.holdOffs w) s.now then
      s.modSlot i fun x => { x with matcher := { x.matcher with
        holdOffs := sparseSet none x.matcher.holdOffs w none } }
    else s

/-- The slot's Silence Timer counts at this tick: the unit ticks since power-up are a multiple of its
unit (R67) and the three conditions of R68 hold. -/
def State.silenceCounts (s : State) (i : SlotId) : Bool :=
  decide (s.unitTicks % (s.setup i).silenceUnit = 0) && (s.setup i).silenceEnable &&
    decide ((s.slot i).record.observed = .on) && !(s.slot i).silence.terminal

/-- The timer becomes terminal with count `L` (R69). -/
def silenceEnds (i : SlotId) (s : State) : State :=
  let c := s.setup i
  let w := c.silenceAction
  let a := s.watchAction w
  let pos := (s.slot i).hist.next
  let s := s.modSlot i fun x => { x with silence := { count := c.silenceLimit, terminal := true } }
  let s := s.post i (.silence w)
  let s := if w ≠ 0 ∧ a.notify = true then
      s.notify (some i) (.consoleSilent w c.silenceLimit c.silenceUnit pos)
    else s
  let s := if w ≠ 0 ∧ a.recover = true then raiseRecovery i a.action .silence w s else s
  s.count i fun k => { k with silences := bump k.silences }

/-- The count that this tick brings reaches the limit (R69). -/
def State.silenceReaches (s : State) (i : SlotId) : Bool :=
  decide ((s.setup i).silenceLimit ≤ (s.slot i).silence.count + 1)

/-- SILENCE_TICK (R68): a U-second tick raises the count by 1; a tick that brings it to the limit
makes the timer terminal in the same event (R69). -/
def execSilenceTick (i : SlotId) (s : State) : Result :=
  .next <|
    if s.silenceCounts i then
      if s.silenceReaches i then silenceEnds i s
      else s.modSlot i fun x => { x with silence := { x.silence with count := x.silence.count + 1 } }
    else s

/-- SILENCE_TERMINAL (R69): the U-second tick that brings the count to the limit. -/
def execSilenceTerminal (i : SlotId) (s : State) : Result :=
  .next <| if s.silenceCounts i && s.silenceReaches i then silenceEnds i s else s

end Sys2Proof.Machine
end

