-- ==== Sys2Proof/Machine/Request.lean ====
section
/-! DEFINITION. How the Message Handler takes a request: the station, the reply's place, the header,
the kind's rule, the reply (R182, R186, R192, R193). -/

namespace Sys2Proof.Machine

open Sys2Proof

/-- What a kind's rule answers: the status and data of the reply, and the state. -/
abbrev Answer := (Status × ReplyData) × State

/-- The message's station has been heard on `p`; a change of its last port offers the held fetches of
its units (R182, R188). -/
def hear (e : StationId) (p : Port) (s : State) : State :=
  let before := s.lastPorts[e]
  let s := { s with lastPorts := upd s.lastPorts e fun _ => some p }
  if before = some p then s else offerHeld (viaEntry e) s

/-- A message kind that no station sends (R192 test 2). -/
def isForeign : MsgKind → Bool
  | .foreign _ => true
  | _ => false

/-- The reply's data enter the place taken for it (R193). -/
def fillReply (p : Port) (n : Nat) (k : MsgKind) (a : Answer) : State :=
  a.2.modPort p fun x => { x with own := x.own.modify n fun f => { f with body := .reply k a.1.1 a.1.2 } }

/-- The header is judged and then the kind's rule (R192). -/
def judge (h : Header) (k : MsgKind) (rule : StationId → State → Answer) (e : StationId) (s : State) : Answer :=
  if h.version ≠ 1 then ((.unsupported, .none), s)
  else if isForeign k then ((.unsupported, .none), s)
  else if !h.bodyFits then ((.malformed, .none), s)
  else rule e s

/-- A request of a known station: a place for its reply is taken, or it is dropped and counted
(R186); then it is judged and its reply enters the place. -/
def handle (h : Header) (k : MsgKind) (rule : StationId → State → Answer) (e : StationId) (s : State) : State :=
  if s.ownRoom h.port then
    let n := (s.port h.port).own.length
    let s := s.ownAppend h.port (s.ownFrame h.src h.target h.tag (.reply k .ok .none))
    fillReply h.port n k (judge h k rule e s)
  else s.countPort h.port fun c => { c with replySpace := bump c.replySpace }

/-- A message of an unknown station is dropped and counted (R179). -/
def unknownStation (s : State) : State :=
  { s with frameCounters := { s.frameCounters with unknownStation := bump s.frameCounters.unknownStation } }

/-- A consumed request: its source is looked up, its station's last port updated, and it is handled
(R179, R182). -/
def request (h : Header) (k : MsgKind) (rule : StationId → State → Answer) (s : State) : State :=
  match s.lookup h.src with
  | none => unknownStation s
  | some e => handle h k rule e (hear e h.port s)

/-- A request refused with a status and no data. -/
def refuse (st : Status) (s : State) : Answer := ((st, .none), s)

/-- The target names a slot, else RANGE. -/
def onSlot (h : Header) (rule : SlotId → State → Answer) (s : State) : Answer :=
  match finOf 8 h.target.toNat with
  | none => refuse .range s
  | some i => rule i s

/-- The target names a unit, else RANGE. -/
def onUnit (h : Header) (rule : UnitId → State → Answer) (s : State) : Answer :=
  match finOf 4 h.target.toNat with
  | none => refuse .range s
  | some u => rule u s

/-- MESSAGE_UNKNOWN_KIND (R192): a wrong version, an unknown kind, or a kind that only the bridge
sends is refused UNSUPPORTED. -/
def execMessageUnknownKind (h : Header) (k : ForeignKind) (s : State) : Result :=
  .next (request h (.foreign k) (fun _ s => refuse .unsupported s) s)

end Sys2Proof.Machine
end

