-- ==== Sys2Proof/Machine/Storage.lean ====
section
/-! DEFINITION. The prime, MEDIA_BIND, MEDIA_UNBIND, MEDIA_QUERY and the storage ports (chapter 8). -/

namespace Sys2Proof.Machine

open Sys2Proof

/-! ## The prime (R156) -/

/-- A prime has come to DONE or FAILED: the notice, and the bound slot's sequencer is told (R156). DESIGN
CHOICE (assumption 41): the notice is generated before the sequencer is told. -/
def reportPrime (u : UnitId) (good : Bool) (s : State) : State :=
  let slot := (s.unit u).slot
  let s := mediaNotice u slot (if good then .primed else .primeFailed) none s
  match slot with
  | some i => gateReport i good s
  | none => s

/-- A RUNNING prime ends: its state, its pins, and the report (R156). -/
def endPrime (u : UnitId) (good : Bool) (s : State) : State :=
  let images := (s.unit u).primeImages
  let s := endRequester u true images s
  let s := s.modUnit u fun m => { m with prime := if good then .done else .failed, primeImages := [] }
  reportPrime u good s

/-- Every covered block of the unit's prime is ready. -/
def State.primeReady (s : State) (u : UnitId) : Bool :=
  (s.unit u).primeImages.all fun b => isValid (s.blockAt u b)

/-- A RUNNING prime whose covered blocks are all ready becomes DONE (R156). -/
def checkPrime (u : UnitId) (s : State) : State :=
  if (s.unit u).prime = .running ∧ s.primeReady u = true then endPrime u true s else s

/-- The prime starts: DONE or FAILED in the same event, or RUNNING with its blocks handed to the
cache (R156). The report of a prime that ends at its start follows the bind's notice (R158). -/
def startPrime (u : UnitId) (s : State) : State :=
  match s.resolveAll u 0 (min 8 (s.capacity u)) with
  | none => s.modUnit u fun m => { m with prime := .failed }
  | some xs =>
    if xs.all fun x => (s.ready u x).isSome then s.modUnit u fun m => { m with prime := .done }
    else
      handOver u true (imagesIn xs)
        (s.modUnit u fun m => { m with prime := .running, primeImages := imagesIn xs })

/-! ## MEDIA_BIND, MEDIA_UNBIND, MEDIA_QUERY (R139, R140, R157) -/

/-- The binding of R139, steps 1 to 5. -/
def bindUnit (u : UnitId) (i : SlotId) (e : StationId) (a : Addr) (s : State) : State :=
  s.modUnit u fun m => { m with
    slot := some i
    station := some (e, a)
    bootsLeft := (s.unitSetup u).presentBoots
    mediumChanged := true
    state := .presenting }

/-- The report of a prime that ended at the bind. -/
def reportStart (u : UnitId) (s : State) : State :=
  match (s.unit u).prime with
  | .done => reportPrime u true s
  | .failed => reportPrime u false s
  | .running => s
  | .none => s

/-- A bind that is taken (R139). -/
def takeBind (h : Header) (u : UnitId) (i : SlotId) (e : StationId) (s : State) : Answer :=
  let s := startPrime u (bindUnit u i e h.src s)
  let s := reportStart u (mediaNotice u (some i) .bound none s)
  let m := s.unit u
  ((.ok, .bind u m.state i m.bootsLeft (s.capacity u) m.prime), s)

/-- MEDIA_BIND (R139). -/
def execMediaBind (h : Header) (slot : Byte) (s : State) : Result :=
  .next (request h .mediaBind (fun e s =>
    onUnit h (fun u s =>
      match finOf 8 slot.toNat with
      | none => refuse .range s
      | some i =>
        if !h.bodyExact then refuse .malformed s
        else if !s.holdsOn e (·.media) i then refuse .denied s
        else if (s.unit u).state ≠ .detached ∨ s.unitOf i ≠ none then
          ((.state, .bindRefused (s.unit u).state (s.unitOf i)), s)
        else takeBind h u i e s) s) s)

/-- The entry is the unit's media station entry. -/
def isMediaStation (m : MediaUnit) (e : StationId) : Bool :=
  match m.station with
  | some (e', _) => decide (e' = e)
  | none => false

/-- MEDIA_UNBIND (R140). -/
def execMediaUnbind (h : Header) (s : State) : Result :=
  .next (request h .mediaUnbind (fun e s =>
    onUnit h (fun u s =>
      if !h.bodyExact then refuse .malformed s
      else if (s.unit u).state ≠ .presenting then ((.state, .unbindRefused (s.unit u).state), s)
      else if !isMediaStation (s.unit u) e && !(s.station e).rights.admin then refuse .denied s
      else ((.ok, .none), eject u .unbind s)) s) s)

def requestKind : PortRequest → RequestKind
  | .read _ _ _ => .read
  | .write _ _ => .write

/-- The reply of MEDIA_QUERY (R157). -/
def mediaReport (s : State) (u : UnitId) : MediaReport :=
  let m := s.unit u
  { state := m.state
    reason := m.ejectReason
    slot := m.slot
    station := m.station
    bootsLeft := m.bootsLeft
    presentBoots := (s.unitSetup u).presentBoots
    prime := m.prime
    mediumChanged := m.mediumChanged
    capacity := s.capacity u
    port := m.slot.bind fun i => (s.slot i).port.inFlight.map requestKind
    held := heldCount m
    limit := (s.unitSetup u).overlayLimit
    free := s.poolFree }

/-- The entry holds ADMIN, or MEDIA on some slot (R157). -/
def mayQueryMedia (x : StationEntry) : Bool := x.rights.admin || (x.rights.media && decide (x.mask ≠ 0))

/-- MEDIA_QUERY (R157). -/
def execMediaQuery (h : Header) (s : State) : Result :=
  .next (request h .mediaQuery (fun e s =>
    onUnit h (fun u s =>
      if !h.bodyExact then refuse .malformed s
      else if !mayQueryMedia (s.station e) then refuse .denied s
      else ((.ok, .media (mediaReport s u)), s)) s) s)

/-! ## Requests at a storage port (R148 to R150) -/

/-- A request is completed at once, without the bound unit (R149, R159). -/
def turnAway (i : SlotId) (k : RequestKind) (o : PortOutcome) (s : State) : State :=
  (tell i (.done k o) s).count i fun c => { c with notPresent := bump c.notPresent }

/-- A storage port takes a request when none is in flight, and judges it against the bound unit
(R148, R149). While one is in flight the server's next request waits in the server. -/
def portTakes (i : SlotId) (k : RequestKind) (rule : UnitId → State → State) (s : State) : State :=
  if (s.slot i).port.inFlight.isSome then s
  else
    match s.unitOf i with
    | none => turnAway i k .notPresent s
    | some u =>
      if (s.unit u).state = .presenting then
        if (s.unit u).mediumChanged then
          turnAway i k .mediumChanged (s.modUnit u fun m => { m with mediumChanged := false })
        else rule u s
      else turnAway i k .notPresent s

/-- STORAGE_CHECK (R149, R150). -/
def execStorageCheck (i : SlotId) (s : State) : Result :=
  .next (portTakes i .check (fun _ s => tell i (.done .check .good) s) s)

/-- STORAGE_CAPACITY (R149, R150). -/
def execStorageCapacity (i : SlotId) (s : State) : Result :=
  .next (portTakes i .capacity
    (fun u s => tell i (.done .capacity .good) (tell i (.capacity (s.capacity u) 512) s)) s)

/-- The count is 1 to 128 and the range ends at or below the capacity (R151, R154). -/
def rangeGood (first count cap : Nat) : Bool :=
  decide (1 ≤ count) && decide (count ≤ 128) && decide (first + count ≤ cap)

/-- A request is completed MEDIUM_ERROR when it is taken (R151, R154, R159). -/
def refuseMedium (i : SlotId) (u : UnitId) (k : RequestKind) (s : State) : State :=
  (tell i (.done k .mediumError) s).countUnit u fun c => { c with mediaErrors := bump c.mediaErrors }

/-- A read is accepted: its blocks are resolved and handed to the cache, and what is ready is
delivered (R151, R152). The event moves every line of the read, so they end in ascending order of group
(R160). -/
def acceptRead (i : SlotId) (u : UnitId) (first : Nat) (xs : List Source) (s : State) : State :=
  let images := imagesIn xs
  touchLines u images (pumpRead i u (handOver u false images (setInFlight i (some (.read first xs images)) s)))

/-- STORAGE_READ (R149, R151). -/
def execStorageRead (i : SlotId) (first count : Nat) (s : State) : Result :=
  .next (portTakes i .read (fun u s =>
    if !rangeGood first count (s.capacity u) then tell i (.done .read .range) s
    else
      match s.resolveAll u first count with
      | none => refuseMedium i u .read s
      | some xs => acceptRead i u first xs s) s)

/-- The kind of region a block lies in; a gap behaves as ZERO (R146). -/
def State.kindAt (s : State) (u : UnitId) (k : Nat) : RegionKind :=
  match s.regionAt u k with
  | some r => r.kind
  | none => .zero

/-- The kinds a server may write to (R154 test 4). -/
def writable : RegionKind → Bool
  | .overlay => true
  | .local_ => true
  | .remote => false
  | .zero => false
  | .absent => false

/-- The LBAs of a range. -/
def lbas (first count : Nat) : List Nat := (List.range count).map (first + ·)

/-- How many LBAs of a range are not in the Overlay Index (R154 test 5). -/
def newBlocks (m : MediaUnit) (first count : Nat) : Nat :=
  ((lbas first count).filter fun k => (indexGet m.overlay k).isNone).length

/-- The write is refused for want of space (R154 test 5). -/
def noSpace (s : State) (u : UnitId) (n : Nat) : Bool :=
  decide (s.poolFree < n) || decide ((s.unitSetup u).overlayLimit < heldCount (s.unit u) + n)

/-- A write that passes reserves its blocks (R154). -/
def acceptWrite (i : SlotId) (u : UnitId) (first count n : Nat) (s : State) : State :=
  let s := s.modUnit u fun m => { m with reserved := m.reserved + n }
  setInFlight i (some (.write first count)) { s with poolFree := s.poolFree - n }

/-- STORAGE_WRITE (R149, R154). -/
def execStorageWrite (i : SlotId) (first count : Nat) (s : State) : Result :=
  .next (portTakes i .write (fun u s =>
    let n := newBlocks (s.unit u) first count
    if !rangeGood first count (s.capacity u) then tell i (.done .write .range) s
    else if (s.unitSetup u).writeProtect then
      (tell i (.done .write .protected_) s).countUnit u
        fun c => { c with protectedRefusals := bump c.protectedRefusals }
    else if (lbas first count).any fun k => decide (s.kindAt u k = .absent) then refuseMedium i u .write s
    else if (lbas first count).any fun k => !writable (s.kindAt u k) then
      (tell i (.done .write .protected_) s).countUnit u
        fun c => { c with protectedRefusals := bump c.protectedRefusals }
    else if noSpace s u n then
      (tell i (.done .write .full) s).countUnit u fun c => { c with spaceRefusals := bump c.spaceRefusals }
    else acceptWrite i u first count n s) s)

/-- A data block is stored at an LBA: in place, or in a reserved block (R154). -/
def storeBlock (lba : Nat) (data : Block) (m : MediaUnit) : MediaUnit :=
  { m with
    reserved := if (indexGet m.overlay lba).isSome then m.reserved else m.reserved - 1
    overlay := indexSet m.overlay lba data
    counters := { m.counters with written := bump m.counters.written } }

/-- A write ends GOOD after its last block (R154). -/
def finishWrite (i : SlotId) (u : UnitId) (s : State) : State :=
  afterRequest u ((setInFlight i none (tell i (.done .write .good) s)).countUnit u
    fun c => { c with writesGood := bump c.writesGood })

/-- STORAGE_WRITE_DATA_BLOCK (R154). Data that no accepted write awaits is discarded. -/
def execStorageWriteDataBlock (i : SlotId) (data : Block) (s : State) : Result :=
  .next <| match (s.slot i).port.inFlight, s.unitOf i with
    | some (.write lba left), some u =>
      let s := s.modUnit u (storeBlock lba data)
      if left ≤ 1 then finishWrite i u s else setInFlight i (some (.write (lba + 1) (left - 1))) s
    | _, _ => s

/-- An aborted write gives back its unused reservation (R155). -/
def returnReservation (u : UnitId) (s : State) : State :=
  let n := (s.unit u).reserved
  { (s.modUnit u fun m => { m with reserved := 0 }) with poolFree := s.poolFree + n }

/-- What a request gives up at its abort (R155). -/
def dropRequest (u : UnitId) (r : PortRequest) (s : State) : State :=
  match r with
  | .read _ _ images => endRequester u false images s
  | .write _ _ => returnReservation u s

/-- SERVER_ABORT (R155). -/
def execServerAbort (i : SlotId) (s : State) : Result :=
  .next <| match (s.slot i).port.inFlight, s.unitOf i with
    | some r, some u =>
      afterRequest u ((dropRequest u r (setInFlight i none s)).countUnit u
        fun c => { c with aborts := bump c.aborts })
    | _, _ => s

end Sys2Proof.Machine
end

