-- ==== Sys2Proof/Machine/Answers.lean ====
section
/-! DEFINITION. The answers of media stations, BLOCK_DATA and BLOCK_ABSENT, and the deadline of a fetch
record (R166 to R170). -/

namespace Sys2Proof.Machine

open Sys2Proof

/-! ## The checks of an answer (R166, R192) -/

def dropMalformed (s : State) : State := s.countFetch fun c => { c with malformed := bump c.malformed }

/-- Check 1 fails (R166). -/
def isForeignAnswer (m : MediaUnit) (e : StationId) (src : Addr) : Bool :=
  decide (m.state ≠ .detached) && decide (m.station ≠ some (e, src))

/-- The outstanding record of a unit under an id. -/
def State.recordOf (s : State) (u : UnitId) (id : BitVec 16) : Option FetchRecord :=
  s.fetch.records.find? fun r => decide (r.id = id) && decide (r.unit = u)

/-- The header tests and checks 0 to 2, then what is done with the record. No reply is sent (R166,
R186, R192). -/
def answer (h : Header) (id : BitVec 16) (take : UnitId → FetchRecord → State → State) (s : State) : State :=
  match s.lookup h.src with
  | none => unknownStation s
  | some e =>
    let s := hear e h.port s
    match finOf 4 h.target.toNat with
    | none => dropMalformed s
    | some u =>
      if h.version ≠ 1 ∨ h.bodyFits = false ∨ h.bodyExact = false then dropMalformed s
      else if isForeignAnswer (s.unit u) e h.src then s.countFetch fun c => { c with foreign := bump c.foreign }
      else
        match s.recordOf u id with
        | none => s.countFetch fun c => { c with stale := bump c.stale }
        | some r => take u r s

/-! ## BLOCK_DATA (R166, R167) -/

/-- Some blocks leave the pending set of a record (R167, R168). -/
def unpend (id : BitVec 16) (bs : List Nat) (s : State) : State :=
  s.modRecord id fun r => { r with waiting := r.waiting.filter fun b => !bs.contains b }

/-- A record whose pending set is empty is freed and the Issue Queue served (R167, R168). -/
def freeIfEmpty (id : BitVec 16) (s : State) : State :=
  if s.fetch.records.any fun r => decide (r.id = id) && r.waiting.isEmpty then freeRecord id s else s

/-- The unit's read and prime are told that a block is ready (R167 step 4). -/
def tellReady (u : UnitId) (s : State) : State :=
  let s := match (s.unit u).slot with
    | some i => pumpRead i u s
    | none => s
  checkPrime u s

/-- A block that passes the checks is taken (R167). -/
def takeBlock (u : UnitId) (id : BitVec 16) (b : Nat) (data : Block) (s : State) : State :=
  let s := unpend id [b] (setBlock u (.valid data) s b)
  let s := s.countUnit u fun c => { c with accepted := bump c.accepted }
  tellReady u (freeIfEmpty id s)

/-- BLOCK_DATA (R166, R167). -/
def execBlockData (h : Header) (id : BitVec 16) (block check : BitVec 32) (data : Block) (s : State) : Result :=
  .next (answer h id (fun u r s =>
    if !r.waiting.contains block.toNat then s.countFetch fun c => { c with duplicate := bump c.duplicate }
    else if !checkGood (s.unitSetup u) data check then
      s.countFetch fun c => { c with checkFail := bump c.checkFail }
    else takeBlock u id block.toNat data s) s)

/-! ## Failed blocks (R168 to R170, R174) -/

/-- The read of a unit that waits on one of the blocks is completed MEDIUM_ERROR (R170). -/
def failRead (u : UnitId) (bs : List Nat) (s : State) : State :=
  match (s.unit u).slot with
  | none => s
  | some i =>
    match (s.slot i).port.inFlight with
    | some (.read _ rest images) =>
      if (imagesIn rest).any bs.contains then finishRead i u images .mediumError s else s
    | _ => s

/-- The prime of a unit that waits on one of the blocks becomes FAILED (R170). -/
def failPrime (u : UnitId) (bs : List Nat) (s : State) : State :=
  if (s.unit u).prime = .running ∧ (s.unit u).primeImages.any bs.contains = true then endPrime u false s else s

/-- Blocks that have become FAILED: their read and prime end, and they return to EMPTY (R170). -/
def treatFailed (u : UnitId) (bs : List Nat) (s : State) : State :=
  bs.foldl (setBlock u .empty) (failPrime u bs (failRead u bs s))

/-- The FETCH_FAILED notice of some blocks of a record (R174). -/
def fetchNotice (u : UnitId) (r : FetchRecord) (bs : List Nat) (why : FetchReason) (s : State) : State :=
  s.notify (s.unit u).slot
    (.fetchFailed u r.id r.first r.count bs.length (bs.foldl min (bs.headD 0)) why r.reAsk)

/-- Blocks become FAILED and are counted (R168, R169, R175). -/
def markFailed (u : UnitId) (bs : List Nat) (s : State) : State :=
  (bs.foldl (setBlock u .failed) s).countUnit u fun c => { c with failed := bumpBy bs.length c.failed }

/-- BLOCK_ABSENT (R168). -/
def execBlockAbsent (h : Header) (id : BitVec 16) (first : BitVec 32) (count : Nat) (reason : Byte) (s : State) : Result :=
  .next (answer h id (fun u r s =>
    let bs := r.waiting.filter fun b => decide (first.toNat ≤ b) && decide (b < first.toNat + count)
    if bs.isEmpty then s.countFetch fun c => { c with duplicate := bump c.duplicate }
    else
      let s := unpend id bs (markFailed u bs s)
      freeIfEmpty id (treatFailed u bs (fetchNotice u r bs (.absent reason) s))) s)

/-! ## FETCH_DEADLINE (R169) -/

/-- A record is removed and nothing is served. -/
def removeRecord (id : BitVec 16) (s : State) : State :=
  { s with fetch := { s.fetch with records := s.fetch.records.filter fun r => decide (r.id ≠ id) } }

/-- The span from the lowest to the highest block of a pending set, as its first block and length. -/
def spanPair (bs : List Nat) : Nat × Nat :=
  let lo := bs.foldl min (bs.headD 0)
  let hi := bs.foldl max lo
  (lo, hi - lo + 1)

/-- A re-ask (R169). -/
def reAsk (r : FetchRecord) (s : State) : State :=
  let p := spanPair r.waiting
  (createRecord r.unit p.1 p.2 (r.reAsk + 1) r.waiting (removeRecord r.id s)).countUnit r.unit
    fun c => { c with reAsks := bump c.reAsks }

/-- The failure of a record at its deadline (R169). -/
def failRecord (r : FetchRecord) (s : State) : State :=
  let s := removeRecord r.id (markFailed r.unit r.waiting s)
  serveIssue (treatFailed r.unit r.waiting (fetchNotice r.unit r r.waiting .noAnswer s))

def fetchDue (r : FetchRecord) (now : Time) : Bool :=
  match r.phase with
  | .held => false
  | .out due => reached due now

/-- FETCH_DEADLINE (R169). -/
def execFetchDeadline (id : BitVec 16) (s : State) : Result :=
  .next <| match s.fetch.records.find? fun r => decide (r.id = id) with
    | none => s
    | some r =>
      if fetchDue r s.now then
        if r.reAsk < (s.unitSetup r.unit).reAskLimit then reAsk r s else failRecord r s
      else s

end Sys2Proof.Machine
end

