-- ==== Sys2Proof/Machine/Input.lean ====
section
/-! DEFINITION. The Input Queue, the transmitter and the holder (chapter 3). -/

namespace Sys2Proof.Machine

open Sys2Proof

def modInput (i : SlotId) (f : InputQueue → InputQueue) (s : State) : State :=
  s.modSlot i fun x => { x with input := f x.input }

/-! ## The transmitter (R43 to R45) -/

/-- The line levels of a character frame, mark being true (R44). -/
def frameBits (c : ConsoleSetup) (b : Byte) : List Bool :=
  let data := (List.range (if c.dataBits = 7 then 7 else 8)).map b.getLsbD
  let odd := decide ((data.filter id).length % 2 = 1)
  let parity := match c.parity with
    | .none => []
    | .even => [odd]
    | .odd => [!odd]
  false :: data ++ parity ++ List.replicate c.stopBits true

/-- The transmitter starts sending an item (R44, R45). -/
def startItem (c : ConsoleSetup) (s : State) : InputItem → Transmitter
  | .byte b => .byte b c.baud (frameBits c b)
  | .brk d => .breakSpace (s.after d)

/-- The transmitter, having nothing to send, takes the head item or is idle (R43). -/
def takeHead (i : SlotId) (s : State) : State :=
  match (s.slot i).input.items with
  | [] => modInput i (fun q => { q with tx := .idle }) s
  | x :: xs => modInput i (fun q => { q with items := xs, tx := startItem (s.console i) s x }) s

/-- Items join the tail; an idle transmitter takes the head at once (R43). -/
def appendItems (i : SlotId) (xs : List InputItem) (s : State) : State :=
  let s := modInput i (fun q => { q with items := q.items ++ xs }) s
  if (s.slot i).input.tx = .idle then takeHead i s else s

/-- The free space of a slot's queue (R42). -/
def freeSpace (q : InputQueue) : Nat := 256 - q.items.length

/-- The level of the RX line that the transmitter drives, mark being true; a byte being sent gives
its frame's levels in turn (R43 to R45). -/
def rxAtMark : Transmitter → Option Bool
  | .idle => some true
  | .byte _ _ _ => none
  | .breakSpace _ => some false
  | .breakMark _ => some true

/-- TX_BYTE_FINISHED (R44). -/
def execTxByteFinished (i : SlotId) (s : State) : Result :=
  .next <| match (s.slot i).input.tx with
    | .byte _ _ _ => takeHead i (s.count i fun c => { c with txBytes := bump c.txBytes })
    | _ => s

/-- BREAK_ITEM_DEADLINE (R45): the line returns to mark for one bit time at the baud in force. -/
def execBreakItemDeadline (i : SlotId) (s : State) : Result :=
  .next <| match (s.slot i).input.tx with
    | .breakSpace due =>
      if reached due s.now then modInput i (fun q => { q with tx := .breakMark (s.console i).baud }) s else s
    | _ => s

/-- BREAK_ITEM_FINISHED (R45). -/
def execBreakItemFinished (i : SlotId) (s : State) : Result :=
  .next <| match (s.slot i).input.tx with
    | .breakMark _ => takeHead i (s.count i fun c => { c with txBreaks := bump c.txBreaks })
    | _ => s

/-! ## The holder (R46 to R53) -/

/-- The due time of an idle deadline armed now (R46). -/
def State.idleDue (s : State) (i : SlotId) : Time := s.after ((s.console i).idleLimit * 1000)

/-- The idle deadline is armed anew (R51, R52). -/
def renew (i : SlotId) (s : State) : State := modInput i (fun q => { q with idleDue := some (s.idleDue i) }) s

/-- A grant or an end is reported: the HOLDER marker and the notice (R46). -/
def reportHolder (i : SlotId) (before : Option StationId) (why : HolderReason) (s : State) : State :=
  let q := (s.slot i).input
  (s.post i (.holder q.holder)).notify (some i) (.holderChanged before q.holder why q.count)

/-- The holding is granted to an entry (R46). -/
def grant (i : SlotId) (e : StationId) (why : HolderReason) (s : State) : State :=
  let before := (s.slot i).input.holder
  reportHolder i before why
    (modInput i (fun q => { q with holder := some e, count := 0, idleDue := some (s.idleDue i) }) s)

/-- The holding ends; the input count keeps its value (R46). -/
def endHold (i : SlotId) (why : HolderReason) (s : State) : State :=
  let before := (s.slot i).input.holder
  reportHolder i before why (modInput i (fun q => { q with holder := none, idleDue := none }) s)

/-- HOLDER_IDLE_EXPIRY (R52). -/
def execHolderIdleExpiry (i : SlotId) (s : State) : Result :=
  .next <|
    if (s.slot i).input.holder.isSome && expired (s.slot i).input.idleDue s.now then endHold i .idle s else s

/-- The data of a CONSOLE_HOLD reply. -/
def holdData (i : SlotId) (s : State) : ReplyData :=
  let q := (s.slot i).input
  .hold q.holder q.count q.idleDue

def holdAnswer (i : SlotId) (st : Status) (s : State) : Answer := ((st, holdData i s), s)

/-- The judgement of a CONSOLE_HOLD before its form (R47); once the slot is known every reply carries the
data of CONSOLE_HOLD. -/
def holdRule (h : Header) (known force : Bool) (e : StationId) (form : SlotId → State → Answer) (s : State) : Answer :=
  onSlot h (fun i s =>
    if !h.bodyExact then holdAnswer i .malformed s
    else if !known then holdAnswer i .unsupported s
    else if !s.holdsOn e (·.type) i || (force && !(s.station e).rights.force) then holdAnswer i .denied s
    else form i s) s

/-- TAKE (R48). -/
def takeForm (e : StationId) (i : SlotId) (s : State) : Answer :=
  match (s.slot i).input.holder with
  | none => holdAnswer i .ok (grant i e .take s)
  | some e' => if e' = e then holdAnswer i .ok (renew i s) else holdAnswer i .busy s

/-- FORCE (R49). -/
def forceForm (e : StationId) (i : SlotId) (s : State) : Answer :=
  if (s.slot i).input.holder = some e then holdAnswer i .ok (renew i s)
  else holdAnswer i .ok (grant i e .force s)

/-- CONSOLE_HOLD TAKE (R48). -/
def execConsoleHoldTake (h : Header) (s : State) : Result :=
  .next (request h .consoleHold (fun e s => holdRule h true false e (takeForm e) s) s)

/-- CONSOLE_HOLD FORCE (R49). -/
def execConsoleHoldForce (h : Header) (s : State) : Result :=
  .next (request h .consoleHold (fun e s => holdRule h true true e (forceForm e) s) s)

/-- CONSOLE_HOLD RELEASE (R50). -/
def execConsoleHoldRelease (h : Header) (s : State) : Result :=
  .next (request h .consoleHold (fun e s =>
    holdRule h true false e (fun i s =>
      if (s.slot i).input.holder = some e then holdAnswer i .ok (endHold i .release s)
      else holdAnswer i .state s) s) s)

/-- CONSOLE_HOLD RENEW (R51). -/
def execConsoleHoldRenew (h : Header) (s : State) : Result :=
  .next (request h .consoleHold (fun e s =>
    holdRule h true false e (fun i s =>
      if (s.slot i).input.holder = some e then holdAnswer i .ok (renew i s)
      else holdAnswer i .state s) s) s)

/-- A CONSOLE_HOLD of an unknown form (R47 test 2). -/
def holdUnknownForm (h : Header) (s : State) : State :=
  request h .consoleHold (fun e s => holdRule h false false e (fun _ s => refuse .unsupported s) s) s

/-! ## Typing (R54 to R56) -/

/-- Tests 3 to 6 of R54 for a request of entry `e`; `denied`, `state` and `stale` are the data of the
replies that refuse it. DESIGN CHOICE (assumption 52): R53 has a CONSOLE_WRITE of an entry whose holding a station
write has just ended get STATE; an entry that has lost TYPE or the slot fails test 3 before test 4, and the order of
R54 is followed, so it is DENIED. Unsafe for a claim about which status it gets. -/
def typingRule (e : StationId) (quote : BitVec 32) (denied state stale : ReplyData)
    (taken : SlotId → State → Answer) (i : SlotId) (s : State) : Answer :=
  if !s.holdsOn e (·.type) i then ((.denied, denied), s)
  else if (s.slot i).input.holder ≠ some e then ((.state, state), s)
  else
    let s := renew i s
    if quote ≠ (s.slot i).input.count then ((.stale, stale), s) else taken i s

/-- The data of a CONSOLE_WRITE reply but one with STATE. -/
def writeData (accepted : Nat) (q : InputQueue) : ReplyData := .write accepted q.count (freeSpace q)

/-- The data of a CONSOLE_BREAK reply with OK (R56). -/
def brkData (duration : Nat) (q : InputQueue) : ReplyData := .brk duration q.count (freeSpace q)

/-- A CONSOLE_WRITE is taken: the bytes that find room are queued and counted (R55). -/
def takeWrite (bytes : List Byte) (i : SlotId) (s : State) : Answer :=
  let a := min bytes.length (freeSpace (s.slot i).input)
  let s := modInput i (fun q => { q with count := q.count + BitVec.ofNat 32 a }) s
  let s := appendItems i ((bytes.take a).map .byte) s
  ((.ok, writeData a (s.slot i).input), s)

/-- CONSOLE_WRITE (R54, R55). Once the slot is known every reply carries the accepted count, which is 0
where the request is refused, the input count and the free space; STATE also names the holder. -/
def execConsoleWrite (h : Header) (quote : BitVec 32) (count : BitVec 16) (bytes : List Byte) (s : State) : Result :=
  .next (request h .consoleWrite (fun e s =>
    onSlot h (fun i s =>
      let q := (s.slot i).input
      let refused := writeData 0 q
      if count = 0 ∨ 512 < count.toNat ∨ count.toNat ≠ bytes.length ∨ h.bodyExact = false then
        ((.malformed, refused), s)
      else
        typingRule e quote refused (.writeHeld 0 q.count (freeSpace q) q.holder) refused (takeWrite bytes) i s) s) s)

/-- A CONSOLE_BREAK that has passed its tests: FULL, or a break item is queued (R56). -/
def takeBreak (duration : BitVec 16) (i : SlotId) (s : State) : Answer :=
  let d := clamp 10 2000 duration.toNat
  if freeSpace (s.slot i).input = 0 then refuse .full s
  else
    let s := appendItems i [.brk d] s
    ((.ok, brkData d (s.slot i).input), s)

/-- CONSOLE_BREAK (R56). A reply carries what R56 and tests 4 and 6 of R54 name for its status: the
duration, the input count and the free space with OK, the holder with STATE, the count and the space
with STALE, and no data with MALFORMED, DENIED and FULL (R193). -/
def execConsoleBreak (h : Header) (quote : BitVec 32) (duration : BitVec 16) (s : State) : Result :=
  .next (request h .consoleBreak (fun e s =>
    onSlot h (fun i s =>
      if !h.bodyExact then refuse .malformed s
      else
        let q := (s.slot i).input
        typingRule e quote .none (.brkHeld q.holder) (.brkStale q.count (freeSpace q)) (takeBreak duration) i s) s) s)

end Sys2Proof.Machine
end

