-- ==== Sys2Proof/Machine/Operands.lean ====
section
/-! DEFINITION. The entry fields of a TABLE_WRITE: what is refused with RANGE (none) and what is
clamped, table by table (R3 and each table's own rule). -/

namespace Sys2Proof.Machine

open Sys2Proof

/-- The group bit of an address: the least significant bit of its first byte (R178). -/
def groupBit (a : Addr) : Bool := a.getLsbD 40

/-- The broadcast address is all ones (R178). -/
def broadcast : Addr := BitVec.allOnes 48

/-- The address is one a station entry may hold (R183 test 2). -/
def goodStationAddr : StationAddr → Bool
  | .any => true
  | .mac a => !groupBit a

/-- A STATION entry (R183 test 2). -/
def judgeStation (codes : Bool) (e : StationEntry) : Option StationEntry :=
  if codes && goodStationAddr e.address then some e else none

/-- The six silence units (R67). -/
def silenceUnits : List Nat := [1, 4, 16, 64, 256, 1024]

/-- A SLOT_SETUP entry: its indices and its silence unit are not clamped (R19, R76). -/
def judgeSlotSetup (codes : Bool) (e : SlotSetup) : Option SlotSetup :=
  if codes && decide (e.profile ≤ 7) && decide (e.startState ≤ 511) && decide (e.silenceAction ≤ 31) &&
      silenceUnits.contains e.silenceUnit then
    some { e with
      recoveryLimit := clamp 0 15 e.recoveryLimit
      windowHours := clamp 1 24 e.windowHours
      silenceLimit := clamp 1 63 e.silenceLimit
      pgFilter := clamp 1 50 e.pgFilter }
  else none

/-- The listed bauds (R20). -/
def bauds : List Nat := [1200, 2400, 4800, 9600, 19200, 38400, 57600, 115200, 230400, 460800, 921600]

/-- A CONSOLE_SETUP entry: listed values are refused outside their lists, the idle limit is clamped
(R20, R42). -/
def judgeConsole (codes : Bool) (e : ConsoleSetup) : Option ConsoleSetup :=
  if codes && bauds.contains e.baud && [7, 8].contains e.dataBits && [1, 2].contains e.stopBits then
    some { e with idleLimit := clamp 10 3600 e.idleLimit }
  else none

/-- A PROFILE entry (R97). -/
def judgeProfile (codes : Bool) (e : Profile) : Option Profile :=
  if codes then
    some { e with
      tapWidth := clamp 50 2000 e.tapWidth
      holdWidth := clamp 4000 15000 e.holdWidth
      resetWidth := clamp 50 2000 e.resetWidth
      softGrace := clamp 1 600 e.softGrace
      offDwell := clamp 1 60 e.offDwell
      onDeadline := clamp 1 120 e.onDeadline
      gateWait := clamp 1 300 e.gateWait
      feedCharge := clamp 0 1000 e.feedCharge
      startCharge := clamp 0 1000 e.startCharge
      feedSettle := clamp 10 10000 e.feedSettle
      startSettle := clamp 10 10000 e.startSettle
      holdUp := clamp 0 60000 e.holdUp }
  else none

/-- A CLASS_MAP entry (R59). -/
def judgeClass (codes : Bool) (cls : Nat) : Option Nat := if codes && decide (cls ≤ 31) then some cls else none

/-- An AUTOMATON entry of 32 next states (R59). -/
def judgeRow (codes : Bool) (next : List Nat) : Option (List Nat) :=
  if codes && next.all fun n => decide (n ≤ 511) then some next else none

/-- A STATE_ACTION entry (R60). -/
def judgeStateAction (codes : Bool) (w : Nat) : Option Nat := if codes && decide (w ≤ 31) then some w else none

/-- A WATCH_ACTION entry (R60). -/
def judgeWatch (codes : Bool) (e : WatchAction) : Option WatchAction :=
  if codes && decide (e.returnState ≤ 511) then some { e with holdOff := clamp 0 3600 e.holdOff } else none

/-- The upper 16 bits are clear. -/
def fits16 (x : BitVec 32) : Bool := decide (x.toNat < 65536)

/-- A UNIT_SETUP entry (R145). -/
def judgeUnit (codes : Bool) (e : UnitSetup) : Option UnitSetup :=
  if codes && (decide (e.width ≠ .w16) || (fits16 e.poly && fits16 e.init && fits16 e.finalXor)) then
    some { e with
      fetchDeadline := clamp 50 5000 e.fetchDeadline
      reAskLimit := clamp 0 7 e.reAskLimit
      overlayLimit := clamp 0 4096 e.overlayLimit
      presentBoots := clamp 0 15 e.presentBoots }
  else none

/-- The kinds whose regions have an image base (R146). -/
def hasBase : RegionKind → Bool
  | .remote => true
  | .overlay => true
  | .local_ => false
  | .zero => false
  | .absent => false

/-- The region as it would be stored: its count clamped and the image base of the other kinds
discarded (R146 tests 3 and 4). -/
def storedRegion (r : Region) : Region :=
  { r with count := clamp 1 (2 ^ 31) r.count, base := if hasBase r.kind then r.base else none }

/-- A region of an Image Map (R146 tests 2 to 4). -/
def judgeRegion (codes : Bool) (r : Region) : Option Region :=
  let k := storedRegion r
  if codes && decide (r.first ≤ 2 ^ 31 - 1) && (!hasBase r.kind || decide (k.base.getD 0 + k.count ≤ 2 ^ 32))
  then some k else none

/-- Two regions share a block (R146 test 5). -/
def overlaps (a b : Region) : Bool := decide (a.first < b.first + b.count) && decide (b.first < a.first + a.count)

/-- The thresholds after clamping (R85). -/
def clampLimits (t : Thresholds) : Thresholds :=
  { glitch := clamp 10 255 t.glitch, hold := clamp 1000 8000 t.hold, stuck := clamp 5000 30000 t.stuck }

/-- A BRIDGE_SETUP entry, judged whole (R85, R124, R178, R189, R195). -/
def judgeBridge (codes : Bool) (e : BridgeSetup) : Option BridgeSetup :=
  let t := clampLimits e.limits
  if codes && decide (t.glitch < t.hold) && decide (t.hold < t.stuck) && decide (0x0600 ≤ e.frameType.toNat) &&
      groupBit e.group && decide (e.group ≠ broadcast) && !groupBit e.address then
    some { e with
      capacity := clamp 10 4000 e.capacity
      spacing := clamp 0 5000 e.spacing
      limits := t
      ownShare := clamp 1 8 e.ownShare }
  else none

end Sys2Proof.Machine
end

