-- ==== Sys2Proof/Machine/Lines.lean ====
section
/-! DEFINITION. The front-panel lines: the Power-Good Monitor, the Button Classifiers, the Line Event
Log and LINES_QUERY (chapter 5). -/

namespace Sys2Proof.Machine

open Sys2Proof

/-! ## The Line Event Log (R93, R94) -/

def lastAssert (l : LineLog) : LogLine → Option Time
  | .pg => l.lastPg
  | .pwrIn => l.lastPwrIn
  | .rstIn => l.lastRstIn

def setLastAssert (l : LineLog) (line : LogLine) (t : Option Time) : LineLog :=
  match line with
  | .pg => { l with lastPg := t }
  | .pwrIn => { l with lastPwrIn := t }
  | .rstIn => { l with lastRstIn := t }

/-- The log captures an edge; with 16 entries the oldest is removed first (R93, R94). -/
def captureEdge (line : LogLine) (assert : Bool) (now : Time) (l : LineLog) : LineLog :=
  let width := if assert then none else (lastAssert l line).map (now - ·)
  let kept := if 16 ≤ l.entries.length then l.entries.drop 1 else l.entries
  let l := { l with entries := kept ++ [{ line, assert, time := now, width }] }
  if assert then setLastAssert l line (some now) else l

def logEdge (i : SlotId) (line : LogLine) (assert : Bool) (s : State) : State :=
  s.modSlot i fun x => { x with log := captureEdge line assert s.now x.log }

/-- A last-assert time whose age is 2^31 ms or more is made absent (R94). -/
def ageTime (now : Time) (t : Option Time) : Option Time :=
  t.filter fun a => decide ((now - a).toNat < 2 ^ 31)

/-- LAST_ASSERT_AGE_OUT (R94), for the three lines of a slot. -/
def execLastAssertAgeOut (i : SlotId) (s : State) : Result :=
  .next <| s.modSlot i fun x => { x with log := { x.log with
    lastPg := ageTime s.now x.log.lastPg
    lastPwrIn := ageTime s.now x.log.lastPwrIn
    lastRstIn := ageTime s.now x.log.lastRstIn } }

/-! ## Power-good (R83, R84) -/

def modPg (i : SlotId) (f : PowerGood → PowerGood) (s : State) : State :=
  s.modSlot i fun x => { x with pg := f x.pg }

/-- The filter is restarted from the raw line (R84). -/
def restartFilter (i : SlotId) (s : State) : State :=
  let due := if s.pgRaw i = (s.slot i).pg.filtered then none else some (s.after (s.setup i).pgFilter)
  modPg i (fun g => { g with due }) s

/-- PG_RAW_CHANGE (R83): the filter deadline is armed, or disarmed with a glitch. A PG pin that is
already at the level does not change. -/
def execPgRawChange (i : SlotId) (high : Bool) (s : State) : Result :=
  .next <|
    if (s.slot i).pg.pin = high then s
    else
      let s := modPg i (fun g => { g with pin := high }) s
      if s.pgRaw i = (s.slot i).pg.filtered then
        if (s.slot i).pg.due.isSome then
          (modPg i (fun g => { g with due := none }) s).count i
            fun c => { c with pgGlitches := bump c.pgGlitches }
        else s
      else if (s.slot i).pg.due.isSome then s
      else modPg i (fun g => { g with due := some (s.after (s.setup i).pgFilter) }) s

/-- PG_FILTER_EXPIRY (R83): the filtered state takes the raw level; the Slot Table and the Line Event
Log are told. -/
def execPgFilterExpiry (i : SlotId) (s : State) : Result :=
  .next <|
    if expired (s.slot i).pg.due s.now then
      let raw := s.pgRaw i
      let s := modPg i (fun g => { g with filtered := raw, due := none }) s
      logEdge i .pg raw (deriveObserved observeBoot meetLow i s)
    else s

/-! ## Button Classifiers (R85 to R92) -/

def btnOf (x : Slot) : Button → Classifier
  | .pwr => x.pwrBtn
  | .rst => x.rstBtn

def modBtn (i : SlotId) (b : Button) (f : Classifier → Classifier) (s : State) : State :=
  s.modSlot i fun x =>
    match b with
    | .pwr => { x with pwrBtn := f x.pwrBtn }
    | .rst => { x with rstBtn := f x.rstBtn }

def setClass (i : SlotId) (b : Button) (st : ClassState) (s : State) : State :=
  modBtn i b (fun c => { c with state := st }) s

def lineOf : Button → LogLine
  | .pwr => .pwrIn
  | .rst => .rstIn

/-- Change the counters of a button input. -/
def countBtn (i : SlotId) (b : Button) (f : ButtonCounters → ButtonCounters) (s : State) : State :=
  s.count i fun c =>
    match b with
    | .pwr => { c with pwrIn := f c.pwrIn }
    | .rst => { c with rstIn := f c.rstIn }

/-- The classifier's local claim on its output is made or withdrawn (R79). -/
def setLocal (i : SlotId) (b : Button) (v : Bool) (s : State) : State :=
  setClaims observeBoot (fun l =>
    match b with
    | .pwr => { l with pwrLocal := v }
    | .rst => { l with rstLocal := v }) i s

/-- A LOCAL_PRESS notice (R91). -/
def pressNotice (i : SlotId) (b : Button) (ev : PressEvent) (reason : Option BlockReason)
    (width : Option (BitVec 32)) (p : Press) (s : State) : State :=
  s.notify (some i) (.localPress b ev reason.isNone reason width p.time)

/-- A press begins: its time, thresholds and deadlines (R86). -/
def newPress (s : State) : Press :=
  let t := s.tables.bridge.limits
  { time := s.now, limits := t, glitchDue := s.after t.glitch, stuckDue := s.after t.stuck }

/-- BUTTON_PRESS_EDGE (R86, R93). An input that is already pressed does not change. -/
def execButtonPressEdge (i : SlotId) (b : Button) (s : State) : Result :=
  .next <|
    if (btnOf (s.slot i) b).pressed then s
    else
      let s := logEdge i (lineOf b) true (modBtn i b (fun c => { c with pressed := true }) s)
      let c := btnOf (s.slot i) b
      if c.state = .released ∧ c.seen = true then setClass i b (.pending (newPress s)) s else s

/-- The class of a press of some width that was not stuck (R88). -/
def pressClass (p : Press) (width : BitVec 32) : PressClass :=
  if width.toNat < p.limits.hold then .tap else .hold

def eventOf : PressClass → PressEvent
  | .tap => .tap
  | .hold => .hold
  | .stuck => .stuck

/-- What a release does in each classifier state before it enters RELEASED (R86, R88, R89). -/
def endPress (i : SlotId) (b : Button) (st : ClassState) (s : State) : State :=
  match st with
  | .released => s
  | .pending _ => countBtn i b (fun c => { c with glitches := bump c.glitches }) s
  | .passing p =>
    let w := s.now - p.time
    let s := (setLocal i b false s).post i (.localPress b (pressClass p w))
    pressNotice i b (eventOf (pressClass p w)) none (some w) p s
  | .blocked p r =>
    let w := s.now - p.time
    pressNotice i b (eventOf (pressClass p w)) (some r) (some w) p s
  | .stuck p r => pressNotice i b .stuckCleared r (some (s.now - p.time)) p s

/-- BUTTON_RELEASE_EDGE (R86, R88, R89, R93). An input that is already released does not change. -/
def execButtonReleaseEdge (i : SlotId) (b : Button) (s : State) : Result :=
  .next <|
    if (btnOf (s.slot i) b).pressed then
      let st := (btnOf (s.slot i) b).state
      let s := logEdge i (lineOf b) false (modBtn i b (fun c => { c with pressed := false, seen := true }) s)
      setClass i b .released (endPress i b st s)
    else s

def outputEnabled (c : SlotSetup) : Button → Bool
  | .pwr => c.pwrOut.enable
  | .rst => c.rstOut.enable

/-- Why a press is blocked at the glitch limit, or none when it passes (R87). -/
def blockReason (s : State) (i : SlotId) (b : Button) : Option BlockReason :=
  if (s.setup i).panel = .block then some .mode
  else if seqBusy (s.slot i).seq.state then some .sequence
  else if !outputEnabled (s.setup i) b then some .disabled
  else none

def setPending (i : SlotId) (c : PendingCause) (s : State) : State :=
  s.modSlot i fun x => { x with record := { x.record with pendingCause := some c } }

/-- A press is decided at the glitch limit (R87). -/
def decidePress (i : SlotId) (b : Button) (p : Press) (s : State) : State :=
  match blockReason s i b with
  | none =>
    let s := setLocal i b true (setClass i b (.passing p) s)
    countBtn i b (fun c => { c with passed := bump c.passed }) (setPending i .localButton s)
  | some r =>
    let s := pressNotice i b .blocked (some r) none p (setClass i b (.blocked p r) s)
    countBtn i b (fun c => { c with blocked := bump c.blocked }) s

/-- GLITCH_DEADLINE (R87). -/
def execGlitchDeadline (i : SlotId) (b : Button) (s : State) : Result :=
  .next <| match (btnOf (s.slot i) b).state with
    | .pending p => if reached p.glitchDue s.now then decidePress i b p s else s
    | _ => s

/-- The marker, notice and count of a press that has become STUCK (R90). -/
def reportStuck (i : SlotId) (b : Button) (p : Press) (r : Option BlockReason) (s : State) : State :=
  let s := pressNotice i b .stuck r none p (s.post i (.localPress b .stuck))
  countBtn i b (fun c => { c with stuck := bump c.stuck }) s

/-- STUCK_DEADLINE (R90). -/
def execStuckDeadline (i : SlotId) (b : Button) (s : State) : Result :=
  .next <| match (btnOf (s.slot i) b).state with
    | .passing p =>
      if reached p.stuckDue s.now then
        reportStuck i b p none (setLocal i b false (setClass i b (.stuck p none) s))
      else s
    | .blocked p r =>
      if reached p.stuckDue s.now then reportStuck i b p (some r) (setClass i b (.stuck p (some r)) s) else s
    | _ => s

/-! ## LINES_QUERY (R95) -/

def classReport : ClassState → ClassReport
  | .released => { state := .released, reason := none, pressTime := none }
  | .pending p => { state := .pending, reason := none, pressTime := some p.time }
  | .passing p => { state := .passing, reason := none, pressTime := some p.time }
  | .blocked p r => { state := .blocked, reason := some r, pressTime := some p.time }
  | .stuck p _ => { state := .stuck, reason := none, pressTime := some p.time }

def outReport (seq loc : Bool) : OutReport :=
  if loc then .assertedLocal else if seq then .assertedSequence else .released

def linesReport (s : State) (i : SlotId) : LinesReport :=
  let x := s.slot i
  { time := s.now
    pwrIn := x.pwrBtn.pressed
    rstIn := x.rstBtn.pressed
    pwrClass := classReport x.pwrBtn.state
    rstClass := classReport x.rstBtn.state
    pgRaw := s.pgRaw i
    pgFiltered := x.pg.filtered
    pgArmed := x.pg.due.isSome
    pwrOut := outReport x.lines.pwrSeq x.lines.pwrLocal
    rstOut := outReport x.lines.rstSeq x.lines.rstLocal
    feed := x.lines.feed
    observed := x.record.observed
    logCount := x.log.entries.length
    log := x.log.entries }

/-- LINES_QUERY (R95). -/
def execLinesQuery (h : Header) (s : State) : Result :=
  .next (request h .linesQuery (fun e s =>
    onSlot h (fun i s =>
      if !h.bodyExact then refuse .malformed s
      else if !s.holdsOn e (·.read) i then refuse .denied s
      else ((.ok, .lines (linesReport s i)), s)) s) s)

end Sys2Proof.Machine
end

