-- ==== Sys2Proof/Machine/Power.lean ====
section
/-! DEFINITION. POWER requests, the step deadlines, the Inrush Scheduler's ticks and the Recovery
Budget (chapters 4, 6 and 7). -/

namespace Sys2Proof.Machine

open Sys2Proof

/-! ## POWER (R101 to R104) -/

/-- The lines an action needs are enabled (R102). -/
def linesEnabled (a : Action) (c : SlotSetup) (p : Profile) : Bool :=
  match a with
  | .powerOn => c.pwrOut.enable && c.feed.enable
  | .cycleSoft => c.pwrOut.enable && c.feed.enable
  | .powerOffSoft => c.pwrOut.enable
  | .powerOffHard => c.pwrOut.enable
  | .reset => c.rstOut.enable
  | .cycleFeed => c.feed.enable && (!p.autoPress || c.pwrOut.enable)
  | .feedOff => c.feed.enable
  | .feedOn => c.feed.enable

/-- The actions that need a quote (R102 test 7). -/
def needsQuote : Action → Bool
  | .reset => true
  | .cycleSoft => true
  | .cycleFeed => true
  | .powerOn => false
  | .powerOffSoft => false
  | .powerOffHard => false
  | .feedOff => false
  | .feedOn => false

/-- Tests 3 to 9 of R102; none when all pass. -/
def powerFailure (a : Action) (p : Profile) (quote : Quote) (i : SlotId) (s : State) : Option PowerOutcome :=
  let x := s.slot i
  let c := s.setup i
  if !c.powerControl then some .statePowerControl
  else if !linesEnabled a c p then some .stateLine
  else if seqBusy x.seq.state then some (.busySequencer x.seq.state)
  else if s.localPassing i then some .busyLocal
  else if quote = none ∧ needsQuote a = true then some .stateQuoteRequired
  else if quote ≠ none ∧ quote ≠ some x.record.bootCount then some (.stale x.record.bootCount)
  else if a = .reset ∧ x.record.observed ≠ .on then some .stateNotOn
  else none

/-- One slot of a POWER request with one of the eight actions (R102, R103). -/
def powerSlot (a : Action) (profile : Option Nat) (quote : Quote) (e : StationId) (i : SlotId) (s : State) :
    PowerOutcome × State :=
  if !s.holdsOn e (·.power) i then (.denied, s)
  else
    let n := profile.getD (s.setup i).profile
    match powerFailure a (s.profile n) quote i s with
    | some o => (o, s)
    | none =>
      let s := accept i a .operator n (setPending i .operator s)
      (.ok (s.slot i).seq.state, s)

/-- One slot of a POWER request with ABORT (R104). -/
def abortSlot (e : StationId) (i : SlotId) (s : State) : PowerOutcome × State :=
  if !s.holdsOn e (·.power) i then (.denied, s) else (.ok (.halted .aborted), abort i s)

/-- The quote at a slot's place in the list (R101). -/
def quoteAt (mask : BitVec 8) (quotes : List Quote) (i : SlotId) : Quote :=
  (quotes[(slotsOf mask).idxOf i]?).join

/-- The request as a whole (R101), then its slots in ascending order. -/
def powerRule (h : Header) (profile : Option Nat) (quotes : List Quote)
    (each : SlotId → State → PowerOutcome × State) (s : State) : Answer :=
  if quotes.length ≠ (slotsOf h.target).length ∨ h.bodyExact = false then refuse .malformed s
  else if h.target = 0 then refuse .range s
  else if 7 < profile.getD 0 then refuse .range s
  else
    let r := eachSlot each (slotsOf h.target) s
    ((.ok, .power r.1), r.2)

/-- A POWER request with one of the eight actions. -/
def powerRequest (a : Action) (h : Header) (profile : Option Nat) (quotes : List Quote) (s : State) : State :=
  request h .power (fun e s =>
    powerRule h profile quotes (fun i s => powerSlot a profile (quoteAt h.target quotes i) e i s) s) s

/-- POWER with POWER_ON (R114). -/
def execPowerOn (h : Header) (profile : Option Nat) (quotes : List Quote) (s : State) : Result :=
  .next (powerRequest .powerOn h profile quotes s)

/-- POWER with POWER_OFF_SOFT (R115). -/
def execPowerOffSoft (h : Header) (profile : Option Nat) (quotes : List Quote) (s : State) : Result :=
  .next (powerRequest .powerOffSoft h profile quotes s)

/-- POWER with POWER_OFF_HARD (R115). -/
def execPowerOffHard (h : Header) (profile : Option Nat) (quotes : List Quote) (s : State) : Result :=
  .next (powerRequest .powerOffHard h profile quotes s)

/-- POWER with RESET (R116). -/
def execPowerReset (h : Header) (profile : Option Nat) (quotes : List Quote) (s : State) : Result :=
  .next (powerRequest .reset h profile quotes s)

/-- POWER with CYCLE_SOFT (R116). -/
def execPowerCycleSoft (h : Header) (profile : Option Nat) (quotes : List Quote) (s : State) : Result :=
  .next (powerRequest .cycleSoft h profile quotes s)

/-- POWER with CYCLE_FEED (R117). -/
def execPowerCycleFeed (h : Header) (profile : Option Nat) (quotes : List Quote) (s : State) : Result :=
  .next (powerRequest .cycleFeed h profile quotes s)

/-- POWER with FEED_OFF (R117). -/
def execPowerFeedOff (h : Header) (profile : Option Nat) (quotes : List Quote) (s : State) : Result :=
  .next (powerRequest .feedOff h profile quotes s)

/-- POWER with FEED_ON (R117). -/
def execPowerFeedOn (h : Header) (profile : Option Nat) (quotes : List Quote) (s : State) : Result :=
  .next (powerRequest .feedOn h profile quotes s)

/-- POWER with ABORT (R104). -/
def execPowerAbort (h : Header) (profile : Option Nat) (quotes : List Quote) (s : State) : Result :=
  .next (request h .power (fun e s => powerRule h profile quotes (abortSlot e) s) s)

/-- POWER with an action outside the nine (R101 test 1). -/
def powerUnknown (h : Header) (s : State) : State := request h .power (fun _ s => refuse .unsupported s) s

/-! ## Step deadlines (R107, R110, R111, R113) -/

/-- The slot's sequencer is in a step of some kind whose deadline bridge time has reached. -/
def State.stepDue (s : State) (i : SlotId) (st : SeqState) (which : Step → Bool) : Bool :=
  match (s.slot i).seq.record with
  | some r => decide ((s.slot i).seq.state = st) && which r.current && expired r.deadline s.now
  | none => false

def isPress : Step → Bool
  | .press _ => true
  | .hold => true
  | _ => false

def isDwell : Step → Bool
  | .dwell _ => true
  | _ => false

def isGate : Step → Bool
  | .gate => true
  | _ => false

def isExpectHigh : Step → Bool
  | .expectHigh => true
  | _ => false

def isExpectLow : Step → Bool
  | .expectLow _ => true
  | _ => false

/-- PRESS_DEADLINE (R107): the claim on PWR_OUT is withdrawn and the step ends. -/
def execPressDeadline (i : SlotId) (s : State) : Result :=
  .next <|
    if s.stepDue i .stepping isPress then
      stepEnds i (setClaims bootInStep (fun l => { l with pwrSeq := false }) i s)
    else s

/-- DWELL_DEADLINE (R107): the step ends. -/
def execDwellDeadline (i : SlotId) (s : State) : Result :=
  .next <| if s.stepDue i .stepping isDwell then stepEnds i s else s

/-- EXPECT_HIGH_DEADLINE (R110): the sequence halts. -/
def execExpectHighDeadline (i : SlotId) (s : State) : Result :=
  .next <| if s.stepDue i .stepping isExpectHigh then halt i .pgTimeout s else s

/-- The expiry of an EXPECT_LOW (R111): escalation of a soft off, or the halt. -/
def lowExpires (i : SlotId) (s : State) : State :=
  if s.currentIs i (.expectLow true) && (s.seqProfile i).escalate then
    runSteps i (.hold :: .expectLow false :: s.restOf i)
      (modRecordOf i (fun r => { r with escalated := true }) s)
  else halt i .pgTimeout s

/-- EXPECT_LOW_DEADLINE (R111). -/
def execExpectLowDeadline (i : SlotId) (s : State) : Result :=
  .next <| if s.stepDue i .stepping isExpectLow then lowExpires i s else s

/-- GATE_WAIT_DEADLINE (R113). -/
def execGateWaitDeadline (i : SlotId) (s : State) : Result :=
  .next <| if s.stepDue i .waitGate isGate then gateReport i false s else s

/-! ## The Inrush Scheduler (R126, R130, R133) -/

/-- INRUSH_EVALUATION (R130): with a step waiting, expired charges leave and the head is tested; a
head that passes is started (R132). -/
def execInrushEvaluation (s : State) : Result :=
  .next <| match s.inrush.queue with
    | [] => s
    | w :: _ =>
      let s := expireCharges s
      if headPasses s w.charge then goOn w.slot (giveStart w s) else s

/-- INRUSH_UNIT_UPKEEP (R133). -/
def execInrushUnitUpkeep (s : State) : Result :=
  .next <| (expireCharges s).modInrush fun x => { x with
    last := x.last.filter fun t => decide ((s.now - t).toNat < 5000) }

/-- COLD_MARK_SET (R126). -/
def execColdMarkSet (i : SlotId) (s : State) : Result :=
  .next <| match (s.slot i).record.feedDropped with
    | some t => if 60000 ≤ (s.now - t).toNat then s.modSlot i fun x => { x with coldMark := true } else s
    | none => s

/-! ## The Recovery Budget (R70 to R75) -/

/-- The power action of a recovery action (R60, R70). -/
def recoveryStep : RecoveryAction → Action
  | .reset => .reset
  | .cycleSoft => .cycleSoft
  | .powerOffHard => .powerOffHard
  | .cycleFeed => .cycleFeed

/-- The pending cause of a recovery (R72). -/
def recoveryCause : RecoverySource → PendingCause
  | .pattern => .recoveryPattern
  | .silence => .recoverySilence

/-- The window's count; a closed window's count is 0 (R73). -/
def windowCount (w : Option Window) : Nat :=
  match w with
  | some w => w.count
  | none => 0

/-- The first test of R71 that a request fails, as the reason of its decline (R74). -/
def declineReason (i : SlotId) (r : RecoveryRequest) (s : State) : Option DeclineReason :=
  let x := s.slot i
  let c := s.setup i
  let w := x.recovery.window
  let a := recoveryStep r.action
  if !c.armed then some .disarmed
  else if !c.powerControl then some .disarmed
  else if seqBusy x.seq.state then some (.busySequencer x.seq.state)
  else if s.localPassing i then some .busyLocal
  else if c.recoveryLimit ≤ windowCount w then
    some (.exhausted (windowCount w) c.recoveryLimit (w.map (·.closes)))
  else if r.quote ≠ x.record.bootCount then some (.stale r.quote x.record.bootCount)
  else if !linesEnabled a c (s.profile c.profile) then some .state
  else if a = .reset ∧ x.record.observed ≠ .on then some .state
  else none

def modRecovery (i : SlotId) (f : Recovery → Recovery) (s : State) : State :=
  s.modSlot i fun x => { x with recovery := f x.recovery }

/-- The window after a start: opened, or its count raised (R73). -/
def countRecovery (i : SlotId) (s : State) : Window :=
  match (s.slot i).recovery.window with
  | some w => { w with count := w.count + 1 }
  | none => { start := s.now, count := 1, closes := s.after ((s.setup i).windowHours * 3600000) }

/-- A request that passes is started (R72). -/
def startRecovery (i : SlotId) (r : RecoveryRequest) (s : State) : State :=
  let w := countRecovery i s
  let s := modRecovery i (fun x => { x with window := some w }) s
  let s := setPending i (recoveryCause r.source) s
  let s := accept i (recoveryStep r.action) (.recovery r.source) (s.setup i).profile s
  let s := s.notify (some i) (.recoveryStarted r.action r.source r.watch w.count w.closes)
  s.count i fun c => { c with recoveriesStarted := bump c.recoveriesStarted }

/-- A request that fails a test is declined (R74). -/
def declineRecovery (i : SlotId) (r : RecoveryRequest) (why : DeclineReason) (s : State) : State :=
  (s.notify (some i) (.recoveryDeclined r.action r.source r.watch why)).count i
    fun c => { c with recoveriesDeclined := bump c.recoveriesDeclined }

/-- RECOVERY_REQUEST_TAKEN (R70, R71): the first waiting request is judged, and started or declined. -/
def execRecoveryRequestTaken (i : SlotId) (s : State) : Result :=
  .next <| match (s.slot i).recovery.waiting with
    | [] => s
    | r :: rest =>
      let s := modRecovery i (fun x => { x with waiting := rest }) s
      match declineReason i r s with
      | some why => declineRecovery i r why s
      | none => startRecovery i r s

/-- RECOVERY_WINDOW_CLOSE (R73). -/
def execRecoveryWindowClose (i : SlotId) (s : State) : Result :=
  .next <| match (s.slot i).recovery.window with
    | some w => if reached w.closes s.now then modRecovery i (fun x => { x with window := none }) s else s
    | none => s

end Sys2Proof.Machine
end

