-- ==== Sys2Proof/Machine/Bridge.lean ====
section
/-! DEFINITION. DISCOVER and BRIDGE_CONTROL, the Configuration Store, power-up and the bridge restart
(chapter 11 and each chapter's reset values). -/

namespace Sys2Proof.Machine

open Sys2Proof

/-! ## Pass Queues (R185) -/

/-- The byte total of a Pass Queue. -/
def passBytes (q : List Frame) : Nat := (q.map (·.length)).sum

/-- A frame is forwarded toward a port, or dropped at the tail (R185). -/
def forward (p : Port) (f : Frame) (s : State) : State :=
  let x := s.port p
  if x.up && decide (x.pass.length < 32) && decide (passBytes x.pass + f.length ≤ 32768) then
    s.modPort p fun x => { x with pass := x.pass ++ [f] }
  else s.countPort p fun c => { c with passDrop := bump c.passDrop }

/-! ## DISCOVER (R196) -/

/-- What the reply to a DISCOVER carries (R196). DESIGN CHOICE: whether a SAVE is running and whether a
restart is pending are two fields (assumption 47). -/
def discoverReport (s : State) (e : StationId) : DiscoverReport :=
  let b := s.tables.bridge
  { address := b.address
    group := b.group
    frameType := b.frameType
    version := 1
    slots := 8
    units := 4
    restartCount := s.restartCount
    time := s.now
    notice := s.noticeNumber
    storeValid := s.storeValid
    saveRunning := s.save.isSome
    restartPending := decide (s.restart ≠ .none)
    entry := e
    rights := (s.station e).rights
    mask := (s.station e).mask }

def discoverRule (h : Header) (e : StationId) (s : State) : Answer :=
  if !h.bodyExact then refuse .malformed s else ((.ok, .discover (discoverReport s e)), s)

/-- A group or broadcast DISCOVER is handled when its source is a known station; an unknown one is
not counted (R179). -/
def discoverKnown (h : Header) (s : State) : State :=
  match s.lookup h.src with
  | none => s
  | some e => handle h .discover (discoverRule h) e (hear e h.port s)

/-- The frame of a DISCOVER sent to a group address or to broadcast (R191). -/
def discoverFrame (h : Header) (dst : Addr) (s : State) : Frame :=
  { dst
    src := h.src
    etype := s.tables.bridge.frameType
    length := h.frameLength
    payload := .bridge h.version h.target h.tag h.bodyLength h.bodyExact .discover }

/-- A DISCOVER sent to a group address or to broadcast: forwarded, and handled (R179). -/
def discoverGroup (h : Header) (dst : Addr) (s : State) : State :=
  discoverKnown h (forward (otherPort h.port) (discoverFrame h dst s) s)

/-- A frame from the bridge's own address is dropped and counted (R179). -/
def dropSelf (s : State) : State :=
  { s with frameCounters := { s.frameCounters with selfSource := bump s.frameCounters.selfSource } }

/-- DISCOVER (R179, R196). -/
def execDiscover (h : Header) (dest : DiscoverTo) (s : State) : Result :=
  .next <|
    if h.src = s.tables.bridge.address then dropSelf s
    else
      match dest with
      | .bridge => request h .discover (discoverRule h) s
      | .group => discoverGroup h s.tables.bridge.group s
      | .broadcast => discoverGroup h broadcast s

/-! ## BRIDGE_CONTROL (R197 to R199) -/

/-- The ADMIN test of R197, then the form's rule. -/
def controlRule (rule : State → Answer) (e : StationId) (s : State) : Answer :=
  if !(s.station e).rights.admin then refuse .denied s else rule s

/-- A SAVE is running or a restart is pending (R198, R199). -/
def State.saveOrRestart (s : State) : Bool := s.save.isSome || decide (s.restart ≠ .none)

/-- BRIDGE_CONTROL SAVE (R198). -/
def execBridgeControlSave (h : Header) (s : State) : Result :=
  .next (request h .bridgeControl (controlRule fun s =>
    if !h.bodyExact then refuse .malformed s
    else if s.saveOrRestart then refuse .busy s
    else
      ((.ok, .none), { s with
        save := some { copy := s.tables, taken := s.now, due := s.after 1500 }
        store := none })) s)

/-- SAVE_COMPLETE (R198): the store holds the copy and becomes VALID. -/
def execSaveComplete (s : State) : Result :=
  .next <| match s.save with
    | none => s
    | some j => { s with save := none, store := some j.copy }.notify none (.saveDone j.taken)

/-- BRIDGE_CONTROL RESTART (R199). -/
def execBridgeControlRestart (h : Header) (quote : BitVec 16) (s : State) : Result :=
  .next (request h .bridgeControl (controlRule fun s =>
    if !h.bodyExact then refuse .malformed s
    else if s.saveOrRestart then refuse .busy s
    else if quote ≠ s.restartCount then ((.stale, .restartStale s.restartCount), s)
    else ((.ok, .restartAccepted), { s with restart := .pending })) s)

/-- A BRIDGE_CONTROL of an unknown form (R197). -/
def controlUnknownForm (h : Header) (s : State) : State :=
  request h .bridgeControl (controlRule fun s => refuse .unsupported s) s

/-! ## COUNTERS (R201, R136) -/

/-- A counter group that exists. -/
inductive Group where
  | port (p : Port)
  | frame
  | slot (i : SlotId)
  | unit (u : UnitId)
  | fetch
  | inrush
  deriving DecidableEq, Repr

/-- What a group names: none for an unknown group, and within it none for a number outside its range
(R201). DESIGN CHOICE: the number 0 names UPLINK, 1 names CHAIN, and every other number is outside the
range of the ports (assumption 48). -/
def groupOf : CounterGroup → Option (Option Group)
  | .port n => some (if n = 0 then some (.port .uplink) else if n = 1 then some (.port .chain) else none)
  | .frame => some (some .frame)
  | .slot n => some ((finOf 8 n).map .slot)
  | .unit n => some ((finOf 4 n).map .unit)
  | .fetch => some (some .fetch)
  | .inrush => some (some .inrush)
  | .unknown => none

/-- The snapshot of the Inrush Scheduler (R136). -/
def inrushSnapshot (s : State) : InrushSnapshot :=
  { capacity := s.tables.bridge.capacity
    spacing := s.tables.bridge.spacing
    last := s.inrush.last
    load := loadOf s.inrush.active s.now
    queue := s.inrush.queue
    active := s.inrush.active.map fun c => (c, contribution c s.now) }

def readGroup (s : State) : Group → CounterReport
  | .port p => .port (s.port p).counters (s.port p).up
  | .frame => .frame s.frameCounters
  | .slot i => .slot (s.slot i).counters
  | .unit u => .unit (s.unit u).counters
  | .fetch => .fetch s.fetch.counters
  | .inrush => .inrush s.inrush.counters (inrushSnapshot s)

def clearGroup (s : State) : Group → State
  | .port p => s.countPort p fun _ => {}
  | .frame => { s with frameCounters := {} }
  | .slot i => s.count i fun _ => {}
  | .unit u => s.countUnit u fun _ => {}
  | .fetch => s.countFetch fun _ => {}
  | .inrush => s.modInrush fun x => { x with counters := {} }

/-- BRIDGE_CONTROL COUNTERS (R201). DEDUCED (assumption 8): MALFORMED for an inexact body follows
UNSUPPORTED and RANGE. -/
def execBridgeControlCounters (h : Header) (group : CounterGroup) (clear : Bool) (s : State) : Result :=
  .next (request h .bridgeControl (controlRule fun s =>
    match groupOf group with
    | none => refuse .unsupported s
    | some none => refuse .range s
    | some (some g) =>
      if !h.bodyExact then refuse .malformed s
      else ((.ok, .counters (readGroup s g)), if clear then clearGroup s g else s)) s)

/-! ## The load of the tables (R200) -/

/-- The tables that a load gives: those of a VALID store, else the factory tables. -/
def loaded (store : Option Tables) : Tables := store.getD factoryTables

/-- The load: the tables, the store status, and no last port and no cursor (R181, R200). -/
def loadTables (s : State) : State :=
  { s with
    tables := loaded s.store
    storeValid := s.store.isSome
    lastPorts := Vector.replicate 32 none
    cursors := Vector.replicate 32 (Vector.replicate 8 none) }

/-! ## Power-up (R7, R82, R84, R86 and each chapter's values) -/

/-- A classifier after a reset, with its input as it stands (R86). -/
def freshButton (c : Classifier) : Classifier := { pressed := c.pressed, seen := !c.pressed, state := .released }

/-- A slot after power-up, from its setup and the levels at its input pins. -/
def poweredSlot (c : SlotSetup) (x : Slot) : Slot :=
  let feed := c.feedAtPowerUp && c.feed.enable
  { record := { observed := observe feed false }
    lines := { feed }
    matcher := { state := c.startState }
    pg := { pin := x.pg.pin }
    pwrBtn := freshButton x.pwrBtn
    rstBtn := freshButton x.rstBtn }

/-- The bridge right after its supply is applied, before the monitors look at their lines. The levels
at the input pins, the contents of the Configuration Store and the waiting commands are kept. -/
def poweredUp (s : State) : State :=
  let t := loaded s.store
  { State.reset with
    tables := t
    slots := Vector.ofFn fun i => poweredSlot t.slotSetup[i] s.slots[i]
    noticeNumber := 0
    store := s.store
    storeValid := s.store.isSome
    pending := s.pending }

/-- POWER_UP (R7, R84, R200). -/
def execPowerUp (s : State) : Result :=
  .next <|
    let s := (List.finRange 8).foldl (fun s i => restartFilter i s) (poweredUp s)
    s.notify none (.bridgeStarted s.restartCount false s.storeValid)

/-! ## The bridge restart (R199, R200 and each chapter's values) -/

/-- A slot after a restart, but for its claim on RST_OUT and the filter, which are taken after it. -/
def restartedSlot (c : SlotSetup) (x : Slot) : Slot :=
  { x with
    rx := .needMark false
    input := {}
    matcher := { state := c.startState }
    silence := {}
    recovery := {}
    lines := { x.lines with pwrSeq := false, pwrLocal := false }
    pwrBtn := freshButton x.pwrBtn
    rstBtn := freshButton x.rstBtn
    log := {}
    seq := { state := if seqBusy x.seq.state then .halted .bridgeRestart else .idle }
    port := match x.port.inFlight with
      | some r => { inFlight := none, out := x.port.out ++ [.done (requestKind r) .notPresent] }
      | none => x.port
    counters := {} }

/-- A port after a restart: its link state is kept, its queues and the frame being sent are lost
(R176, R185, R189). -/
def restartedPort (x : PortState) : PortState := { up := x.up }

/-- Every block takes its bridge-restart values. -/
def restartBlocks (s : State) : State :=
  { s with
    slots := Vector.ofFn fun i => restartedSlot s.tables.slotSetup[i] s.slots[i]
    units := Vector.replicate 4 {}
    poolFree := 4096
    cache := []
    fetch := { lastId := s.fetch.lastId }
    inrush := {}
    uplink := restartedPort s.uplink
    chain := restartedPort s.chain
    frameCounters := {}
    restart := .none
    save := none }

/-- The sequences that were running, by slot, are reported HALTED BRIDGE_RESTART (R100). `old` is the
state before the restart. -/
def reportHalts (old : State) (s : State) (i : SlotId) : State :=
  match (old.slot i).seq.record with
  | none => s
  | some r =>
    if seqBusy (old.slot i).seq.state then
      let s := s.post i (.sequence r.action (.halted .bridgeRestart))
      let s := s.notify (some i) (.sequenceHalted .bridgeRestart (endOf s i r (some r.current)))
      s.count i fun c => { c with halted := bump c.halted }
    else s

/-- The last step of R199 for one slot: the release of RST_OUT, then the drop of FEED. -/
def restartLines (s : State) (i : SlotId) : State :=
  let s := setClaims observeBoot (fun l => { l with rstSeq := false, rstLocal := false }) i s
  if (s.setup i).feed.enable then s else dropFeed observeBoot meetLow i s

/-- The restart as one event (R199). -/
def takeRestart (old : State) : State :=
  let s := loadTables { old with restartCount := old.restartCount + 1, noticeNumber := 0 }
  let s := (List.finRange 8).foldl (fun s i => restartFilter i s) (restartBlocks s)
  let s := s.notify none (.bridgeStarted s.restartCount true s.storeValid)
  let s := (List.finRange 8).foldl (reportHalts old) s
  (List.finRange 8).foldl restartLines s

/-- BRIDGE_RESTART (R199): taken once the reply of the pending restart has left or been flushed. -/
def execBridgeRestart (s : State) : Result :=
  .next <| if s.restart = .due then takeRestart s else s

end Sys2Proof.Machine
end

