-- ==== Sys2Proof/Machine/History.lean ====
section
/-! DEFINITION. CONSOLE_READ and HISTORY_CLEAR (R33 to R39). -/

namespace Sys2Proof.Machine

open Sys2Proof

/-- Where a read starts: the position, whether bytes before it are lost and how many, and the marker
chosen in MARKER mode. -/
structure ReadStart where
  start : Pos
  gap : Bool := false
  lost : BitVec 32 := 0
  marker : Option Marker := none

/-- The start of an ABSOLUTE read; none is RANGE (R34). -/
def startAbsolute (h : History) (p : Pos) : Option ReadStart :=
  let d := (h.next - p).toNat
  if d ≤ h.retained then some { start := p }
  else if d ≤ 2 ^ 31 then some { start := oldest h, gap := true, lost := oldest h - p }
  else none

/-- The start of a CURSOR read (R35). -/
def startCursor (h : History) (c : Option Pos) : ReadStart :=
  match c with
  | none => { start := oldest h }
  | some c =>
    if inInterval (oldest h) h.next c then { start := c }
    else { start := oldest h, gap := true, lost := oldest h - c }

/-- The marker a selector chooses (R36). -/
def chooseMarker (h : History) : MarkerSel → Option Marker
  | .byNumber n => h.markers.find? fun m => decide (m.number = n)
  | .latest k => h.markers.reverse.find? fun m => decide (markerKind m.detail = k)
  | .unknown => none

/-- The start of a read at a signed offset from a marker, kept inside the window (R36). -/
def offsetStart (h : History) (q : Pos) (offset : Int) : Pos :=
  if offset < 0 then
    if (-offset).toNat ≤ (q - oldest h).toNat then q - BitVec.ofNat 32 (-offset).toNat else oldest h
  else
    if offset.toNat ≤ (h.next - q).toNat then q + BitVec.ofNat 32 offset.toNat else h.next

/-- The start of a MARKER read; none is RANGE (R36). -/
def startMarker (h : History) (sel : MarkerSel) (offset : BitVec 16) : Option ReadStart :=
  (chooseMarker h sel).map fun m =>
    { start := offsetStart h m.position offset.toInt, marker := some m }

/-- How many bytes a read from `start` returns (R37). -/
def readCount (h : History) (start : Pos) (max : BitVec 16) : Nat :=
  min (min max.toNat 1024) (h.next - start).toNat

/-- The bytes at `n` positions from `start`, in position order (R37). -/
def bytesFrom (h : History) (start : Pos) (n : Nat) : List Byte :=
  (List.range n).map fun k => ringAt h (start + BitVec.ofNat 32 k)

/-- The reply of a read answered OK (R37). -/
def readReport (i : SlotId) (h : History) (r : ReadStart) (max : BitVec 16) : ReadReport :=
  { slot := i
    start := r.start
    oldest := oldest h
    next := h.next
    gap := r.gap
    lost := r.lost
    data := bytesFrom h r.start (readCount h r.start max)
    marker := r.marker }

/-- The tests of R33 before the mode's own; an unknown mode or selector is UNSUPPORTED. -/
def readRule (h : Header) (known : Bool) (e : StationId) (rule : SlotId → State → Answer) (s : State) : Answer :=
  onSlot h (fun i s =>
    if !h.bodyExact then refuse .malformed s
    else if !s.holdsOn e (·.read) i then refuse .denied s
    else if !known then refuse .unsupported s
    else rule i s) s

/-- The answer of a read whose start has been worked out, or RANGE with the window (R33 test 4). -/
def readAnswer (i : SlotId) (r : Option ReadStart) (max : BitVec 16) (s : State) : Answer :=
  let h := (s.slot i).hist
  match r with
  | none => ((.range, .readRange (oldest h) h.next), s)
  | some r => ((.ok, .read (readReport i h r max)), s)

/-- CONSOLE_READ in ABSOLUTE mode (R34). -/
def execConsoleReadAbsolute (h : Header) (p : Pos) (max : BitVec 16) (s : State) : Result :=
  .next (request h .consoleRead (fun e s =>
    readRule h true e (fun i s => readAnswer i (startAbsolute (s.slot i).hist p) max s) s) s)

def State.cursor (s : State) (e : StationId) (i : SlotId) : Option Pos := (s.cursors[e])[i]

def setCursor (e : StationId) (i : SlotId) (p : Pos) (s : State) : State :=
  { s with cursors := upd s.cursors e fun v => upd v i fun _ => some p }

/-- CONSOLE_READ in CURSOR mode: with a max of 1 or more the cursor is moved past what is returned
(R35). -/
def execConsoleReadCursor (h : Header) (max : BitVec 16) (s : State) : Result :=
  .next (request h .consoleRead (fun e s =>
    readRule h true e (fun i s =>
      let x := (s.slot i).hist
      let r := startCursor x (s.cursor e i)
      let a := readAnswer i (some r) max s
      if max = 0 then a
      else (a.1, setCursor e i (r.start + BitVec.ofNat 32 (readCount x r.start max)) a.2)) s) s)

/-- The selector names a form and a marker kind that exist (R33 test 3). -/
def knownSel : MarkerSel → Bool
  | .unknown => false
  | .byNumber _ => true
  | .latest _ => true

/-- CONSOLE_READ in MARKER mode (R36). -/
def execConsoleReadMarker (h : Header) (sel : MarkerSel) (offset max : BitVec 16) (s : State) : Result :=
  .next (request h .consoleRead (fun e s =>
    readRule h (knownSel sel) e (fun i s =>
      readAnswer i (startMarker (s.slot i).hist sel offset) max s) s) s)

/-- A CONSOLE_READ of an unknown mode (R33 test 3). -/
def readUnknownMode (h : Header) (s : State) : State :=
  request h .consoleRead (fun e s => readRule h false e (fun _ s => refuse .unsupported s) s) s

/-- HISTORY_CLEAR (R39). -/
def execHistoryClear (h : Header) (s : State) : Result :=
  .next (request h .historyClear (fun e s =>
    onSlot h (fun i s =>
      if !h.bodyExact then refuse .malformed s
      else if !s.holdsOn e (·.admin) i then refuse .denied s
      else
        let s := s.modSlot i fun x => { x with hist := { x.hist with retained := 0, markers := [] } }
        ((.ok, .historyClear (s.slot i).hist.next), s)) s) s)

end Sys2Proof.Machine
end

