-- ==== Sys2Proof/Machine/Slots.lean ====
section
/-! DEFINITION. SLOT_QUERY and SLOT_CLEAR (R15 to R17). -/

namespace Sys2Proof.Machine

open Sys2Proof

/-- A request over a slot mask: MALFORMED, RANGE for an empty mask, else OK with the outcome of each
slot in ascending order (R15). -/
def overMask {α : Type} (h : Header) (data : List (SlotId × α) → ReplyData)
    (each : SlotId → State → α × State) (s : State) : Answer :=
  if !h.bodyExact then refuse .malformed s
  else if h.target = 0 then refuse .range s
  else
    let r := eachSlot each (slotsOf h.target) s
    ((.ok, data r.1), r.2)

/-- The Slot Record of a slot, item by item as R16 lists it. DESIGN CHOICE (assumption 49): R56 lets a station
learn with SLOT_QUERY whether the queue grew, and R16 lists no length of the Input Queue and no free space; the
report follows R16's list and holds neither. Unsafe for a claim that the reply shows the queue's growth. -/
def slotReport (s : State) (i : SlotId) : SlotReport :=
  let x := s.slot i
  { observed := x.record.observed
    bootCount := x.record.bootCount
    lastCause := x.record.lastCause
    causeSet := x.record.causeSet
    pendingCause := x.record.pendingCause
    feedDropped := x.record.feedDropped
    seq := x.seq.state
    holder := x.input.holder
    inputCount := x.input.count
    boundUnit := s.unitOf i
    window := x.recovery.window.map fun w => (w.start, w.count) }

/-- SLOT_QUERY (R16); a slot without READ is DENIED, shown as no report. DESIGN CHOICE (assumption 51): R16 lets
an event on one slot fall between the reading of two slots; all slots of the mask are read in one step. Unsafe for
a claim that the records of one reply belong to one instant. -/
def execSlotQuery (h : Header) (s : State) : Result :=
  .next (request h .slotQuery (fun e s =>
    overMask h (.slotQuery s.now)
      (fun i s => (if s.holdsOn e (·.read) i then some (slotReport s i) else none, s)) s) s)

/-- The boot history of a slot is cleared (R17). -/
def clearSlot (i : SlotId) (s : State) : State :=
  s.modSlot i fun x => { x with record := { x.record with causeSet := {}, lastCause := .unattributed } }

/-- SLOT_CLEAR (R17). -/
def execSlotClear (h : Header) (s : State) : Result :=
  .next (request h .slotClear (fun e s =>
    overMask h .slotClear
      (fun i s => if s.holdsOn e (·.admin) i || s.holdsOn e (·.power) i then (.ok, clearSlot i s)
        else (.denied, s)) s) s)

end Sys2Proof.Machine
end

