-- ==== Sys2Proof/Machine/Tables.lean ====
section
/-! DEFINITION. TABLE_WRITE and TABLE_READ: the common judgement (R195), and each table's own rule with
the effects of a taken write. -/

namespace Sys2Proof.Machine

open Sys2Proof

/-! ## The common judgement (R195) -/

/-- Tests 1 and 3 to 5 of a TABLE_WRITE for a table whose indices are `lo` to `n - 1`, then the
table's own rule. `lengthGood` says that the entry fields have the table's length. -/
def writeRule (h : Header) (lo n : Nat) (w : WriteHead) (lengthGood : Bool) (own : Fin n → State → Answer)
    (e : StationId) (s : State) : Answer :=
  if !(s.station e).rights.admin then refuse .denied s
  else if w.index < lo then refuse .range s
  else
    match finOf n w.index with
    | none => refuse .range s
    | some k =>
      if !h.bodyExact || !lengthGood then refuse .malformed s
      else if s.save.isSome then refuse .busy s
      else own k s

/-- A table write is taken and its reply echoes the entry as stored. -/
def written (t : TableEntry) (s : State) : Answer := ((.ok, .table t), s)

def modTables (f : Tables → Tables) (s : State) : State := { s with tables := f s.tables }

/-- A TABLE_WRITE whose rule has no test but that of its fields: refused with RANGE or stored. -/
def storeRule {α : Type} (judged : Option α) (echo : α → TableEntry) (store : α → Tables → Tables) (s : State) : Answer :=
  match judged with
  | none => refuse .range s
  | some x => written (echo x) (modTables (store x) s)

/-! ## STATION (R183, R184) -/

/-- Another valid entry already holds the address (R183 test 3). -/
def addressTaken (t : Vector StationEntry 32) (k : StationId) (x : StationEntry) : Bool :=
  x.valid && (List.finRange 32).any fun j => decide (j ≠ k) && t[j].valid && decide (t[j].address = x.address)

/-- Some valid entry holds ADMIN (R183 test 4). -/
def hasAdmin (t : Vector StationEntry 32) : Bool :=
  (List.finRange 32).any fun j => t[j].valid && t[j].rights.admin

/-- Step 3 of R184 for one slot (R53). -/
def judgeHolder (k : StationId) (s : State) (i : SlotId) : State :=
  if (s.slot i).input.holder = some k ∧ ((s.station k).valid && s.holdsOn k (·.type) i) = false then
    endHold i .stationChange s
  else s

/-- The entry no longer stands as the unit's media station (R143). -/
def lostStation (k : StationId) (old : StationAddr) (s : State) (u : UnitId) : Bool :=
  let x := s.station k
  let onSlot := match (s.unit u).slot with
    | some i => maskHas x.mask i
    | none => false
  !x.valid || !x.rights.media || !onSlot || decide (x.address ≠ old)

/-- Step 4 of R184 for one unit (R143). -/
def judgeBinding (k : StationId) (old : StationAddr) (s : State) (u : UnitId) : State :=
  if isMediaStation (s.unit u) k = true ∧ (s.unit u).state = .presenting ∧ lostStation k old s u = true then
    eject u .stationChange s
  else s

/-- A taken Station Table write (R184). DESIGN CHOICE: several holdings that it ends are ended
slot by slot in ascending order, which numbers their HOLDER_CHANGED notices (assumption 44), several units that
it ejects are ejected in ascending order (assumption 40), and the reset of the last port offers no HELD fetch (assumption 42). -/
def takeStation (k : StationId) (x : StationEntry) (s : State) : State :=
  let old := (s.station k).address
  let s := modTables (fun t => { t with stations := upd t.stations k fun _ => x }) s
  let s := { s with
    lastPorts := upd s.lastPorts k fun _ => none
    cursors := upd s.cursors k fun _ => Vector.replicate 8 none }
  let s := (List.finRange 8).foldl (judgeHolder k) s
  (List.finRange 4).foldl (judgeBinding k old) s

/-- TABLE_WRITE of STATION (R183, R184). DESIGN CHOICE: the echo of the entry carries its last port, as a
TABLE_READ does, which the write has made none (assumption 46). -/
def execTableWriteStation (h : Header) (w : WriteHead) (x : StationEntry) (s : State) : Result :=
  .next (request h .tableWrite (fun e s =>
    writeRule h 0 32 w true (fun k s =>
      match judgeStation w.codesKnown x with
      | none => refuse .range s
      | some x =>
        if addressTaken s.tables.stations k x then refuse .state s
        else if !hasAdmin (upd s.tables.stations k fun _ => x) then refuse .state s
        else
          let s := takeStation k x s
          written (.station x s.lastPorts[k]) s) e s) s)

/-! ## SLOT_SETUP (R19, R62, R77, R81, R84) -/

/-- An output of PWR_OUT or RST_OUT would change while that is forbidden (R81). -/
def outForbidden (old new : OutSetup) (asserted busy : Bool) : Bool := decide (old ≠ new) && (asserted || busy)

/-- The write is refused with STATE (R81). -/
def setupForbidden (s : State) (i : SlotId) (new : SlotSetup) : Bool :=
  let old := s.setup i
  let l := (s.slot i).lines
  let busy := seqBusy (s.slot i).seq.state
  outForbidden old.pwrOut new.pwrOut (pwrAsserted l) busy ||
    outForbidden old.rstOut new.rstOut (rstAsserted l) busy ||
    (decide (old.feed.high ≠ new.feed.high) && (l.feed || busy)) ||
    (decide (old.feed.enable ≠ new.feed.enable) && busy)

/-- The write changes a field of the Silence Timer (R77). -/
def silenceChanged (old new : SlotSetup) : Bool :=
  decide (old.silenceEnable ≠ new.silenceEnable) || decide (old.silenceLimit ≠ new.silenceLimit) ||
    decide (old.silenceUnit ≠ new.silenceUnit) || decide (old.silenceAction ≠ new.silenceAction)

/-- The write changes the PG setup (R84). -/
def pgChanged (old new : SlotSetup) : Bool :=
  decide (old.pgHigh ≠ new.pgHigh) || decide (old.pgFilter ≠ new.pgFilter)

/-- A taken SLOT_SETUP write and its effects (R62, R77, R81, R84). -/
def takeSlotSetup (i : SlotId) (new : SlotSetup) (s : State) : State :=
  let old := s.setup i
  let s := modTables (fun t => { t with slotSetup := upd t.slotSetup i fun _ => new }) s
  let s := if !old.matchEnable && new.matchEnable then setMatchState i new.startState s else s
  let s := if silenceChanged old new then restartSilence i s else s
  let s := if pgChanged old new then restartFilter i s else s
  if old.feed.enable && !new.feed.enable then dropFeed observeBoot meetLow i s else s

/-- TABLE_WRITE of SLOT_SETUP (R19, R76, R81). -/
def execTableWriteSlotSetup (h : Header) (w : WriteHead) (x : SlotSetup) (s : State) : Result :=
  .next (request h .tableWrite (fun e s =>
    writeRule h 0 8 w true (fun i s =>
      match judgeSlotSetup w.codesKnown x with
      | none => refuse .range s
      | some x =>
        if setupForbidden s i x then refuse .state s else written (.slotSetup x) (takeSlotSetup i x s)) e s) s)

/-! ## CONSOLE_SETUP and PROFILE (R20, R42, R97) -/

/-- TABLE_WRITE of CONSOLE_SETUP (R20, R42). -/
def execTableWriteConsoleSetup (h : Header) (w : WriteHead) (x : ConsoleSetup) (s : State) : Result :=
  .next (request h .tableWrite (fun e s =>
    writeRule h 0 8 w true (fun i s =>
      storeRule (judgeConsole w.codesKnown x) .consoleSetup
        (fun x t => { t with consoleSetup := upd t.consoleSetup i fun _ => x }) s) e s) s)

/-- A busy sequence uses the profile (R97). -/
def profileInUse (s : State) (n : Nat) : Bool :=
  (List.finRange 8).any fun i =>
    seqBusy (s.slot i).seq.state &&
      match (s.slot i).seq.record with
      | some r => decide (r.profile = n)
      | none => false

/-- TABLE_WRITE of PROFILE (R97). -/
def execTableWriteProfile (h : Header) (w : WriteHead) (x : Profile) (s : State) : Result :=
  .next (request h .tableWrite (fun e s =>
    writeRule h 0 8 w true (fun k s =>
      if w.codesKnown && profileInUse s k then refuse .state s
      else
        storeRule (judgeProfile w.codesKnown x) .profile
          (fun x t => { t with profiles := upd t.profiles k fun _ => x }) s) e s) s)

/-! ## The four tables of the Pattern Matcher (R59, R60) -/

/-- TABLE_WRITE of CLASS_MAP (R59). -/
def execTableWriteClassMap (h : Header) (w : WriteHead) (cls : Nat) (s : State) : Result :=
  .next (request h .tableWrite (fun e s =>
    writeRule h 0 256 w true (fun k s =>
      storeRule (judgeClass w.codesKnown cls) .classMap
        (fun x t => { t with classMap := sparseSet factoryIndex t.classMap k x }) s) e s) s)

/-- TABLE_WRITE of AUTOMATON (R59). -/
def execTableWriteAutomaton (h : Header) (w : WriteHead) (next : List Nat) (s : State) : Result :=
  .next (request h .tableWrite (fun e s =>
    writeRule h 0 512 w (decide (next.length = 32)) (fun k s =>
      storeRule (judgeRow w.codesKnown next) .automaton
        (fun x t => { t with automaton := sparseSet factoryRow t.automaton k x }) s) e s) s)

/-- TABLE_WRITE of STATE_ACTION (R60). -/
def execTableWriteStateAction (h : Header) (w : WriteHead) (action : Nat) (s : State) : Result :=
  .next (request h .tableWrite (fun e s =>
    writeRule h 0 512 w true (fun k s =>
      storeRule (judgeStateAction w.codesKnown action) .stateAction
        (fun x t => { t with stateAction := sparseSet factoryIndex t.stateAction k x }) s) e s) s)

/-- TABLE_WRITE of WATCH_ACTION (R60). -/
def execTableWriteWatchAction (h : Header) (w : WriteHead) (x : WatchAction) (s : State) : Result :=
  .next (request h .tableWrite (fun e s =>
    writeRule h 1 32 w true (fun k s =>
      storeRule (judgeWatch w.codesKnown x) .watchAction
        (fun x t => { t with watch := sparseSet factoryWatch t.watch k x }) s) e s) s)

/-! ## UNIT_SETUP, IMAGE_MAP and BRIDGE_SETUP (R145, R146, R195) -/

/-- TABLE_WRITE of UNIT_SETUP (R145). -/
def execTableWriteUnitSetup (h : Header) (w : WriteHead) (x : UnitSetup) (s : State) : Result :=
  .next (request h .tableWrite (fun e s =>
    writeRule h 0 4 w true (fun u s =>
      match judgeUnit w.codesKnown x with
      | none => refuse .range s
      | some x =>
        if (s.unit u).state ≠ .detached then refuse .state s
        else written (.unitSetup x) (modTables (fun t => { t with unitSetup := upd t.unitSetup u fun _ => x }) s)) e s) s)

/-- The unit of an IMAGE_MAP index (R195). -/
def mapUnit (k : Fin 64) : UnitId := ⟨k.val / 16, by omega⟩

/-- The region overlaps another non-empty entry of the same unit (R146 test 5). -/
def mapOverlap (t : Vector (Option Region) 64) (k : Fin 64) (r : Region) : Bool :=
  (List.finRange 64).any fun j =>
    decide (j ≠ k) && decide (mapUnit j = mapUnit k) &&
      match t[j] with
      | some q => overlaps q r
      | none => false

/-- A region of a kind with an image base carries one: the length of the entry fields (R195 test 4). -/
def regionLength (x : Option Region) : Bool :=
  match x with
  | some r => !hasBase r.kind || r.base.isSome
  | none => true

def storeMap (k : Fin 64) (x : Option Region) (s : State) : Answer :=
  written (.imageMap x) (modTables (fun t => { t with maps := upd t.maps k fun _ => x }) s)

/-- TABLE_WRITE of IMAGE_MAP (R146). -/
def execTableWriteImageMap (h : Header) (w : WriteHead) (x : Option Region) (s : State) : Result :=
  .next (request h .tableWrite (fun e s =>
    writeRule h 0 64 w (!w.codesKnown || regionLength x) (fun k s =>
      if (s.unit (mapUnit k)).state ≠ .detached then refuse .state s
      else
        match x with
        | none => if w.codesKnown then storeMap k none s else refuse .range s
        | some r =>
          match judgeRegion w.codesKnown r with
          | none => refuse .range s
          | some r => if mapOverlap s.tables.maps k r then refuse .state s else storeMap k (some r) s) e s) s)

/-- TABLE_WRITE of BRIDGE_SETUP (R195). -/
def execTableWriteBridgeSetup (h : Header) (w : WriteHead) (x : BridgeSetup) (s : State) : Result :=
  .next (request h .tableWrite (fun e s =>
    writeRule h 0 1 w true (fun _ s =>
      storeRule (judgeBridge w.codesKnown x) .bridgeSetup (fun x t => { t with bridge := x }) s) e s) s)

/-- A TABLE_WRITE of an unknown table (R195 test 2). -/
def writeUnknownTable (h : Header) (s : State) : State :=
  request h .tableWrite (fun e s =>
    if !(s.station e).rights.admin then refuse .denied s else refuse .unsupported s) s

/-! ## TABLE_READ (R195) -/

/-- The entry of a table at an index, or none when the index is outside the table's range (R195). -/
def entryAt (s : State) (t : TableName) (n : Nat) : Option TableEntry :=
  match t with
  | .station => (finOf 32 n).map fun k => .station (s.station k) s.lastPorts[k]
  | .slotSetup => (finOf 8 n).map fun k => .slotSetup (s.setup k)
  | .consoleSetup => (finOf 8 n).map fun k => .consoleSetup (s.console k)
  | .profile => (finOf 8 n).map fun k => .profile s.tables.profiles[k]
  | .classMap => if n < 256 then some (.classMap (sparseGet factoryIndex s.tables.classMap n)) else none
  | .automaton => if n < 512 then some (.automaton (sparseGet factoryRow s.tables.automaton n)) else none
  | .stateAction => if n < 512 then some (.stateAction (sparseGet factoryIndex s.tables.stateAction n)) else none
  | .watchAction =>
    if 1 ≤ n ∧ n < 32 then some (.watchAction (sparseGet factoryWatch s.tables.watch n)) else none
  | .unitSetup => (finOf 4 n).map fun u => .unitSetup (s.unitSetup u)
  | .imageMap => (finOf 64 n).map fun k => .imageMap s.tables.maps[k]
  | .bridgeSetup => if n = 0 then some (.bridgeSetup s.tables.bridge) else none

/-- TABLE_READ (R195). -/
def execTableRead (h : Header) (t : Option TableName) (n : Nat) (s : State) : Result :=
  .next (request h .tableRead (fun e s =>
    if !(s.station e).rights.admin then refuse .denied s
    else
      match t with
      | none => refuse .unsupported s
      | some t =>
        match entryAt s t n with
        | none => refuse .range s
        | some x => if !h.bodyExact then refuse .malformed s else ((.ok, .table x), s)) s)

end Sys2Proof.Machine
end

