-- ==== Sys2Proof/Machine/Wire.lean ====
section
/-! DEFINITION. The bytes of a bridge frame: the offsets of the header, and the byte form of the frames that
the bridge originates (R191): their fields in the order of the catalogue and of the rules that name them,
each most significant byte first. That the fields of reply data, notices, table entries and counters stand in
the order in which their rules list them is DEDUCED (assumption 45). The numbers of the kinds and of the other codes, the widths that the manual
does not give, and the form of an absent value are opaque constants (assumption 43). -/

namespace Sys2Proof
namespace Machine

/-! ## Fields -/

/-- The kinds of notice, in the order of R194's table. -/
inductive NoticeKind where
  | powerChanged | holderChanged | patternMatch | consoleSilent | recoveryStarted | recoveryDeclined | localPress
  | sequenceDone | sequenceHalted | mediaState | fetchFailed | saveDone | bridgeStarted
  deriving DecidableEq, Repr

/-- The reasons that a POWER outcome of STATE names (R102). -/
inductive StateReason where
  | powerControl | line | quoteRequired | notOn
  deriving DecidableEq, Repr

/-- The reasons of R74. -/
inductive DeclineName where
  | disarmed | busy | exhausted | stale | state
  deriving DecidableEq, Repr

/-- A value out of a list of names, which a field carries as a number. `busy` is a sequencer state, or LOCAL
(R74, R102). -/
inductive Code where
  | status (x : Status)
  | notice (x : NoticeKind)
  | power (x : Power)
  | cause (x : Cause)
  | causeSet (x : CauseSet)
  | pendingCause (x : PendingCause)
  | sequencer (x : SeqState)
  | haltReason (x : HaltReason)
  | outcome (x : SequenceOutcome)
  | action (x : Action)
  | recoveryAction (x : RecoveryAction)
  | source (x : RecoverySource)
  | origin (x : Origin)
  | step (x : Step)
  | gateOutcome (x : GateOutcome)
  | marker (x : MarkerKind)
  | button (x : Button)
  | logLine (x : LogLine)
  | classifier (x : ClassName)
  | pressClass (x : PressClass)
  | press (x : PressEvent)
  | block (x : BlockReason)
  | out (x : OutReport)
  | holder (x : HolderReason)
  | stateReason (x : StateReason)
  | decline (x : DeclineName)
  | busy (x : Option SeqState)
  | unit (x : UnitState)
  | prime (x : PrimeState)
  | eject (x : EjectReason)
  | media (x : MediaEvent)
  | request (x : RequestKind)
  | noAnswer
  | absent
  | charge (x : ChargeKind)
  | port (x : Port)
  | rights (x : Rights)
  | panel (x : PanelMode)
  | parity (x : Parity)
  | gate (x : MediaGate)
  | effects (mark notify recover : Bool)
  | width (x : CheckWidth)
  | region (x : RegionKind)
  deriving DecidableEq, Repr

/-- The fields whose widths the manual does not give. -/
inductive FieldName where
  | absentCode | action | activeLevel | autoPress | baud | blockCount | blockReason | boot | boots
  | boundSlot | busyWith | byteClass | byteCount | capacity | cause | causeSet | charge | chargeCount | chargeKind
  | checkWidth | classState | dataBits | duration | edge | effects | ejectReason | escalate | escalated
  | event | failedBlocks | feedAtPowerUp | feedDropped | feedRaised | fetchDeadline | firstBlock
  | flushOnBoot | freeSpace | gap | gateOutcome | gateWait | haltReason | holdOff | holdUp | holdWidth
  | holder | idleDue | idleLimit | imageBase | imageBlock | lastPort | lastStart | line
  | linkState | load | logCount | markerKind | markerPresent | matchEnable | matcherState | mediaGate
  | mediumChanged | noticeKind | noticeSlot | offDwell | onDeadline | origin | outState | outcome
  | outputEnable | overlayCount | overlayLimit | ownShare | panelMode | parity | passed | pendingCause
  | pgActive | pgArmed | pgFilter | poolFree | power | powerControl | presentBoots | pressClass
  | pressTime | pressWidth | pressed | primeState | profile | queueCount | reAsk | reAskLimit | reason
  | recoveryArmed | recoveryLimit | reflected | regionKind | regionPresent | requestInFlight
  | resetOnBoot | resetWidth | restart | restartPending | rights | saveRunning | sequencerState
  | settle | silenceEnable | silenceLimit | silenceUnit | slot | slotCount | softGrace | source
  | spacing | startState | stationAddress | stationEntry | status | step | stopBits | storeValid
  | tapWidth | threshold | unit | unitCapacity | unitCount | unitState | valid | version | watchAction
  | windowCloses | windowCount | windowHours | windowOpen | windowStart | writeProtect
  deriving DecidableEq, Repr

end Machine

/-! ## What the manual leaves open -/

/-- The number of a message kind. -/
opaque Config.kindCode : MsgKind → Byte

/-- The number of a name. -/
opaque Config.code : Machine.Code → Nat

/-- The number of one of the two values of a field, as yes or no. -/
opaque Config.flagCode : Machine.FieldName → Bool → Nat

/-- The number of the value of a field that may be absent. -/
opaque Config.optionalCode : Machine.FieldName → Option Nat → Nat

/-- The width of a field in bytes. -/
opaque Config.width : Machine.FieldName → Fin 9

namespace Machine

/-- A field of a body: a word of a width that the manual gives, a number or a value that may be absent of a
width that it does not give, or bytes. -/
inductive Field where
  | word (bytes : Fin 9) (value : Nat)
  | number (name : FieldName) (value : Nat)
  | optional (name : FieldName) (value : Option Nat)
  | raw (bytes : List Byte)
  deriving DecidableEq, Repr

/-- Groups of fields one after the other. -/
def groups (gs : List (List Field)) : List Field := gs.flatten

def Field.coded (name : FieldName) (c : Code) : Field := .number name (Config.code c)

def Field.flag (name : FieldName) (b : Bool) : Field := .number name (Config.flagCode name b)

/-- A word of `n` bytes, most significant byte first (R191). -/
def wordBytes (n : Nat) (w : BitVec (8 * n)) : List Byte :=
  (List.range n).map fun k => w.extractLsb' (8 * (n - 1 - k)) 8

/-- A number in `n` bytes. -/
def numberBytes (n : Fin 9) (v : Nat) : List Byte := wordBytes n (BitVec.ofNat (8 * n) v)

def Field.bytes : Field → List Byte
  | .word n v => numberBytes n v
  | .number name v => numberBytes (Config.width name) v
  | .optional name v => numberBytes (Config.width name) (Config.optionalCode name v)
  | .raw bs => bs

/-- The number of a kind: an unknown kind is the number itself. -/
def kindCode : MsgKind → Byte
  | .foreign (.code k) => k
  | k => Config.kindCode k

/-! ## Offsets of the header, from the first byte of the destination (R191) -/

def versionAt : Nat := 14
def kindAt : Nat := 15
def targetAt : Nat := 16
def tagAt : Nat := 17
def lengthAt : Nat := 19

/-- The byte at an offset of a frame whose bytes from offset 14 on are `bs`. -/
def byteAt (bs : List Byte) (offset : Nat) : Byte := bs.getD (offset - 14) 0

/-- The 16-bit field at an offset, its most significant byte first. -/
def pairAt (bs : List Byte) (offset : Nat) : BitVec 16 := byteAt bs offset ++ byteAt bs (offset + 1)

/-! ## Markers, sequencer states and outcomes as fields (R16, R31) -/

/-- A sequencer state, and for HALTED its reason. -/
def seqFields (st : SeqState) : List Field :=
  [.coded .sequencerState (.sequencer st), .optional .haltReason (match st with
    | .halted r => some (Config.code (.haltReason r))
    | _ => none)]

def outcomeFields (o : SequenceOutcome) : List Field :=
  [.coded .outcome (.outcome o), .optional .haltReason (match o with
    | .halted r => some (Config.code (.haltReason r))
    | _ => none)]

def detailFields : MarkerDetail → List Field
  | .boot count cause => [.word 2 count.toNat, .coded .cause (.cause cause)]
  | .sequence action o => .coded .action (.action action) :: outcomeFields o
  | .match_ w => [.number .watchAction w]
  | .silence w => [.number .watchAction w]
  | .breakIn => []
  | .holder e => [.optional .holder (e.map (·.val))]
  | .localPress b c => [.coded .line (.button b), .coded .pressClass (.pressClass c)]

def markerFields (m : Marker) : List Field :=
  groups [
    [.word 2 m.number.toNat, .coded .markerKind (.marker (markerKind m.detail)), .word 4 m.position.toNat,
      .word 4 m.time.toNat],
    detailFields m.detail]

/-! ## The entries of the tables, in the order of the rules that own them (R195) -/

def outFields (o : OutSetup) : List Field := [.flag .activeLevel o.high, .flag .outputEnable o.enable]

/-- R183. -/
def stationFields (e : StationEntry) : List Field :=
  [.flag .valid e.valid,
   .optional .stationAddress (match e.address with
     | .any => none
     | .mac a => some a.toNat),
   .coded .rights (.rights e.rights),
   .word 1 e.mask.toNat]

/-- R19. -/
def slotSetupFields (e : SlotSetup) : List Field :=
  groups [
  [.number .profile e.profile,
   .flag .powerControl e.powerControl,
   .flag .recoveryArmed e.armed,
   .number .recoveryLimit e.recoveryLimit,
   .number .windowHours e.windowHours,
   .flag .matchEnable e.matchEnable,
   .number .startState e.startState,
   .flag .resetOnBoot e.resetOnBoot,
   .flag .silenceEnable e.silenceEnable,
   .number .silenceLimit e.silenceLimit,
   .number .silenceUnit e.silenceUnit,
   .number .watchAction e.silenceAction,
   .coded .panelMode (.panel e.panel)],
  outFields e.pwrOut, outFields e.rstOut, outFields e.feed,
  [.flag .feedAtPowerUp e.feedAtPowerUp,
   .flag .activeLevel e.pgHigh,
   .number .pgFilter e.pgFilter]]

/-- R20, R42. -/
def consoleSetupFields (e : ConsoleSetup) : List Field :=
  [.number .baud e.baud,
   .number .dataBits e.dataBits,
   .coded .parity (.parity e.parity),
   .number .stopBits e.stopBits,
   .number .idleLimit e.idleLimit,
   .flag .flushOnBoot e.flushOnBoot]

/-- R97. -/
def profileFields (e : Profile) : List Field :=
  [.number .tapWidth e.tapWidth,
   .number .holdWidth e.holdWidth,
   .number .resetWidth e.resetWidth,
   .number .softGrace e.softGrace,
   .flag .escalate e.escalate,
   .number .offDwell e.offDwell,
   .number .onDeadline e.onDeadline,
   .coded .mediaGate (.gate e.gate),
   .number .gateWait e.gateWait,
   .flag .autoPress e.autoPress,
   .number .charge e.feedCharge,
   .number .charge e.startCharge,
   .number .settle e.feedSettle,
   .number .settle e.startSettle,
   .number .holdUp e.holdUp]

/-- R60. -/
def watchFields (e : WatchAction) : List Field :=
  [.coded .effects (.effects e.mark e.notify e.recover),
   .coded .action (.recoveryAction e.action),
   .number .matcherState e.returnState,
   .number .holdOff e.holdOff]

/-- R145. -/
def unitSetupFields (e : UnitSetup) : List Field :=
  [.flag .writeProtect e.writeProtect,
   .coded .checkWidth (.width e.width),
   .word 4 e.poly.toNat,
   .word 4 e.init.toNat,
   .flag .reflected e.reflected,
   .word 4 e.finalXor.toNat,
   .number .fetchDeadline e.fetchDeadline,
   .number .reAskLimit e.reAskLimit,
   .number .overlayLimit e.overlayLimit,
   .number .presentBoots e.presentBoots]

/-- R146. DESIGN CHOICE (assumption 50): a flag before the fields says whether the region is there. -/
def regionFields : Option Region → List Field
  | none => [.flag .regionPresent false]
  | some r => [.flag .regionPresent true,
               .number .firstBlock r.first,
               .number .blockCount r.count,
               .coded .regionKind (.region r.kind),
               .optional .imageBase r.base]

/-- R124, R85, R189 and R178, in the order in which R195 names the fields. -/
def bridgeSetupFields (e : BridgeSetup) : List Field :=
  [.number .capacity e.capacity,
   .number .spacing e.spacing,
   .number .threshold e.limits.glitch,
   .number .threshold e.limits.hold,
   .number .threshold e.limits.stuck,
   .number .ownShare e.ownShare,
   .word 2 e.frameType.toNat,
   .word 6 e.group.toNat,
   .word 6 e.address.toNat]

def entryFields : TableEntry → List Field
  | .station e last => groups [stationFields e, [.optional .lastPort (last.map fun p => Config.code (.port p))]]
  | .slotSetup e => slotSetupFields e
  | .consoleSetup e => consoleSetupFields e
  | .profile e => profileFields e
  | .classMap cls => [.number .byteClass cls]
  | .automaton next => next.map (.number .matcherState)
  | .stateAction a => [.number .watchAction a]
  | .watchAction e => watchFields e
  | .unitSetup e => unitSetupFields e
  | .imageMap e => regionFields e
  | .bridgeSetup e => bridgeSetupFields e

/-! ## Counters, in the order of the tables that list them (R201) -/

/-- Counters of 32 bits (R4). -/
def counterFields (cs : List Counter) : List Field := cs.map fun c => .word 4 c.toNat

/-- R136: an entry of the queue. -/
def waitingFields (w : Waiting) : List Field :=
  [.number .slot w.slot, .coded .chargeKind (.charge w.kind), .number .charge w.charge, .number .settle w.settle]

/-- R136: an entry of the list, with its contribution. -/
def chargeFields (c : Charge × Nat) : List Field :=
  [.number .slot c.1.slot, .coded .chargeKind (.charge c.1.kind), .number .charge c.1.charge,
    .number .settle c.1.settle, .word 4 c.1.start.toNat, .number .load c.2]

/-- R136. DESIGN CHOICE (assumption 50): the entries of the queue and those of the list each stand behind their
number, which R136 does not list. Each number is a field of its own, whose open width may be 0. Unsafe for a claim
about the place of an entry in the reply. -/
def snapshotFields (x : InrushSnapshot) : List Field :=
  groups [
  [.number .capacity x.capacity,
   .number .spacing x.spacing,
   .optional .lastStart (x.last.map (·.toNat)),
   .number .load x.load,
   .number .queueCount x.queue.length],
  x.queue.flatMap waitingFields,
  [.number .chargeCount x.active.length],
  x.active.flatMap chargeFields]

def countersFields : CounterReport → List Field
  | .port c up => groups [
      counterFields [c.received, c.fcsErrors, c.lengthErrors, c.sent, c.linkDowns, c.flushed, c.passDrop,
        c.replySpace, c.noticeDrop],
      [.flag .linkState up]]
  | .frame c => counterFields [c.selfSource, c.unknownStation, c.wrongType]
  | .slot c => counterFields [c.received, c.parityErrors, c.framingErrors, c.breaks, c.overwritten, c.txBytes,
      c.txBreaks, c.flushed, c.matchesFired, c.matchesHeld, c.silences, c.recoveriesStarted, c.recoveriesDeclined,
      c.pgGlitches, c.pwrIn.glitches, c.rstIn.glitches, c.pwrIn.passed, c.rstIn.passed, c.pwrIn.blocked,
      c.rstIn.blocked, c.pwrIn.stuck, c.rstIn.stuck, c.accepted, c.done, c.halted, c.skipped, c.notPresent]
  | .unit c => counterFields [c.readsGood, c.delivered, c.writesGood, c.written, c.mediaErrors, c.protectedRefusals,
      c.spaceRefusals, c.aborts, c.fetches, c.reAsks, c.accepted, c.failed]
  | .fetch c => counterFields [c.malformed, c.foreign, c.stale, c.duplicate, c.checkFail, c.replacements]
  | .inrush c x => groups [
      counterFields [c.joins, c.started, c.oversized, c.skipped, c.withdrawals], snapshotFields x]

/-! ## The data of the replies, in the order of the rules that name them (R193) -/

/-- R196. -/
def discoverFields (r : DiscoverReport) : List Field :=
  [.word 6 r.address.toNat,
   .word 6 r.group.toNat,
   .word 2 r.frameType.toNat,
   .number .version r.version,
   .number .slotCount r.slots,
   .number .unitCount r.units,
   .word 2 r.restartCount.toNat,
   .word 4 r.time.toNat,
   .word 2 r.notice.toNat,
   .flag .storeValid r.storeValid,
   .flag .saveRunning r.saveRunning,
   .flag .restartPending r.restartPending,
   .number .stationEntry r.entry,
   .coded .rights (.rights r.rights),
   .word 1 r.mask.toNat]

/-- R16. -/
def slotFields (r : SlotReport) : List Field :=
  groups [
  [.coded .power (.power r.observed),
   .word 2 r.bootCount.toNat,
   .coded .cause (.cause r.lastCause),
   .coded .causeSet (.causeSet r.causeSet),
   .optional .pendingCause (r.pendingCause.map fun c => Config.code (.pendingCause c)),
   .optional .feedDropped (r.feedDropped.map (·.toNat))],
  seqFields r.seq,
  [.optional .holder (r.holder.map (·.val)),
   .word 4 r.inputCount.toNat,
   .optional .unit (r.boundUnit.map (·.val)),
   .flag .windowOpen r.window.isSome,
   .optional .windowStart (r.window.map (·.1.toNat)),
   .optional .windowCount (r.window.map (·.2))]]

/-- R15, R16: a slot without READ is DENIED and has no record. -/
def slotAnswer : Option SlotReport → List Field
  | none => [.coded .status (.status .denied)]
  | some r => .coded .status (.status .ok) :: slotFields r

/-- R37: the chosen marker of MARKER mode. -/
def readMarkerFields : Option Marker → List Field
  | none => []
  | some m => markerFields m

/-- R37. DESIGN CHOICE (assumption 50): a flag before the chosen marker says whether there is one. -/
def readFields (r : ReadReport) : List Field :=
  groups [
  [.number .slot r.slot,
   .word 4 r.start.toNat,
   .number .byteCount r.data.length,
   .word 4 r.oldest.toNat,
   .word 4 r.next.toNat,
   .flag .gap r.gap,
   .word 4 r.lost.toNat,
   .raw r.data,
   .flag .markerPresent r.marker.isSome],
  readMarkerFields r.marker]

/-- R95: a classifier's state, for BLOCKED its reason, and the press time. -/
def classFields (c : ClassReport) : List Field :=
  [.coded .classState (.classifier c.state),
   .optional .blockReason (c.reason.map fun r => Config.code (.block r)),
   .optional .pressTime (c.pressTime.map (·.toNat))]

/-- R93. -/
def lineEventFields (e : LineEvent) : List Field :=
  [.coded .line (.logLine e.line), .flag .edge e.assert, .word 4 e.time.toNat,
    .optional .pressWidth (e.width.map (·.toNat))]

/-- R95. -/
def linesFields (r : LinesReport) : List Field :=
  groups [
  [.word 4 r.time.toNat, .flag .pressed r.pwrIn, .flag .pressed r.rstIn],
  classFields r.pwrClass, classFields r.rstClass,
  [.flag .pgActive r.pgRaw,
   .flag .pgActive r.pgFiltered,
   .flag .pgArmed r.pgArmed,
   .coded .outState (.out r.pwrOut),
   .coded .outState (.out r.rstOut),
   .flag .feedRaised r.feed,
   .coded .power (.power r.observed),
   .number .logCount r.logCount],
  r.log.flatMap lineEventFields]

/-- R102: the status of a slot's outcome and its data. -/
def powerFields : PowerOutcome → List Field
  | .ok st => .coded .status (.status .ok) :: seqFields st
  | .denied => [.coded .status (.status .denied)]
  | .statePowerControl => [.coded .status (.status .state), .coded .reason (.stateReason .powerControl)]
  | .stateLine => [.coded .status (.status .state), .coded .reason (.stateReason .line)]
  | .busySequencer st => [.coded .status (.status .busy), .coded .busyWith (.busy (some st))]
  | .busyLocal => [.coded .status (.status .busy), .coded .busyWith (.busy none)]
  | .stateQuoteRequired => [.coded .status (.status .state), .coded .reason (.stateReason .quoteRequired)]
  | .stale count => [.coded .status (.status .stale), .word 2 count.toNat]
  | .stateNotOn => [.coded .status (.status .state), .coded .reason (.stateReason .notOn)]

/-- R157. -/
def mediaFields (r : MediaReport) : List Field :=
  [.coded .unitState (.unit r.state),
   .optional .ejectReason (r.reason.map fun x => Config.code (.eject x)),
   .optional .boundSlot (r.slot.map (·.val)),
   .optional .stationEntry (r.station.map (·.1.val)),
   .optional .stationAddress (r.station.map (·.2.toNat)),
   .number .boots r.bootsLeft,
   .number .presentBoots r.presentBoots,
   .coded .primeState (.prime r.prime),
   .flag .mediumChanged r.mediumChanged,
   .number .unitCapacity r.capacity,
   .optional .requestInFlight (r.port.map fun k => Config.code (.request k)),
   .number .overlayCount r.held,
   .number .overlayLimit r.limit,
   .number .poolFree r.free]

/-- The data of a reply (R193). -/
def replyFields : ReplyData → List Field
  | .none => []
  | .discover r => discoverFields r
  | .slotQuery time slots => .word 4 time.toNat :: slots.flatMap fun x => slotAnswer x.2
  | .slotClear slots => slots.map fun x => .coded .status (.status x.2)
  | .read r => readFields r
  | .readRange oldest next => [.word 4 oldest.toNat, .word 4 next.toNat]
  | .historyClear next => [.word 4 next.toNat]
  | .hold holder count due =>
    [.optional .holder (holder.map (·.val)), .word 4 count.toNat, .optional .idleDue (due.map (·.toNat))]
  | .write accepted count free => [.number .byteCount accepted, .word 4 count.toNat, .number .freeSpace free]
  | .writeHeld accepted count free holder =>
    [.number .byteCount accepted, .word 4 count.toNat, .number .freeSpace free,
      .optional .holder (holder.map (·.val))]
  | .brk duration count free => [.number .duration duration, .word 4 count.toNat, .number .freeSpace free]
  | .brkHeld holder => [.optional .holder (holder.map (·.val))]
  | .brkStale count free => [.word 4 count.toNat, .number .freeSpace free]
  | .lines r => linesFields r
  | .power slots => slots.flatMap fun x => powerFields x.2
  | .bind u st slot boots capacity prime =>
    [.number .unit u, .coded .unitState (.unit st), .number .boundSlot slot, .number .boots boots,
      .number .unitCapacity capacity, .coded .primeState (.prime prime)]
  | .bindRefused st bound => [.coded .unitState (.unit st), .optional .unit (bound.map (·.val))]
  | .unbindRefused st => [.coded .unitState (.unit st)]
  | .media r => mediaFields r
  | .table e => entryFields e
  | .restartAccepted => []
  | .restartStale count => [.word 2 count.toNat]
  | .counters r => countersFields r

/-! ## The fields of the notices, in the order of the rules that name them (R194) -/

def NoticeBody.kind : NoticeBody → NoticeKind
  | .powerChanged _ _ _ _ _ => .powerChanged
  | .holderChanged _ _ _ _ => .holderChanged
  | .patternMatch _ _ _ _ => .patternMatch
  | .consoleSilent _ _ _ _ => .consoleSilent
  | .recoveryStarted _ _ _ _ _ => .recoveryStarted
  | .recoveryDeclined _ _ _ _ => .recoveryDeclined
  | .localPress _ _ _ _ _ _ => .localPress
  | .sequenceDone _ => .sequenceDone
  | .sequenceHalted _ _ => .sequenceHalted
  | .mediaState _ _ _ _ _ => .mediaState
  | .fetchFailed _ _ _ _ _ _ _ _ => .fetchFailed
  | .saveDone _ => .saveDone
  | .bridgeStarted _ _ _ => .bridgeStarted

/-- R74: the reason of a declined recovery and its data. -/
def declineFields : DeclineReason → List Field
  | .disarmed => [.coded .reason (.decline .disarmed)]
  | .busySequencer st => [.coded .reason (.decline .busy), .coded .busyWith (.busy (some st))]
  | .busyLocal => [.coded .reason (.decline .busy), .coded .busyWith (.busy none)]
  | .exhausted count limit closes => [.coded .reason (.decline .exhausted), .number .windowCount count,
      .number .recoveryLimit limit, .optional .windowCloses (closes.map (·.toNat))]
  | .stale quote count => [.coded .reason (.decline .stale), .word 2 quote.toNat, .word 2 count.toNat]
  | .state => [.coded .reason (.decline .state)]

/-- R120. -/
def endingFields (o : SequenceOutcome) (e : SequenceEnd) : List Field :=
  groups [
  [.coded .action (.action e.action), .coded .origin (.origin e.origin), .number .profile e.profile],
  outcomeFields o,
  [.optional .step (e.step.map fun x => Config.code (.step x)),
   .flag .escalated e.escalated,
   .optional .gateOutcome (e.gate.map fun x => Config.code (.gateOutcome x)),
   .word 4 e.accepted.toNat,
   .word 2 e.bootCount.toNat,
   .coded .power (.power e.observed)]]

/-- The slot as a field of a notice, where its rule names it. The frame's target is the slot too. -/
def slotField (slot : Option SlotId) : Field := .optional .noticeSlot (slot.map (·.val))

/-- The fields of a notice, each in the order of its rule (R194). -/
def noticeFields (slot : Option SlotId) : NoticeBody → List Field
  | .powerChanged before after boot count cause =>
    [slotField slot, .coded .power (.power before), .coded .power (.power after), .flag .boot boot,
      .word 2 count.toNat, .coded .cause (.cause cause)]
  | .holderChanged before after reason count =>
    [.optional .holder (before.map (·.val)), .optional .holder (after.map (·.val)),
      .coded .reason (.holder reason), .word 4 count.toNat]
  | .patternMatch w position count ret =>
    [slotField slot, .number .watchAction w, .word 4 position.toNat, .word 2 count.toNat, .number .matcherState ret]
  | .consoleSilent w limit unit position =>
    [slotField slot, .number .watchAction w, .number .silenceLimit limit, .number .silenceUnit unit,
      .word 4 position.toNat]
  | .recoveryStarted action source w count closes =>
    [.coded .action (.recoveryAction action), .coded .source (.source source), .number .watchAction w,
      .number .windowCount count, .word 4 closes.toNat]
  | .recoveryDeclined action source w reason =>
    groups [
      [.coded .action (.recoveryAction action), .coded .source (.source source), .number .watchAction w],
      declineFields reason]
  | .localPress button event passed reason width time =>
    [slotField slot, .coded .line (.button button), .coded .event (.press event), .flag .passed passed,
      .optional .blockReason (reason.map fun r => Config.code (.block r)),
      .optional .pressWidth (width.map (·.toNat)), .word 4 time.toNat]
  | .sequenceDone e => slotField slot :: endingFields .done e
  | .sequenceHalted reason e => slotField slot :: endingFields (.halted reason) e
  | .mediaState u st event reason held =>
    [.number .unit u, slotField slot, .coded .unitState (.unit st), .coded .event (.media event),
      .optional .ejectReason (reason.map fun r => Config.code (.eject r)), .number .overlayCount held]
  | .fetchFailed u id first count failed lowest reason reAsk =>
    groups [
      [.number .unit u, slotField slot, .word 2 id.toNat, .number .imageBlock first, .number .blockCount count,
        .number .failedBlocks failed, .number .imageBlock lowest],
      match reason with
      | .noAnswer => [.coded .reason .noAnswer]
      | .absent code => [.coded .reason .absent, .number .absentCode code.toNat],
      [.number .reAsk reAsk]]
  | .saveDone taken => [.word 4 taken.toNat]
  | .bridgeStarted count restart valid => [.word 2 count.toNat, .flag .restart restart, .flag .storeValid valid]

/-! ## Bodies and frames (R191) -/

/-- The fields of a body, in the order of the catalogue of kinds (R191). -/
def bodyFields : OwnBody → List Field
  | .reply kind status data =>
    groups [[.word 1 (kindCode kind).toNat, .coded .status (.status status)], replyFields data]
  | .notice number time slot body =>
    groups [
      [.coded .noticeKind (.notice body.kind), .word 2 number.toNat, .word 4 time.toNat],
      noticeFields slot body]
  | .blockFetch _ id first count reAsk =>
    [.word 2 id.toNat, .number .imageBlock first, .number .blockCount count, .number .reAsk reAsk]

/-- The bytes of a body: its fields one after the other. -/
def bodyBytes (b : OwnBody) : List Byte := (bodyFields b).flatMap Field.bytes

/-- The kind of a frame that the bridge originates. -/
def ownKind : OwnBody → MsgKind
  | .reply _ _ _ => .foreign .reply
  | .notice _ _ _ _ => .foreign .notice
  | .blockFetch _ _ _ _ _ => .foreign .blockFetch

/-- The body length of a frame (R191). -/
def OwnFrame.bodyLength (f : OwnFrame) : BitVec 16 := BitVec.ofNat 16 (bodyBytes f.body).length

/-- The bytes of a frame from its destination to the end of its body (R191). Padding and FCS follow. -/
def OwnFrame.bytes (f : OwnFrame) : List Byte :=
  wordBytes 6 f.dst ++ wordBytes 6 f.src ++ wordBytes 2 f.etype ++
    [f.version, kindCode (ownKind f.body), f.target] ++ wordBytes 2 f.tag ++ wordBytes 2 f.bodyLength ++
    bodyBytes f.body

end Machine
end Sys2Proof
end

