-- ==== Sys2Proof/Machine/Frames.lean ====
section
/-! DEFINITION. The ports, the Frame Classifier, the hand-over of a consumed frame to the rule of its
kind, and the Egress Arbiter (chapter 10). -/

namespace Sys2Proof.Machine

open Sys2Proof

/-! ## From a frame to its kind's rule (R179, R191, R192) -/

/-- The state a command leaves; a command that answered no next state leaves `s`. -/
def stateOf (r : Result) (s : State) : State :=
  match r with
  | .next t => t
  | .fault _ => s
  | .refused _ => s

/-- A CONSOLE_READ by its mode (R33). -/
def handleRead (h : Header) (max : BitVec 16) (s : State) : ReadMode → State
  | .absolute p => stateOf (execConsoleReadAbsolute h p max s) s
  | .cursor => stateOf (execConsoleReadCursor h max s) s
  | .marker sel offset => stateOf (execConsoleReadMarker h sel offset max s) s
  | .unknown => readUnknownMode h s

/-- A CONSOLE_HOLD by its form (R47). -/
def handleHold (h : Header) (s : State) : HoldForm → State
  | .take => stateOf (execConsoleHoldTake h s) s
  | .force => stateOf (execConsoleHoldForce h s) s
  | .release => stateOf (execConsoleHoldRelease h s) s
  | .renew => stateOf (execConsoleHoldRenew h s) s
  | .unknown => holdUnknownForm h s

/-- A POWER by its action (R101). -/
def handlePower (h : Header) (profile : Option Nat) (quotes : List Quote) (s : State) : PowerAction → State
  | .act a => powerRequest a h profile quotes s
  | .abort => stateOf (execPowerAbort h profile quotes s) s
  | .unknown => powerUnknown h s

/-- A TABLE_WRITE by its table (R195). -/
def handleWrite (h : Header) (w : WriteHead) (s : State) : TableWrite → State
  | .station e => stateOf (execTableWriteStation h w e s) s
  | .slotSetup e => stateOf (execTableWriteSlotSetup h w e s) s
  | .consoleSetup e => stateOf (execTableWriteConsoleSetup h w e s) s
  | .profile e => stateOf (execTableWriteProfile h w e s) s
  | .classMap cls => stateOf (execTableWriteClassMap h w cls s) s
  | .automaton next => stateOf (execTableWriteAutomaton h w next s) s
  | .stateAction a => stateOf (execTableWriteStateAction h w a s) s
  | .watchAction e => stateOf (execTableWriteWatchAction h w e s) s
  | .unitSetup e => stateOf (execTableWriteUnitSetup h w e s) s
  | .imageMap e => stateOf (execTableWriteImageMap h w e s) s
  | .bridgeSetup e => stateOf (execTableWriteBridgeSetup h w e s) s
  | .unknownTable => writeUnknownTable h s

/-- A BRIDGE_CONTROL by its form (R197). -/
def handleControl (h : Header) (s : State) : ControlForm → State
  | .save => stateOf (execBridgeControlSave h s) s
  | .restart quote => stateOf (execBridgeControlRestart h quote s) s
  | .counters g clear => stateOf (execBridgeControlCounters h g clear s) s
  | .unknown => controlUnknownForm h s

/-- A message handed to the Message Handler (R192). -/
def handleMessage (h : Header) (s : State) : Message → State
  | .discover => stateOf (execDiscover h .bridge s) s
  | .slotQuery => stateOf (execSlotQuery h s) s
  | .slotClear => stateOf (execSlotClear h s) s
  | .consoleRead mode max => handleRead h max s mode
  | .historyClear => stateOf (execHistoryClear h s) s
  | .consoleHold form => handleHold h s form
  | .consoleWrite quote count bytes => stateOf (execConsoleWrite h quote count bytes s) s
  | .consoleBreak quote duration => stateOf (execConsoleBreak h quote duration s) s
  | .linesQuery => stateOf (execLinesQuery h s) s
  | .power a profile quotes => handlePower h profile quotes s a
  | .mediaBind slot => stateOf (execMediaBind h slot s) s
  | .mediaUnbind => stateOf (execMediaUnbind h s) s
  | .mediaQuery => stateOf (execMediaQuery h s) s
  | .blockData id block check data => stateOf (execBlockData h id block check data s) s
  | .blockAbsent id first count reason => stateOf (execBlockAbsent h id first count reason s) s
  | .tableWrite w e => handleWrite h w s e
  | .tableRead t n => stateOf (execTableRead h t n s) s
  | .bridgeControl form => handleControl h s form
  | .foreign k => stateOf (execMessageUnknownKind h k s) s

/-- The body holds exactly the fields its kind needs: nothing, where the kind has none. No kind has a body
of more than 1,482 bytes (R191). -/
def exactBody (m : Message) (bodyLength : BitVec 16) (fieldsExact : Bool) : Bool :=
  if m.hasNoFields then decide (bodyLength = 0) else fieldsExact && decide (bodyLength.toNat ≤ bodyLimit)

/-- The header of a consumed frame (R191); bytes that are no bridge message are read at the header's
offsets, and their kind is unknown. -/
def headerOf (p : Port) (f : Frame) : Header :=
  match f.payload with
  | .bridge version target tag bodyLength fieldsExact m =>
    { port := p, src := f.src, version, target, tag, bodyLength, frameLength := f.length,
      bodyExact := exactBody m bodyLength fieldsExact }
  | .other bs =>
    { port := p, src := f.src, version := byteAt bs versionAt, target := byteAt bs targetAt,
      tag := pairAt bs tagAt, bodyLength := pairAt bs lengthAt, frameLength := f.length, bodyExact := false }

/-- The message of a consumed frame. -/
def messageOf (f : Frame) : Message :=
  match f.payload with
  | .bridge _ _ _ _ _ m => m
  | .other bs => .foreign (.code (byteAt bs kindAt))

def isDiscover (f : Frame) : Bool :=
  match f.payload with
  | .bridge _ _ _ _ _ .discover => true
  | _ => false

/-! ## The Frame Classifier (R179) -/

def classify (p : Port) (f : Frame) (s : State) : State :=
  let b := s.tables.bridge
  if f.src = b.address then dropSelf s
  else if f.dst = b.address then
    if f.etype = b.frameType then handleMessage (headerOf p f) s (messageOf f)
    else { s with frameCounters := { s.frameCounters with wrongType := bump s.frameCounters.wrongType } }
  else if (f.dst = b.group ∨ f.dst = broadcast) ∧ f.etype = b.frameType ∧ isDiscover f = true then
    discoverKnown (headerOf p f) (forward (otherPort p) f s)
  else forward (otherPort p) f s

/-- FRAME_RECEIVED (R177): a bad FCS or length drops the frame; a port in DOWN receives nothing. DESIGN CHOICE
(assumption 53): R177 gives no order of the two tests; a frame that fails both is counted as an FCS error only.
Unsafe for a claim about the counters after such a frame. -/
def execFrameReceived (p : Port) (f : Frame) (s : State) : Result :=
  .next <|
    if !(s.port p).up then s
    else if !f.fcsGood then s.countPort p fun c => { c with fcsErrors := bump c.fcsErrors }
    else if f.length < 64 ∨ 1522 < f.length then
      s.countPort p fun c => { c with lengthErrors := bump c.lengthErrors }
    else classify p f (s.countPort p fun c => { c with received := bump c.received })

/-! ## The Egress Arbiter (R189) -/

/-- The arbiter of a port may choose. -/
def canChoose (x : PortState) : Bool := x.up && x.sending.isNone && !(x.pass.isEmpty && x.own.isEmpty)

/-- The head of the Own Queue leaves, and held fetches are offered (R188, R189). -/
def sendOwn (p : Port) (f : OwnFrame) (share : Nat) (s : State) : State :=
  offerHeld (viaPort p) (s.modPort p fun x => { x with own := x.own.drop 1, sending := some (.own f), share })

/-- The head of the Pass Queue leaves (R189). -/
def sendPass (p : Port) (f : Frame) (share : Nat) (s : State) : State :=
  s.modPort p fun x => { x with pass := x.pass.drop 1, sending := some (.pass f), share }

/-- EGRESS_CHOICE (R189). -/
def execEgressChoice (p : Port) (s : State) : Result :=
  .next <|
    let x := s.port p
    if canChoose x then
      match x.pass, x.own with
      | [], [] => s
      | f :: _, [] => sendPass p f x.share s
      | [], g :: _ => sendOwn p g x.share s
      | f :: _, g :: _ =>
        let next := (x.share + 1) % 8
        if x.share < s.tables.bridge.ownShare then sendOwn p g next s else sendPass p f next s
    else s

/-! ## Sending and links (R176, R189, R199) -/

/-- The frame is the reply that a pending restart waits for (R199). -/
def isRestartReply (f : OwnFrame) : Bool :=
  match f.body with
  | .reply _ _ .restartAccepted => true
  | _ => false

/-- What is being sent is the reply that a pending restart waits for. -/
def sendsRestart (o : Option Outgoing) : Bool :=
  match o with
  | some (.own f) => isRestartReply f
  | _ => false

/-- The reply of a pending restart has left or been flushed: the restart is due (R199). -/
def restartLeaves (b : Bool) (s : State) : State :=
  if b ∧ s.restart = .pending then { s with restart := .due } else s

/-- FRAME_SENT (R189). -/
def execFrameSent (p : Port) (s : State) : Result :=
  .next <|
    let o := (s.port p).sending
    if o.isSome then
      restartLeaves (sendsRestart o) (s.modPort p fun x => { x with
        sending := none
        counters := { x.counters with sent := bump x.counters.sent } })
    else s

/-- LINK_UP (R176): a port in DOWN enters UP and the held fetches reached through it are offered. -/
def execLinkUp (p : Port) (s : State) : Result :=
  .next <|
    if (s.port p).up then s
    else offerHeld (viaPort p) (s.modPort p fun x => { x with up := true, pass := [], own := [] })

/-- How many frames a link down flushes (R176). -/
def flushCount (x : PortState) : Nat := x.pass.length + x.own.length + (if x.sending.isSome then 1 else 0)

/-- LINK_DOWN (R176). -/
def execLinkDown (p : Port) (s : State) : Result :=
  .next <|
    let x := s.port p
    if x.up then
      restartLeaves (sendsRestart x.sending || x.own.any isRestartReply) (s.modPort p fun x => { x with
        up := false
        pass := []
        own := []
        sending := none
        counters := { x.counters with
          flushed := bumpBy (flushCount x) x.counters.flushed
          linkDowns := bump x.counters.linkDowns } })
    else s

end Sys2Proof.Machine
end

