-- ==== Sys2Proof/Machine/Clock.lean ====
section
/-! DEFINITION. What the bridge does when no command waits: it takes what its own state calls for at
once, else the Time Base makes a 1 ms tick and the deadlines and ticks that fall in it come due (R1).
The order in which the events of one tick are put is a choice of this model. -/

namespace Sys2Proof.Machine

open Sys2Proof

/-! ## Events that wait for nothing -/

/-- The events that the state calls for at once: a restart that is due (R199), waiting recovery
requests (R70), and the choices the Egress Arbiters can make (R189). -/
def readyNow (s : State) : List Instr :=
  (if s.restart = .due then [.bridgeRestart] else []) ++
    ((List.finRange 8).filter fun i => !(s.slot i).recovery.waiting.isEmpty).map .recoveryRequestTaken ++
    ([Port.uplink, Port.chain].filter fun p => canChoose (s.port p)).map .egressChoice

/-! ## Events of a tick -/

/-- The commands of `cs` whose condition holds. -/
def chosen (cs : List (Bool × Instr)) : List Instr := (cs.filter (·.1)).map (·.2)

def glitchDue (c : Classifier) (now : Time) : Bool :=
  match c.state with
  | .pending p => reached p.glitchDue now
  | _ => false

def stuckDue (c : Classifier) (now : Time) : Bool :=
  match c.state with
  | .passing p => reached p.stuckDue now
  | .blocked p _ => reached p.stuckDue now
  | _ => false

def breakDue (t : Transmitter) (now : Time) : Bool :=
  match t with
  | .breakSpace due => reached due now
  | _ => false

/-- The deadlines of a slot that bridge time has reached. -/
def slotDeadlines (s : State) (i : SlotId) : List Instr :=
  let x := s.slot i
  chosen [
    (breakDue x.input.tx s.now, .breakItemDeadline i),
    (expired x.input.idleDue s.now, .holderIdleExpiry i),
    (expired x.pg.due s.now, .pgFilterExpiry i),
    (glitchDue x.pwrBtn s.now, .glitchDeadline i .pwr),
    (glitchDue x.rstBtn s.now, .glitchDeadline i .rst),
    (stuckDue x.pwrBtn s.now, .stuckDeadline i .pwr),
    (stuckDue x.rstBtn s.now, .stuckDeadline i .rst),
    (s.stepDue i .stepping isPress, .pressDeadline i),
    (s.stepDue i .stepping isDwell, .dwellDeadline i),
    (s.stepDue i .stepping isExpectHigh, .expectHighDeadline i),
    (s.stepDue i .stepping isExpectLow, .expectLowDeadline i),
    (s.stepDue i .waitGate isGate, .gateWaitDeadline i),
    (expired (x.recovery.window.map (·.closes)) s.now, .recoveryWindowClose i)] ++
  (x.matcher.holdOffs.filter fun h => expired h.2 s.now).map fun h => .holdOffExpiry i h.1

/-- The deadlines of the bridge that bridge time has reached, the evaluation of a waiting queue (R130),
and the latest end of a SAVE (R198). -/
def bridgeDeadlines (s : State) : List Instr :=
  (s.fetch.records.filter fun r => fetchDue r s.now).map (fun r => .fetchDeadline r.id) ++
    chosen [
      (!s.inrush.queue.isEmpty, .inrushEvaluation),
      (expired (s.save.map (·.due)) s.now, .saveComplete)]

/-- What happens at a unit tick (R67, R94, R126, R133). -/
def unitTickEvents : List Instr :=
  (List.finRange 8).map .silenceTick ++ [.inrushUnitUpkeep] ++ (List.finRange 8).map .coldMarkSet ++
    (List.finRange 8).map .lastAssertAgeOut

/-- The Time Base makes a tick; every 1000th is a unit tick (R1). -/
def advance (s : State) : State :=
  if s.msInUnit + 1 = 1000 then { s with now := s.now + 1, msInUnit := 0, unitTicks := s.unitTicks + 1 }
  else { s with now := s.now + 1, msInUnit := s.msInUnit + 1 }

/-- The events of the tick just made. -/
def tickEvents (s : State) : List Instr :=
  (List.finRange 8).flatMap (slotDeadlines s) ++ bridgeDeadlines s ++
    (if s.msInUnit = 0 then unitTickEvents else [])

/-- The bridge without a waiting command. -/
def idle (s : State) : State :=
  let cs := readyNow s
  if cs.isEmpty then
    let s := advance s
    { s with pending := tickEvents s }
  else { s with pending := cs }

end Sys2Proof.Machine
end

