-- ==== Sys2Proof/Machine/Dispatch.lean ====
section
/-! DEFINITION. What each command does: one arm per command, each one direct call of its meaning. -/

namespace Sys2Proof.Machine
open Sys2Proof

def exec (i : Instr) (s : State) : Host.Outcome State Fault Refusal :=
  match i with
  | .powerUp => Sys2Proof.Machine.execPowerUp s
  | .bridgeRestart => Sys2Proof.Machine.execBridgeRestart s
  | .consoleCharacterReceived slot marks parityMark stopMark => Sys2Proof.Machine.execConsoleCharacterReceived slot marks parityMark stopMark s
  | .rxReturnToMark slot => Sys2Proof.Machine.execRxReturnToMark slot s
  | .breakDetected slot => Sys2Proof.Machine.execBreakDetected slot s
  | .silenceTick slot => Sys2Proof.Machine.execSilenceTick slot s
  | .silenceTerminal slot => Sys2Proof.Machine.execSilenceTerminal slot s
  | .holdOffExpiry slot action => Sys2Proof.Machine.execHoldOffExpiry slot action s
  | .recoveryRequestTaken slot => Sys2Proof.Machine.execRecoveryRequestTaken slot s
  | .recoveryWindowClose slot => Sys2Proof.Machine.execRecoveryWindowClose slot s
  | .txByteFinished slot => Sys2Proof.Machine.execTxByteFinished slot s
  | .breakItemDeadline slot => Sys2Proof.Machine.execBreakItemDeadline slot s
  | .breakItemFinished slot => Sys2Proof.Machine.execBreakItemFinished slot s
  | .holderIdleExpiry slot => Sys2Proof.Machine.execHolderIdleExpiry slot s
  | .pgRawChange slot high => Sys2Proof.Machine.execPgRawChange slot high s
  | .pgFilterExpiry slot => Sys2Proof.Machine.execPgFilterExpiry slot s
  | .buttonPressEdge slot button => Sys2Proof.Machine.execButtonPressEdge slot button s
  | .buttonReleaseEdge slot button => Sys2Proof.Machine.execButtonReleaseEdge slot button s
  | .glitchDeadline slot button => Sys2Proof.Machine.execGlitchDeadline slot button s
  | .stuckDeadline slot button => Sys2Proof.Machine.execStuckDeadline slot button s
  | .lastAssertAgeOut slot => Sys2Proof.Machine.execLastAssertAgeOut slot s
  | .pressDeadline slot => Sys2Proof.Machine.execPressDeadline slot s
  | .dwellDeadline slot => Sys2Proof.Machine.execDwellDeadline slot s
  | .expectHighDeadline slot => Sys2Proof.Machine.execExpectHighDeadline slot s
  | .expectLowDeadline slot => Sys2Proof.Machine.execExpectLowDeadline slot s
  | .gateWaitDeadline slot => Sys2Proof.Machine.execGateWaitDeadline slot s
  | .inrushEvaluation => Sys2Proof.Machine.execInrushEvaluation s
  | .inrushUnitUpkeep => Sys2Proof.Machine.execInrushUnitUpkeep s
  | .coldMarkSet slot => Sys2Proof.Machine.execColdMarkSet slot s
  | .storageCheck slot => Sys2Proof.Machine.execStorageCheck slot s
  | .storageCapacity slot => Sys2Proof.Machine.execStorageCapacity slot s
  | .storageRead slot first count => Sys2Proof.Machine.execStorageRead slot first count s
  | .storageWrite slot first count => Sys2Proof.Machine.execStorageWrite slot first count s
  | .storageWriteDataBlock slot data => Sys2Proof.Machine.execStorageWriteDataBlock slot data s
  | .serverAbort slot => Sys2Proof.Machine.execServerAbort slot s
  | .fetchDeadline id => Sys2Proof.Machine.execFetchDeadline id s
  | .linkUp port => Sys2Proof.Machine.execLinkUp port s
  | .linkDown port => Sys2Proof.Machine.execLinkDown port s
  | .frameReceived port frame => Sys2Proof.Machine.execFrameReceived port frame s
  | .messageUnknownKind h kind => Sys2Proof.Machine.execMessageUnknownKind h kind s
  | .egressChoice port => Sys2Proof.Machine.execEgressChoice port s
  | .frameSent port => Sys2Proof.Machine.execFrameSent port s
  | .discover h dest => Sys2Proof.Machine.execDiscover h dest s
  | .slotQuery h => Sys2Proof.Machine.execSlotQuery h s
  | .slotClear h => Sys2Proof.Machine.execSlotClear h s
  | .consoleReadAbsolute h position max => Sys2Proof.Machine.execConsoleReadAbsolute h position max s
  | .consoleReadCursor h max => Sys2Proof.Machine.execConsoleReadCursor h max s
  | .consoleReadMarker h sel offset max => Sys2Proof.Machine.execConsoleReadMarker h sel offset max s
  | .historyClear h => Sys2Proof.Machine.execHistoryClear h s
  | .consoleHoldTake h => Sys2Proof.Machine.execConsoleHoldTake h s
  | .consoleHoldForce h => Sys2Proof.Machine.execConsoleHoldForce h s
  | .consoleHoldRelease h => Sys2Proof.Machine.execConsoleHoldRelease h s
  | .consoleHoldRenew h => Sys2Proof.Machine.execConsoleHoldRenew h s
  | .consoleWrite h quote count bytes => Sys2Proof.Machine.execConsoleWrite h quote count bytes s
  | .consoleBreak h quote duration => Sys2Proof.Machine.execConsoleBreak h quote duration s
  | .linesQuery h => Sys2Proof.Machine.execLinesQuery h s
  | .powerOn h profile quotes => Sys2Proof.Machine.execPowerOn h profile quotes s
  | .powerOffSoft h profile quotes => Sys2Proof.Machine.execPowerOffSoft h profile quotes s
  | .powerOffHard h profile quotes => Sys2Proof.Machine.execPowerOffHard h profile quotes s
  | .powerReset h profile quotes => Sys2Proof.Machine.execPowerReset h profile quotes s
  | .powerCycleSoft h profile quotes => Sys2Proof.Machine.execPowerCycleSoft h profile quotes s
  | .powerCycleFeed h profile quotes => Sys2Proof.Machine.execPowerCycleFeed h profile quotes s
  | .powerFeedOff h profile quotes => Sys2Proof.Machine.execPowerFeedOff h profile quotes s
  | .powerFeedOn h profile quotes => Sys2Proof.Machine.execPowerFeedOn h profile quotes s
  | .powerAbort h profile quotes => Sys2Proof.Machine.execPowerAbort h profile quotes s
  | .mediaBind h slot => Sys2Proof.Machine.execMediaBind h slot s
  | .mediaUnbind h => Sys2Proof.Machine.execMediaUnbind h s
  | .mediaQuery h => Sys2Proof.Machine.execMediaQuery h s
  | .blockData h id block check data => Sys2Proof.Machine.execBlockData h id block check data s
  | .blockAbsent h id first count reason => Sys2Proof.Machine.execBlockAbsent h id first count reason s
  | .tableWriteStation h w e => Sys2Proof.Machine.execTableWriteStation h w e s
  | .tableWriteSlotSetup h w e => Sys2Proof.Machine.execTableWriteSlotSetup h w e s
  | .tableWriteConsoleSetup h w e => Sys2Proof.Machine.execTableWriteConsoleSetup h w e s
  | .tableWriteProfile h w e => Sys2Proof.Machine.execTableWriteProfile h w e s
  | .tableWriteClassMap h w cls => Sys2Proof.Machine.execTableWriteClassMap h w cls s
  | .tableWriteAutomaton h w next => Sys2Proof.Machine.execTableWriteAutomaton h w next s
  | .tableWriteStateAction h w action => Sys2Proof.Machine.execTableWriteStateAction h w action s
  | .tableWriteWatchAction h w e => Sys2Proof.Machine.execTableWriteWatchAction h w e s
  | .tableWriteUnitSetup h w e => Sys2Proof.Machine.execTableWriteUnitSetup h w e s
  | .tableWriteImageMap h w e => Sys2Proof.Machine.execTableWriteImageMap h w e s
  | .tableWriteBridgeSetup h w e => Sys2Proof.Machine.execTableWriteBridgeSetup h w e s
  | .tableRead h table index => Sys2Proof.Machine.execTableRead h table index s
  | .bridgeControlSave h => Sys2Proof.Machine.execBridgeControlSave h s
  | .saveComplete => Sys2Proof.Machine.execSaveComplete s
  | .bridgeControlRestart h quote => Sys2Proof.Machine.execBridgeControlRestart h quote s
  | .bridgeControlCounters h group clear => Sys2Proof.Machine.execBridgeControlCounters h group clear s
  | .startBitDetected slot => Sys2Proof.Machine.execStartBitDetected slot s
  | .rxLineAtMark slot => Sys2Proof.Machine.execRxLineAtMark slot s

end Sys2Proof.Machine
end

