-- ==== Sys2Proof/Machine/Step.lean ====
section
/-! DEFINITION. One step of the bridge: the command in front of the queue is taken, or the bridge
idles; and how the host puts a command in front of the queue. -/

namespace Sys2Proof.Machine

open Sys2Proof

/-- One step: the first waiting command is taken and runs on the state with the others waiting; with
none waiting the bridge does what its own state and its Time Base call for. -/
def step (s : State) : Host.Outcome State Fault Refusal :=
  match s.pending with
  | [] => .next (idle s)
  | c :: cs => exec c { s with pending := cs }

/-- `s` with command `c` in front of its queue. -/
def State.push (s : State) (c : Instr) : State := { s with pending := c :: s.pending }

/-- `s` with the command that a word spells in front of its queue; `s` where the word spells none. -/
def State.withFetchWord (s : State) (nbits w : Nat) : State :=
  match decodeTableWord nbits w with
  | some c => s.push c
  | none => s

end Sys2Proof.Machine
end

