-- ==== Sys2Proof/Safety.lean ====
section
/-! DEFINITION. The terms that claims about the 8240 use: what it is for a request to be taken and
answered, what a command leaves alone, and the properties that every step keeps. -/

namespace Sys2Proof.Machine

open Sys2Proof

/-! ## Requests (R182, R186, R192, R193) -/

/-- A request is taken for entry `e`: its source is the station of that entry, a place for the reply
can be had once the station has been heard, and its header and body lengths are good. -/
def Taken (h : Header) (e : StationId) (s : State) : Prop :=
  s.lookup h.src = some e ∧ (hear e h.port s).ownRoom h.port = true ∧ h.version = 1 ∧ h.bodyFits = true ∧
    h.bodyExact = true

/-- The reply to a request. -/
def replyFrame (h : Header) (k : MsgKind) (st : Status) (d : ReplyData) (s : State) : OwnFrame :=
  s.ownFrame h.src h.target h.tag (.reply k st d)

/-- `s` with the reply at the tail of the arrival port's Own Queue. -/
def replied (h : Header) (k : MsgKind) (st : Status) (d : ReplyData) (s : State) : State :=
  s.ownAppend h.port (replyFrame h k st d s)

/-- The reply stands in `t` at the place that was taken for it in `s`, behind what waited there. -/
def ReplyStands (h : Header) (k : MsgKind) (st : Status) (d : ReplyData) (s t : State) : Prop :=
  (t.port h.port).own[(s.port h.port).own.length]? = some (replyFrame h k st d s)

/-! ## What a command leaves alone -/

/-- A port has at most gained frames in its Own Queue and dropped copies of notices. -/
def Grows (x y : PortState) : Prop :=
  ∃ l, y = { x with own := x.own ++ l, counters := { x.counters with noticeDrop := y.counters.noticeDrop } }

/-- Nothing but slot `i`, the notice number and what the ports have gained differs. -/
def OnlySlot (i : SlotId) (s t : State) : Prop :=
  t = { s with slots := t.slots, uplink := t.uplink, chain := t.chain, noticeNumber := t.noticeNumber } ∧
    (∀ j, j ≠ i → t.slot j = s.slot j) ∧ Grows s.uplink t.uplink ∧ Grows s.chain t.chain

/-! ## POWER requests -/

/-- The command of a POWER request with one of the eight actions. -/
def powerCommand (a : Action) (h : Header) (profile : Option Nat) (quotes : List Quote) : Instr :=
  match a with
  | .powerOn => .powerOn h profile quotes
  | .powerOffSoft => .powerOffSoft h profile quotes
  | .powerOffHard => .powerOffHard h profile quotes
  | .reset => .powerReset h profile quotes
  | .cycleSoft => .powerCycleSoft h profile quotes
  | .cycleFeed => .powerCycleFeed h profile quotes
  | .feedOff => .powerFeedOff h profile quotes
  | .feedOn => .powerFeedOn h profile quotes

/-- A POWER request for slot `i` alone is taken for an entry that holds POWER on it. -/
def PowerTaken (h : Header) (e : StationId) (i : SlotId) (profile : Option Nat) (s : State) : Prop :=
  Taken h e s ∧ slotsOf h.target = [i] ∧ profile.getD 0 ≤ 7 ∧ s.holdsOn e (·.power) i = true

/-- The profile that a POWER request uses on a slot (R98). -/
def usedProfile (profile : Option Nat) (i : SlotId) (s : State) : Nat := profile.getD (s.setup i).profile

/-- Tests 3 to 9 of R102 pass, spelled out in the terms of its table. -/
def PowerPasses (a : Action) (profile : Option Nat) (quote : Quote) (i : SlotId) (s : State) : Prop :=
  (s.setup i).powerControl = true ∧
    linesEnabled a (s.setup i) (s.profile (usedProfile profile i s)) = true ∧
    seqBusy (s.slot i).seq.state = false ∧ s.localPassing i = false ∧
    (quote = none → needsQuote a = false) ∧ (∀ n, quote = some n → n = (s.slot i).record.bootCount) ∧
    (a = .reset → (s.slot i).record.observed = .on)

/-- The record of a sequence that an operator has just been granted. -/
def startedRecord (a : Action) (profile : Option Nat) (i : SlotId) (s : State) (current : Step)
    (steps : List Step) (deadline : Option Time) : SeqRecord :=
  { action := a, origin := .operator, profile := usedProfile profile i s, steps, current, deadline,
    accepted := s.now }

/-- No sequence of the slot can hear what happens to it: the sequencer is not busy. -/
def Quiet (i : SlotId) (s : State) : Prop := seqBusy (s.slot i).seq.state = false

/-! ## Requests by their commands -/

/-- The kind of a request that is answered with a REPLY, and its header: every message command but
BLOCK_DATA, BLOCK_ABSENT and a DISCOVER sent to a group address or to broadcast (R186). -/
def requestOf : Instr → Option (MsgKind × Header)
  | .messageUnknownKind h k => some (.foreign k, h)
  | .discover h .bridge => some (.discover, h)
  | .slotQuery h => some (.slotQuery, h)
  | .slotClear h => some (.slotClear, h)
  | .consoleReadAbsolute h _ _ => some (.consoleRead, h)
  | .consoleReadCursor h _ => some (.consoleRead, h)
  | .consoleReadMarker h _ _ _ => some (.consoleRead, h)
  | .historyClear h => some (.historyClear, h)
  | .consoleHoldTake h => some (.consoleHold, h)
  | .consoleHoldForce h => some (.consoleHold, h)
  | .consoleHoldRelease h => some (.consoleHold, h)
  | .consoleHoldRenew h => some (.consoleHold, h)
  | .consoleWrite h _ _ _ => some (.consoleWrite, h)
  | .consoleBreak h _ _ => some (.consoleBreak, h)
  | .linesQuery h => some (.linesQuery, h)
  | .powerOn h _ _ => some (.power, h)
  | .powerOffSoft h _ _ => some (.power, h)
  | .powerOffHard h _ _ => some (.power, h)
  | .powerReset h _ _ => some (.power, h)
  | .powerCycleSoft h _ _ => some (.power, h)
  | .powerCycleFeed h _ _ => some (.power, h)
  | .powerFeedOff h _ _ => some (.power, h)
  | .powerFeedOn h _ _ => some (.power, h)
  | .powerAbort h _ _ => some (.power, h)
  | .mediaBind h _ => some (.mediaBind, h)
  | .mediaUnbind h => some (.mediaUnbind, h)
  | .mediaQuery h => some (.mediaQuery, h)
  | .tableWriteStation h _ _ => some (.tableWrite, h)
  | .tableWriteSlotSetup h _ _ => some (.tableWrite, h)
  | .tableWriteConsoleSetup h _ _ => some (.tableWrite, h)
  | .tableWriteProfile h _ _ => some (.tableWrite, h)
  | .tableWriteClassMap h _ _ => some (.tableWrite, h)
  | .tableWriteAutomaton h _ _ => some (.tableWrite, h)
  | .tableWriteStateAction h _ _ => some (.tableWrite, h)
  | .tableWriteWatchAction h _ _ => some (.tableWrite, h)
  | .tableWriteUnitSetup h _ _ => some (.tableWrite, h)
  | .tableWriteImageMap h _ _ => some (.tableWrite, h)
  | .tableWriteBridgeSetup h _ _ => some (.tableWrite, h)
  | .tableRead h _ _ => some (.tableRead, h)
  | .bridgeControlSave h => some (.bridgeControl, h)
  | .bridgeControlRestart h _ => some (.bridgeControl, h)
  | .bridgeControlCounters h _ _ => some (.bridgeControl, h)
  | _ => none

/-- An entry is written to its table at the index of `w`. -/
def writeCommand (h : Header) (w : WriteHead) : TableEntry → Instr
  | .station e _ => .tableWriteStation h w e
  | .slotSetup e => .tableWriteSlotSetup h w e
  | .consoleSetup e => .tableWriteConsoleSetup h w e
  | .profile e => .tableWriteProfile h w e
  | .classMap cls => .tableWriteClassMap h w cls
  | .automaton next => .tableWriteAutomaton h w next
  | .stateAction a => .tableWriteStateAction h w a
  | .watchAction e => .tableWriteWatchAction h w e
  | .unitSetup e => .tableWriteUnitSetup h w e
  | .imageMap e => .tableWriteImageMap h w e
  | .bridgeSetup e => .tableWriteBridgeSetup h w e

/-- The indices of the table that an entry belongs to (R195): from the first number to below the
second. -/
def indexRange : TableEntry → Nat × Nat
  | .station _ _ => (0, 32)
  | .slotSetup _ => (0, 8)
  | .consoleSetup _ => (0, 8)
  | .profile _ => (0, 8)
  | .classMap _ => (0, 256)
  | .automaton _ => (0, 512)
  | .stateAction _ => (0, 512)
  | .watchAction _ => (1, 32)
  | .unitSetup _ => (0, 4)
  | .imageMap _ => (0, 64)
  | .bridgeSetup _ => (0, 1)

/-- The entry fields have their table's length: 32 next states, an image base where the kind has one. -/
def entryLength : TableEntry → Bool
  | .automaton next => decide (next.length = 32)
  | .imageMap e => regionLength e
  | _ => true

/-- A TABLE_WRITE of entry fields at an index of their table is taken for an administrator, and no SAVE
is running (R195). -/
def WriteTaken (h : Header) (e : StationId) (w : WriteHead) (x : TableEntry) (s : State) : Prop :=
  Taken h e s ∧ (s.station e).rights.admin = true ∧ w.codesKnown = true ∧
    (indexRange x).1 ≤ w.index ∧ w.index < (indexRange x).2 ∧ entryLength x = true ∧ s.save = none

/-! ## Storage ports and answers of media stations -/

/-- The storage port of slot `i` is free and its bound unit `u` presents a medium the server knows. -/
def Presents (i : SlotId) (u : UnitId) (s : State) : Prop :=
  s.unitOf i = some u ∧ (s.unit u).state = .presenting ∧ (s.unit u).mediumChanged = false ∧
    (s.slot i).port.inFlight = none

/-- The port has told its server some things more. -/
def toldMore (i : SlotId) (os : List ServerOut) (s : State) : State :=
  s.modSlot i fun x => { x with port := { x.port with out := x.port.out ++ os } }

/-- A BLOCK_DATA or BLOCK_ABSENT has a good header and body length, names unit `u` and comes from a
station known as entry `e` (R166, R192). -/
def AnswerHeard (h : Header) (e : StationId) (u : UnitId) (s : State) : Prop :=
  s.lookup h.src = some e ∧ finOf 4 h.target.toNat = some u ∧ h.version = 1 ∧ h.bodyFits = true ∧
    h.bodyExact = true

/-! ## Properties that every step keeps -/

/-- The history, the markers, the line log and the input queue of a slot stay within their sizes, and
every marker lies in the window (R25, R28, R30, R42, R93). -/
def SlotBounded (x : Slot) : Prop :=
  x.hist.retained ≤ 131072 ∧ x.hist.markers.length ≤ 64 ∧
    (∀ m ∈ x.hist.markers, inInterval (oldest x.hist) x.hist.next m.position = true) ∧
    x.log.entries.length ≤ 16 ∧ x.input.items.length ≤ 256

def BuffersBounded (s : State) : Prop := ∀ i, SlotBounded (s.slot i)

/-- The queues of a port stay within their sizes, and a port in DOWN holds no frame (R176, R185, R186,
R189). -/
def PortBounded (x : PortState) : Prop :=
  x.own.length ≤ 24 ∧ x.pass.length ≤ 32 ∧ passBytes x.pass ≤ 32768 ∧ x.share < 8 ∧
    (x.up = false → x.own = [] ∧ x.pass = [] ∧ x.sending = none)

def QueuesBounded (s : State) : Prop := ∀ p, PortBounded (s.port p)

/-- The Station Table in use, the one in the Configuration Store and the one being saved each hold a
valid entry with ADMIN (R183). -/
def AdminHeld (s : State) : Prop :=
  hasAdmin s.tables.stations = true ∧ (∀ t, s.store = some t → hasAdmin t.stations = true) ∧
    (∀ j, s.save = some j → hasAdmin j.copy.stations = true)

/-- The slots that wait in the Inrush Queue, in its order. -/
def waitingSlots (s : State) : List SlotId := s.inrush.queue.map (·.slot)

/-- A slot has a sequence record exactly while its sequencer is busy, and stands in the Inrush Queue,
once, exactly while it is in WAIT_BUDGET (R99, R109, R127). -/
def SequencersSound (s : State) : Prop :=
  (∀ i, seqBusy (s.slot i).seq.state = (s.slot i).seq.record.isSome) ∧ (waitingSlots s).Nodup ∧
    ∀ i, i ∈ waitingSlots s ↔ (s.slot i).seq.state = .waitBudget

/-- A unit has a slot and a station exactly while it is not DETACHED; a DETACHED unit has no overlay
block (R137). -/
def UnitSound (m : MediaUnit) : Prop :=
  (m.state = .detached ↔ m.slot = none) ∧ (m.station = none ↔ m.slot = none) ∧
    (m.state = .detached → m.overlay = [] ∧ m.reserved = 0)

/-- The records of a unit. -/
def recordsOf (s : State) (u : UnitId) : List FetchRecord := s.fetch.records.filter fun r => decide (r.unit = u)

/-- Units and slots are bound one to one, a port with a request in flight has a bound unit, a DETACHED
unit has no fetch record, no Issue Queue entry and no cache line, and the records stay within their
numbers (R137, R142, R164). -/
def BindingsSound (s : State) : Prop :=
  (∀ u, UnitSound (s.unit u)) ∧
    (∀ u v i, (s.unit u).slot = some i → (s.unit v).slot = some i → u = v) ∧
    (∀ i, (s.slot i).port.inFlight ≠ none → ∃ u, (s.unit u).slot = some i) ∧
    (∀ r ∈ s.fetch.records, (s.unit r.unit).state ≠ .detached) ∧
    (∀ e ∈ s.fetch.issue, (s.unit e.unit).state ≠ .detached) ∧
    (∀ l ∈ s.cache, (s.unit l.unit).state ≠ .detached) ∧
    s.fetch.records.length ≤ 16 ∧ ∀ u, (recordsOf s u).length ≤ 4

/-- The keys of an Overlay Index rise. -/
def indexRises : List (Nat × Block) → Bool
  | [] => true
  | [_] => true
  | a :: b :: m => decide (a.1 < b.1) && indexRises (b :: m)

/-- The reservation of a unit is what the write in flight on its port has still to place (R153, R154). -/
def ReservationSound (s : State) (u : UnitId) : Prop :=
  match (s.unit u).slot with
  | none => True
  | some i =>
    match (s.slot i).port.inFlight with
    | some (.write lba left) => 1 ≤ left ∧ (s.unit u).reserved = newBlocks (s.unit u) lba left
    | some (.read _ _ _) => (s.unit u).reserved = 0
    | none => (s.unit u).reserved = 0

/-- The free blocks and the blocks held by all units make 4,096, and no unit holds more than its
overlay limit (R153). -/
def PoolSound (s : State) : Prop :=
  BindingsSound s ∧ (∀ u, indexRises (s.unit u).overlay = true ∧ ReservationSound s u) ∧
    (∀ u, heldCount (s.unit u) ≤ (s.unitSetup u).overlayLimit) ∧
    s.poolFree + ((List.finRange 4).map fun u => heldCount (s.unit u)).sum = 4096

/-- The sparse tables have their canonical form. -/
def tablesCanonical (t : Tables) : Bool :=
  sparseWf factoryIndex t.classMap && sparseWf factoryRow t.automaton && sparseWf factoryIndex t.stateAction &&
    sparseWf factoryWatch t.watch

/-- Every sparse collection of the state has its canonical form: the tables in use, saved and being
saved, and each slot's ring and hold-offs. -/
def Canonical (s : State) : Prop :=
  tablesCanonical s.tables = true ∧ (∀ t, s.store = some t → tablesCanonical t = true) ∧
    (∀ j, s.save = some j → tablesCanonical j.copy = true) ∧
    ∀ i, sparseWf 0 (s.slot i).hist.ring = true ∧ sparseWf none (s.slot i).matcher.holdOffs = true

end Sys2Proof.Machine
end

