-- ==== Sys2Proof/Certificates/Slice0/Obligations.lean ====
section
/-! DEFINITION. The statements about the 8240 that are to be proved. -/

open Sys2Proof Sys2Proof.Machine

/-! ## The queue of commands -/

/-- A step with command `c` in front of the queue is `exec c` on the state with the queue's rest. -/
def Obligations.StepTakesFront : Prop :=
  ∀ (c : Instr) (cs : List Instr) (s : State),
    step { s with pending := c :: cs } = exec c { s with pending := cs }

/-- What the state calls for at once: a restart that is due, a slot's waiting recovery requests, and the
choice of a port in UP that sends nothing and holds a frame (R70, R189, R199). -/
def CalledFor (s : State) : Instr → Prop
  | .bridgeRestart => s.restart = .due
  | .recoveryRequestTaken i => (s.slot i).recovery.waiting ≠ []
  | .egressChoice p => (s.port p).up = true ∧ (s.port p).sending = none ∧
      ((s.port p).pass ≠ [] ∨ (s.port p).own ≠ [])
  | _ => False

/-- The deadlines that are armed and reached, and the evaluation of an Inrush Queue that holds an entry
(R44, R52, R65, R73, R83, R87, R90, R107, R110, R111, R113, R130, R169, R198). -/
def ComesDue (s : State) : Instr → Prop :=
  let due := fun d => reached d s.now = true
  let step := fun (i : SlotId) (st : SeqState) (which : Step → Prop) => ∃ r d, (s.slot i).seq.state = st ∧
    (s.slot i).seq.record = some r ∧ which r.current ∧ r.deadline = some d ∧ due d
  fun
  | .breakItemDeadline i => ∃ d, (s.slot i).input.tx = .breakSpace d ∧ due d
  | .holderIdleExpiry i => ∃ d, (s.slot i).input.idleDue = some d ∧ due d
  | .pgFilterExpiry i => ∃ d, (s.slot i).pg.due = some d ∧ due d
  | .glitchDeadline i b => ∃ p, (btnOf (s.slot i) b).state = .pending p ∧ due p.glitchDue
  | .stuckDeadline i b => ∃ p, ((btnOf (s.slot i) b).state = .passing p ∨
      ∃ why, (btnOf (s.slot i) b).state = .blocked p why) ∧ due p.stuckDue
  | .pressDeadline i => step i .stepping fun c => c = .hold ∨ ∃ role, c = .press role
  | .dwellDeadline i => step i .stepping fun c => ∃ kind, c = .dwell kind
  | .expectHighDeadline i => step i .stepping (· = .expectHigh)
  | .expectLowDeadline i => step i .stepping fun c => ∃ soft, c = .expectLow soft
  | .gateWaitDeadline i => step i .waitGate (· = .gate)
  | .recoveryWindowClose i => ∃ w, (s.slot i).recovery.window = some w ∧ due w.closes
  | .holdOffExpiry i w => ∃ d, (w, some d) ∈ (s.slot i).matcher.holdOffs ∧ due d
  | .fetchDeadline id => ∃ r ∈ s.fetch.records, r.id = id ∧ ∃ d, r.phase = .out d ∧ due d
  | .inrushEvaluation => s.inrush.queue ≠ []
  | .saveComplete => ∃ j, s.save = some j ∧ due j.due
  | _ => False

/-- What comes with a unit tick (R67, R94, R126, R133). -/
def ComesWithUnit : Instr → Prop
  | .silenceTick _ => True
  | .inrushUnitUpkeep => True
  | .coldMarkSet _ => True
  | .lastAssertAgeOut _ => True
  | _ => False

/-- On an empty queue the bridge puts up what its state calls for at once, and nothing else; where it calls
for nothing, one tick of 1 ms passes, and a unit tick with every 1000th (R1). A tick puts up each armed
deadline that bridge time has then reached, the evaluation of an Inrush Queue that holds an entry and, with a
unit tick, its events, and nothing else. The order of events, the tick on an empty queue and the end of a
SAVE at its latest time are the model's choice (assumptions 2, 3 and 4). That unit ticks are counted without
bound is the model's choice too (assumption 31), and the restart that is due (assumption 28). -/
def Obligations.IdleTakesWorkOrTicks : Prop :=
  ∀ s : State, s.pending = [] →
    (∀ c, CalledFor s c → ∃ t, step s = .next t ∧ t = { s with pending := t.pending } ∧
      ∀ c, c ∈ t.pending ↔ CalledFor s c) ∧
    ((∀ c, ¬ CalledFor s c) → ∃ t, step s = .next t ∧
      t = { s with now := s.now + 1, msInUnit := t.msInUnit, unitTicks := t.unitTicks, pending := t.pending } ∧
      (∀ c, c ∈ t.pending ↔ ComesDue { s with now := s.now + 1 } c ∨ s.msInUnit = 999 ∧ ComesWithUnit c) ∧
      (s.msInUnit = 999 → t.msInUnit = 0 ∧ t.unitTicks = s.unitTicks + 1) ∧
      (s.msInUnit ≠ 999 → t.msInUnit = s.msInUnit + 1 ∧ t.unitTicks = s.unitTicks))

/-- No command ends in a fault or a refusal, which is the model's reading of a manual that describes no
stop (assumption 34), and none touches the queue of waiting commands, which is the model's own
(assumption 36). -/
def Obligations.EveryCommandCompletes : Prop :=
  ∀ (c : Instr) (s : State), ∃ t, exec c s = .next t ∧ t.pending = s.pending

/-! ## Reset, and the properties that every step keeps -/

/-- The values the chapters give for power-up, in the state after the power-up of a part with a blank
store (assumption 12): the boot records (R18), the
histories (R25, R32), the console input (R46), the watch state (R62, R67, R73), the lines (R82, R86,
R94), the sequencers (R99), the scheduler (R123), the units (R137, R153), the fetch path (R160, R164)
and the frame path (R176, R181, R185, R189). That state has every property that the next statements say
each step keeps. -/
def Obligations.ResetValues : Prop :=
  let z := State.reset
  (∀ i : SlotId, let x := z.slot i
    x.record = { observed := .standby } ∧ x.hist.next = 0 ∧ x.hist.retained = 0 ∧ x.hist.markers = [] ∧
    x.hist.markerCount = 0 ∧ x.input = {} ∧ x.matcher = {} ∧ x.silence = {} ∧ x.recovery = {} ∧
    pwrAsserted x.lines = false ∧ rstAsserted x.lines = false ∧ x.lines.feed = true ∧
    x.pg.filtered = false ∧ x.pg.due = none ∧ x.pwrBtn.state = .released ∧ x.rstBtn.state = .released ∧
    x.log = {} ∧ x.seq = {} ∧ x.coldMark = false ∧ x.port.inFlight = none ∧ x.counters = {}) ∧
  (∀ u : UnitId, z.unit u = {}) ∧ z.poolFree = 4096 ∧ z.cache = [] ∧ z.fetch = {} ∧ z.inrush = {} ∧
  z.uplink = {} ∧ z.chain = {} ∧ z.frameCounters = {} ∧ z.restartCount = 0 ∧ z.restart = .none ∧
  z.save = none ∧ (∀ e : StationId, z.lastPorts[e] = none ∧ ∀ i : SlotId, z.cursor e i = none) ∧
  z.station 0 = { valid := true, address := .any, rights := { admin := true }, mask := 0xFF } ∧
  (∀ e : StationId, e ≠ 0 → z.station e = {}) ∧
  BuffersBounded z ∧ QueuesBounded z ∧ AdminHeld z ∧ SequencersSound z ∧ BindingsSound z ∧ PoolSound z ∧
    Canonical z

/-- Every step keeps the history, Marker List, Line Event Log and Input Queue of each slot within their
sizes, and every marker in the window of retained positions (R25, R28, R30, R42, R93). -/
def Obligations.BuffersStayBounded : Prop :=
  ∀ s t : State, BuffersBounded s → step s = .next t → BuffersBounded t

/-- Every step keeps each Own Queue at 24 frames or fewer and each Pass Queue at 32 frames and 32,768
bytes or fewer, and a port in DOWN empty (R176, R185, R186, R189). -/
def Obligations.QueuesStayBounded : Prop :=
  ∀ s t : State, QueuesBounded s → step s = .next t → QueuesBounded t

/-- Every step leaves a valid entry with ADMIN in the Station Table, in the saved image and in the image
being saved (R183). -/
def Obligations.AdminAlwaysHeld : Prop :=
  ∀ s t : State, AdminHeld s → step s = .next t → AdminHeld t

/-- Every step keeps a sequence record exactly while the sequencer is busy, and a slot in the Inrush
Queue, once, exactly while its sequencer is in WAIT_BUDGET (R99, R109). -/
def Obligations.SequencersStaySound : Prop :=
  ∀ s t : State, SequencersSound s → step s = .next t → SequencersSound t

/-- Every step keeps units and slots bound one to one and a bound unit behind each request in flight,
leaves a DETACHED unit without fetch record, Issue Queue entry, cache line or overlay block, and keeps at
most 4 records for a unit and 16 in all (R137, R142, R164). -/
def Obligations.BindingsStaySound : Prop :=
  ∀ s t : State, BindingsSound s → step s = .next t → BindingsSound t

/-- Every step keeps the sum of the free overlay blocks and of those the units hold at 4,096, and no
unit above its overlay limit (R153). -/
def Obligations.PoolConserved : Prop :=
  ∀ s t : State, PoolSound s → step s = .next t → PoolSound t

/-- Every step keeps the canonical form of the history rings and of the other sparse collections, which is
the model's own form of them (assumption 30). -/
def Obligations.CanonicalKept : Prop :=
  ∀ s t : State, Canonical s → step s = .next t → Canonical t

/-! ## Notices -/

/-- The recipients of a notice that are sent their copy through port `p`, in ascending order: the valid
entries with NOTICE, for a slot notice those whose mask holds the slot, last heard on `p`, or without a
last port where `p` is UPLINK (R187, R194). -/
def recipientsAt (slot : Option SlotId) (p : Port) (s : State) : List StationId :=
  (List.finRange 32).filter fun e =>
    let x := s.station e
    x.valid && x.rights.notice && (slot.map (maskHas x.mask)).getD true &&
      decide (s.lastPorts[e].getD .uplink = p)

/-- The copy of the next notice for one recipient (R178, R187, R191, R194). -/
def noticeCopy (slot : Option SlotId) (body : NoticeBody) (s : State) (e : StationId) : OwnFrame :=
  { dst := match (s.station e).address with
      | .mac a => a
      | .any => s.tables.bridge.group
    src := s.tables.bridge.address
    etype := s.tables.bridge.frameType
    version := 1
    target := match slot with
      | some i => BitVec.ofNat 8 i
      | none => 0
    tag := 0
    body := .notice (s.noticeNumber + 1) s.now slot body }

/-- The frames that the Own Queue of a port still takes: none in DOWN (R176, R186). -/
def ownSpace (x : PortState) : Nat := if x.up then 24 - x.own.length else 0

/-- A notice takes the next notice number. Its copies go, in ascending order of station entry, to the
tail of the Own Queue of the port through which each recipient was last heard; those that find no place
are dropped and counted. Nothing else changes (R187, R194). The statements that follow say of every
command what notices it generates, as `notify` applied to the state that the command has left by then. -/
def Obligations.NoticesSent : Prop :=
  ∀ (s : State) (slot : Option SlotId) (body : NoticeBody),
    let t := s.notify slot body
    t = { s with noticeNumber := s.noticeNumber + 1, uplink := t.uplink, chain := t.chain } ∧
    ∀ p, let x := s.port p
      let all := recipientsAt slot p s
      t.port p = { x with
        own := x.own ++ (all.take (ownSpace x)).map (noticeCopy slot body s)
        counters := { x.counters with noticeDrop := bumpBy (all.length - ownSpace x) x.counters.noticeDrop } }

/-! ## Queries -/

/-- A frame passed on toward port `q`: it goes to the tail of the Pass Queue of a port in UP that holds
fewer than 32 frames and has room for its bytes, else it is dropped and counted (R185). -/
def passedOn (q : Port) (f : Frame) (s : State) : State :=
  s.modPort q fun x =>
    if x.up = true ∧ x.pass.length < 32 ∧ (x.pass.map (·.length)).sum + f.length ≤ 32768 then
      { x with pass := x.pass ++ [f] }
    else { x with counters := { x.counters with passDrop := bump x.counters.passDrop } }

/-- LINES_QUERY, MEDIA_QUERY, TABLE_READ and a unicast DISCOVER that are taken leave their OK reply, with
what the bridge holds, and nothing else (R95, R157, R195, R196). A DISCOVER sent to the group address or
to broadcast is passed on and answered in the same way, and one from the bridge's own address is dropped
and counted (R179, R196). SLOT_QUERY is answered OK with the record of each slot of the mask, in ascending
order, DENIED (no record) where the entry does not hold READ on the slot; with an empty mask it is refused
with RANGE (R15, R16). A target that the kind does not
use may hold any value, which is the model's reading (assumption 9). The frame that a DISCOVER command
passes on is the model's reading too (assumption 27). That its reply tells of a SAVE and of a restart in two
fields, that the record of a slot shows no length of the Input Queue, and that SLOT_QUERY reads all slots of
its mask in one step, are the model's choices (assumptions 47, 49 and 51). -/
def Obligations.QueriesOnlyReply : Prop :=
  ∀ (h : Header) (e : StationId) (s : State), Taken h e s →
    let s1 := hear e h.port s
    let b := s.tables.bridge
    let frame := fun dst => ({
      dst, src := h.src, etype := b.frameType, length := h.frameLength
      payload := .bridge h.version h.target h.tag h.bodyLength h.bodyExact .discover } : Frame)
    let group := fun dst => replied h .discover .ok (.discover (discoverReport s e))
      (hear e h.port (passedOn (otherPort h.port) (frame dst) s))
    (∀ i, finOf 8 h.target.toNat = some i → s.holdsOn e (·.read) i = true →
      exec (.linesQuery h) s = .next (replied h .linesQuery .ok (.lines (linesReport s i)) s1)) ∧
    (∀ u, finOf 4 h.target.toNat = some u → mayQueryMedia (s.station e) = true →
      exec (.mediaQuery h) s = .next (replied h .mediaQuery .ok (.media (mediaReport s u)) s1)) ∧
    (∀ t n x, (s.station e).rights.admin = true → entryAt s1 t n = some x →
      exec (.tableRead h (some t) n) s = .next (replied h .tableRead .ok (.table x) s1)) ∧
    (h.src ≠ b.address →
      exec (.discover h .bridge) s =
        .next (replied h .discover .ok (.discover (discoverReport s e)) s1) ∧
      exec (.discover h .group) s = .next (group b.group) ∧
      exec (.discover h .broadcast) s = .next (group (BitVec.allOnes 48))) ∧
    (h.src = b.address → ∀ dest, exec (.discover h dest) s = .next { s with
      frameCounters := { s.frameCounters with selfSource := bump s.frameCounters.selfSource } }) ∧
    (h.target ≠ 0 → exec (.slotQuery h) s = .next (replied h .slotQuery .ok
      (.slotQuery s.now ((slotsOf h.target).map fun i =>
        (i, if s.holdsOn e (·.read) i then some (slotReport s i) else none))) s1)) ∧
    (h.target = 0 → exec (.slotQuery h) s = .next (replied h .slotQuery .range .none s1))

/-- SLOT_CLEAR empties the cause set and sets the last cause to UNATTRIBUTED for each slot of the mask
on which the entry holds ADMIN or POWER, answers DENIED for the others, and changes nothing else: no
notice, no marker, and every other field of the slots as it was (R17). -/
def Obligations.SlotClearClears : Prop :=
  ∀ (h : Header) (e : StationId) (s : State), Taken h e s → h.target ≠ 0 →
    let may := fun i => s.holdsOn e (·.admin) i || s.holdsOn e (·.power) i
    ∃ t, exec (.slotClear h) s = .next t ∧
      t = { replied h .slotClear .ok (.slotClear ((slotsOf h.target).map fun i =>
          (i, if may i then Status.ok else .denied))) (hear e h.port s) with slots := t.slots } ∧
      ∀ i, t.slot i =
        if maskHas h.target i && may i then
          { s.slot i with record := { (s.slot i).record with causeSet := {}, lastCause := .unattributed } }
        else s.slot i

/-! ## Console capture and history -/

/-- What a byte stored at `next` leaves of a slot's history: the byte is read at its position, every
other ring place reads as before, and the window moves on (R26). -/
def StoredIn (b : Byte) (h k : History) : Prop :=
  k.next = h.next + 1 ∧ k.retained = min 131072 (h.retained + 1) ∧ ringAt k h.next = b ∧
    ∀ p, ringPlace p ≠ ringPlace h.next → ringAt k p = ringAt h p

/-- A receiver that waits takes a start bit under the setup in force, and one that needs mark waits for a
start bit once the line has been at mark (R20, R21, R23, R24). A character that is not all space is
stored and handed on: the history takes its byte, the Silence Timer restarts, the byte and its errors
are counted, and after a framing error the receiver waits for mark (R21, R22, R26, R68). The all-space
frame that returns to mark is a byte 00 with a framing error; a break discards the frame, posts a
BREAK_IN marker and is counted, and so is one that is detected after a framing error, with no frame to
discard; a break that has been taken gives no further one (R23). Where the frame in reception is not yet
held, a return to mark and a break are taken in the same way, which is the model's choice (assumption
37). -/
def Obligations.ReceiverMoves : Prop :=
  ∀ (i : SlotId) (s : State),
    let x := s.slot i
    (x.rx = .waiting → exec (.startBitDetected i) s =
      .next (s.modSlot i fun x => { x with rx := .reception (s.console i) false })) ∧
    (∀ half, x.rx = .needMark half →
      exec (.rxLineAtMark i) s = .next (s.modSlot i fun x => { x with rx := .waiting })) ∧
    ((∃ c held, x.rx = .reception c held) ∨ x.rx = .needMark true →
      exec (.breakDetected i) s = .next (s.modSlot i fun x => { x with
        rx := .needMark false
        hist := postTo x.hist s.now .breakIn
        counters := { x.counters with breaks := bump x.counters.breaks } })) ∧
    (x.rx = .needMark false ∨ x.rx = .waiting → exec (.breakDetected i) s = .next s) ∧
    (x.hist.retained ≤ 131072 → sparseWf 0 x.hist.ring = true →
      (∀ c marks parityMark stopMark, x.rx = .reception c false →
        allSpace c (byteOf c marks) parityMark stopMark = false →
        ∃ t, exec (.consoleCharacterReceived i marks parityMark stopMark) s = .next t ∧
          StoredIn (byteOf c marks) x.hist (t.slot i).hist ∧ (t.slot i).silence = {} ∧
          (t.slot i).counters.received = bump x.counters.received ∧
          (t.slot i).counters.framingErrors =
            (if stopMark then x.counters.framingErrors else bump x.counters.framingErrors) ∧
          (t.slot i).counters.parityErrors =
            (if parityWrong c (byteOf c marks) parityMark then bump x.counters.parityErrors
              else x.counters.parityErrors) ∧
          (t.slot i).rx = (if stopMark then .waiting else .needMark true) ∧ OnlySlot i s t) ∧
      (∀ c held, x.rx = .reception c held →
        ∃ t, exec (.rxReturnToMark i) s = .next t ∧ StoredIn 0 x.hist (t.slot i).hist ∧
          (t.slot i).counters.framingErrors = bump x.counters.framingErrors ∧
          (t.slot i).rx = .needMark true ∧ OnlySlot i s t))

/-- The reply of a read from `start` (R37). -/
def readFrom (i : SlotId) (h : History) (start : Pos) (lost : Option (BitVec 32)) (max : BitVec 16)
    (m : Option Marker) : ReplyData :=
  .read { slot := i, start, oldest := oldest h, next := h.next, gap := lost.isSome, lost := lost.getD 0,
          data := (List.range (min (min max.toNat 1024) (h.next - start).toNat)).map
            fun k => ringAt h (start + BitVec.ofNat 32 k),
          marker := m }

/-- CONSOLE_READ. ABSOLUTE mode reads from the position inside the window, from oldest with GAP before it,
and is refused with RANGE with the window ahead of it (R34). CURSOR mode reads from oldest without a
cursor, from the cursor inside the window, from oldest with GAP otherwise, and with a max of 1 or more
moves the cursor past the bytes returned (R35). MARKER mode reads from the chosen marker's position
moved by the offset and kept inside the window; RANGE when the selector chooses no marker, UNSUPPORTED
for an unknown selector (R33, R36). Nothing but the reply and the cursor changes (R37). -/
def Obligations.ReadsAnswered : Prop :=
  ∀ (h : Header) (e : StationId) (i : SlotId) (max : BitVec 16) (s : State), Taken h e s →
    finOf 8 h.target.toNat = some i → s.holdsOn e (·.read) i = true →
    let x := (s.slot i).hist
    let s1 := hear e h.port s
    let answer := fun cmd st data t => exec cmd s = .next (replied h .consoleRead st data t)
    let moved := fun (start : Pos) =>
      if max = 0 then s1
      else { s1 with
        cursors := upd s1.cursors e fun v => upd v i fun _ =>
          some (start + BitVec.ofNat 32 (min (min max.toNat 1024) (x.next - start).toNat)) }
    (∀ p, let d := (x.next - p).toNat
      let cmd := Instr.consoleReadAbsolute h p max
      (d ≤ x.retained → answer cmd .ok (readFrom i x p none max none) s1) ∧
      (x.retained < d → d ≤ 2 ^ 31 →
        answer cmd .ok (readFrom i x (oldest x) (some (oldest x - p)) max none) s1) ∧
      (x.retained < d → 2 ^ 31 < d → answer cmd .range (.readRange (oldest x) x.next) s1)) ∧
    (let cmd := Instr.consoleReadCursor h max
      let width := (x.next - oldest x).toNat
      (s.cursor e i = none → answer cmd .ok (readFrom i x (oldest x) none max none) (moved (oldest x))) ∧
      (∀ c, s.cursor e i = some c → (c - oldest x).toNat ≤ width →
        answer cmd .ok (readFrom i x c none max none) (moved c)) ∧
      (∀ c, s.cursor e i = some c → width < (c - oldest x).toNat →
        answer cmd .ok (readFrom i x (oldest x) (some (oldest x - c)) max none) (moved (oldest x)))) ∧
    ∀ sel (offset : BitVec 16), let cmd := Instr.consoleReadMarker h sel offset max
      (∀ m, chooseMarker x sel = some m →
        let back := (-offset.toInt).toNat
        let start :=
          if offset.toInt < 0 then
            (if back ≤ (m.position - oldest x).toNat then m.position - BitVec.ofNat 32 back else oldest x)
          else if offset.toInt.toNat ≤ (x.next - m.position).toNat then
            m.position + BitVec.ofNat 32 offset.toInt.toNat
          else x.next
        answer cmd .ok (readFrom i x start none max (some m)) s1) ∧
      (sel ≠ .unknown → chooseMarker x sel = none →
        answer cmd .range (.readRange (oldest x) x.next) s1) ∧
      (sel = .unknown → answer cmd .unsupported .none s1)

/-- HISTORY_CLEAR sets retained to 0 and removes the markers of the slot; `next`, the marker counter, the
ring and every cursor keep their values, no marker is posted and no notice sent, and the reply is OK with
`next`. Without ADMIN on the slot it is refused with DENIED, and a slot outside 0 to 7 with RANGE (R39). -/
def Obligations.HistoryCleared : Prop :=
  ∀ (h : Header) (e : StationId) (s : State), Taken h e s →
    (8 ≤ h.target.toNat →
      exec (.historyClear h) s = .next (replied h .historyClear .range .none (hear e h.port s))) ∧
    ∀ i : SlotId, i.val = h.target.toNat →
      (s.holdsOn e (·.admin) i = true →
        exec (.historyClear h) s = .next (replied h .historyClear .ok (.historyClear (s.slot i).hist.next)
          ((hear e h.port s).modSlot i fun x =>
            { x with hist := { x.hist with retained := 0, markers := [] } }))) ∧
      (s.holdsOn e (·.admin) i = false →
        exec (.historyClear h) s = .next (replied h .historyClear .denied .none (hear e h.port s)))

/-! ## Watch patterns, silence, hold-offs and recovery -/

/-- Command `cmd` completes a character of byte `b` on slot `i`: a frame that is not all space, or an
all-space frame that returns to mark (R21, R23). -/
def Completes (i : SlotId) (cmd : Instr) (b : Byte) (s : State) : Prop :=
  (∃ c marks parityMark stopMark, (s.slot i).rx = .reception c false ∧
    allSpace c (byteOf c marks) parityMark stopMark = false ∧ b = byteOf c marks ∧
    cmd = .consoleCharacterReceived i marks parityMark stopMark) ∨
  (∃ c held, (s.slot i).rx = .reception c held ∧ b = 0 ∧ cmd = .rxReturnToMark i)

/-- The Pattern Matcher walks on each byte that the history has taken (R22, R63). The next state is that
of the row of the matcher's state at the byte's class; the watch action of the state it comes to is none,
held off, or fires. With the matcher off, or no watch action, nothing else follows (R63). A match whose
hold-off is running is counted and takes the matcher to its return state (R65). A match that fires posts
a MATCH marker, sends a PATTERN_MATCH notice and raises a recovery request, each where its watch action
says so, and then starts the hold-off, takes the return state and is counted (R64, R70). Only the slot
and the notice change. A byte also completes with the end of a space, and where the frame in reception is not
yet held that is the model's choice (assumption 37). -/
def Obligations.MatcherWalks : Prop :=
  ∀ (i : SlotId) (cmd : Instr) (b : Byte) (s : State), Completes i cmd b s →
    let x := s.slot i
    let st := (sparseGet factoryRow s.tables.automaton x.matcher.state).getD
      (sparseGet factoryIndex s.tables.classMap b.toNat) 0
    let w := sparseGet factoryIndex s.tables.stateAction st
    let a := s.watchAction w
    let stored := storeByte x.hist b
    let leaves := fun (z : State) (hist : History) (m : Matcher) (r : Recovery) (fired held : Counter) =>
      ∃ t, exec cmd s = .next t ∧ t = { z with slots := t.slots } ∧ (∀ j, j ≠ i → t.slot j = s.slot j) ∧
        t.slot i = { x with
          rx := (t.slot i).rx, hist, matcher := m, silence := {}, recovery := r
          counters := { x.counters with
            received := bump x.counters.received
            parityErrors := (t.slot i).counters.parityErrors
            framingErrors := (t.slot i).counters.framingErrors
            overwritten := if 131072 ≤ x.hist.retained then bump x.counters.overwritten
              else x.counters.overwritten
            matchesFired := fired
            matchesHeld := held } }
    ((s.setup i).matchEnable = false →
      leaves s stored x.matcher x.recovery x.counters.matchesFired x.counters.matchesHeld) ∧
    ((s.setup i).matchEnable = true →
      (w = 0 → leaves s stored { x.matcher with state := st } x.recovery x.counters.matchesFired
        x.counters.matchesHeld) ∧
      (w ≠ 0 → sparseGet none x.matcher.holdOffs w ≠ none →
        leaves s stored { x.matcher with state := a.returnState } x.recovery x.counters.matchesFired
          (bump x.counters.matchesHeld)) ∧
      (w ≠ 0 → sparseGet none x.matcher.holdOffs w = none →
        leaves
          (if a.notify then s.notify (some i)
            (.patternMatch w (x.hist.next + 1) x.record.bootCount a.returnState) else s)
          (if a.mark then postTo stored s.now (.match_ w) else stored)
          { state := a.returnState
            holdOffs := if a.holdOff = 0 then x.matcher.holdOffs
              else sparseSet none x.matcher.holdOffs w (some (s.after (a.holdOff * 1000))) }
          (if a.recover = true ∧ ∀ r ∈ x.recovery.waiting, r.source ≠ .pattern then
            { x.recovery with waiting := x.recovery.waiting ++
              [{ action := a.action, source := .pattern, watch := w, quote := x.record.bootCount }] }
          else x.recovery)
          (bump x.counters.matchesFired) x.counters.matchesHeld))

/-- What makes a slot's Silence Timer count at a unit tick (R67, R68). -/
def Counts (i : SlotId) (s : State) : Prop :=
  s.unitTicks % (s.setup i).silenceUnit = 0 ∧ (s.setup i).silenceEnable = true ∧
    (s.slot i).record.observed = .on ∧ (s.slot i).silence.terminal = false

/-- At a U-second tick the count of an enabled, non-terminal timer of an ON slot grows by 1; a tick that
brings it to the limit makes the timer terminal, with a SILENCE marker, the CONSOLE_SILENT notice and the
recovery request of its watch action, and the count of silences (R68, R69, R70). A hold-off stops running
when bridge time reaches its due time (R65), and an open recovery window closes at its own (R73); before
that their deadline leaves everything as it is, which is the model's reading (assumption 1). -/
def Obligations.WatchTimesPass : Prop :=
  (∀ (i : SlotId) (s : State), Counts i s →
    let x := s.slot i
    let c := s.setup i
    let w := c.silenceAction
    let a := s.watchAction w
    (x.silence.count + 1 < c.silenceLimit →
      exec (.silenceTick i) s =
        .next (s.modSlot i fun x => { x with silence := { x.silence with count := x.silence.count + 1 } })) ∧
    (c.silenceLimit ≤ x.silence.count + 1 → ∀ cmd ∈ [Instr.silenceTick i, .silenceTerminal i],
      exec cmd s = .next
        ((if w ≠ 0 ∧ a.notify = true then
            s.notify (some i) (.consoleSilent w c.silenceLimit c.silenceUnit x.hist.next)
          else s).modSlot i fun x => { x with
            silence := { count := c.silenceLimit, terminal := true }
            hist := postTo x.hist s.now (.silence w)
            recovery := if w ≠ 0 ∧ a.recover = true ∧ (∀ r ∈ x.recovery.waiting, r.source ≠ .silence) then
                { x.recovery with waiting := x.recovery.waiting ++
                  [{ action := a.action, source := .silence, watch := w, quote := x.record.bootCount }] }
              else x.recovery
            counters := { x.counters with silences := bump x.counters.silences } }))) ∧
  ∀ (i : SlotId) (s : State),
    (∀ w due, sparseGet none (s.slot i).matcher.holdOffs w = some due →
      (reached due s.now = true → exec (.holdOffExpiry i w) s = .next (s.modSlot i fun x =>
        { x with matcher := { x.matcher with holdOffs := sparseSet none x.matcher.holdOffs w none } })) ∧
      (reached due s.now = false → exec (.holdOffExpiry i w) s = .next s)) ∧
    (∀ v, (s.slot i).recovery.window = some v →
      (reached v.closes s.now = true → exec (.recoveryWindowClose i) s = .next (s.modSlot i fun x =>
        { x with recovery := { x.recovery with window := none } })) ∧
      (reached v.closes s.now = false → exec (.recoveryWindowClose i) s = .next s))

/-- A recovery request that passes the seven tests is started: it leaves the waiting requests, its
window is opened or counts one more, the pending cause is the request's, the action is accepted, and
a RECOVERY_STARTED notice with the window is the last of its notices (R71, R72, R73, R74). One that fails
a test is declined: it leaves the waiting requests, a RECOVERY_DECLINED notice with the reason of the
first test that failed is sent and counted, and nothing else changes (R71, R74). -/
def Obligations.RecoveryDecided : Prop :=
  ∀ (i : SlotId) (r : RecoveryRequest) (rest : List RecoveryRequest) (s : State),
    let x := s.slot i
    let c := s.setup i
    let left := x.recovery.window
    let w : Window := match left with
      | some w => { w with count := w.count + 1 }
      | none => { start := s.now, count := 1, closes := s.after (c.windowHours * 3600000) }
    x.recovery.waiting = r :: rest →
    (c.armed = true → c.powerControl = true → seqBusy x.seq.state = false → s.localPassing i = false →
      windowCount left < c.recoveryLimit → r.quote = x.record.bootCount →
      linesEnabled (recoveryStep r.action) c (s.profile c.profile) = true →
      (r.action = .reset → x.record.observed = .on) →
      ∃ z, OnlySlot i s z ∧
        exec (.recoveryRequestTaken i) s = .next
          ((z.notify (some i) (.recoveryStarted r.action r.source r.watch w.count w.closes)).modSlot i fun x =>
            { x with counters := { x.counters with recoveriesStarted := bump x.counters.recoveriesStarted } }) ∧
        (z.slot i).recovery = { waiting := rest, window := some w } ∧
        (z.slot i).record.pendingCause = some (recoveryCause r.source) ∧
        (z.slot i).counters.recoveriesStarted = x.counters.recoveriesStarted ∧
        (z.slot i).counters.accepted = bump x.counters.accepted ∧
        ∀ q, (z.slot i).seq.record = some q → q.action = recoveryStep r.action ∧
          q.origin = .recovery r.source ∧ q.profile = c.profile ∧ q.accepted = s.now) ∧
    (let tests : List (Prop × DeclineReason) := [
      (c.armed = false ∨ c.powerControl = false, .disarmed),
      (seqBusy x.seq.state = true, .busySequencer x.seq.state),
      (s.localPassing i = true, .busyLocal),
      (c.recoveryLimit ≤ windowCount left,
        .exhausted (windowCount left) c.recoveryLimit (left.map (·.closes))),
      (r.quote ≠ x.record.bootCount, .stale r.quote x.record.bootCount),
      (linesEnabled (recoveryStep r.action) c (s.profile c.profile) = false ∨
        (r.action = .reset ∧ x.record.observed ≠ .on), .state)]
    ∀ (before after : List (Prop × DeclineReason)) (test : Prop × DeclineReason),
      tests = before ++ test :: after → (∀ y ∈ before, ¬ y.1) → test.1 →
      exec (.recoveryRequestTaken i) s = .next
        ((s.notify (some i) (.recoveryDeclined r.action r.source r.watch test.2)).modSlot i fun x => { x with
          recovery := { x.recovery with waiting := rest }
          counters := { x.counters with recoveriesDeclined := bump x.counters.recoveriesDeclined } }))

/-! ## Console input and the holder -/

/-- What the transmitter sends next, and the items left, when it has nothing to send (R43 to R45). -/
def afterItem (c : ConsoleSetup) (s : State) (items : List InputItem) (q : InputQueue) : InputQueue :=
  match items with
  | [] => { q with items := [], tx := .idle }
  | .byte b :: rest => { q with items := rest, tx := .byte b c.baud (frameBits c b) }
  | .brk d :: rest => { q with items := rest, tx := .breakSpace (s.after d) }

/-- The end of a byte's last stop bit and the end of a break's bit time of mark each count their item and
take the head item or leave the transmitter idle (R43, R44, R45); at the end of a break's duration the
line returns to mark for one bit time (R45). -/
def Obligations.TransmitterMoves : Prop :=
  ∀ (i : SlotId) (s : State),
    let c := s.console i
    (∀ b baud bits, (s.slot i).input.tx = .byte b baud bits →
      exec (.txByteFinished i) s = .next (s.modSlot i fun x => { x with
        input := afterItem c s x.input.items x.input
        counters := { x.counters with txBytes := bump x.counters.txBytes } })) ∧
    (∀ baud, (s.slot i).input.tx = .breakMark baud →
      exec (.breakItemFinished i) s = .next (s.modSlot i fun x => { x with
        input := afterItem c s x.input.items x.input
        counters := { x.counters with txBreaks := bump x.counters.txBreaks } })) ∧
    (∀ due, (s.slot i).input.tx = .breakSpace due → reached due s.now = true →
      exec (.breakItemDeadline i) s =
        .next (s.modSlot i fun x => { x with input := { x.input with tx := .breakMark c.baud } }))

/-- The hypotheses of a CONSOLE_HOLD, CONSOLE_WRITE or CONSOLE_BREAK that reaches its form: it is taken,
names slot `i`, and its entry holds TYPE on it (R47, R54). -/
def Types (h : Header) (e : StationId) (i : SlotId) (s : State) : Prop :=
  Taken h e s ∧ finOf 8 h.target.toNat = some i ∧ s.holdsOn e (·.type) i = true

/-- TAKE on a slot without a holder and FORCE on a slot that another entry or none holds are granted:
the entry becomes the holder with input count 0 and its idle deadline armed, with one HOLDER marker and
one HOLDER_CHANGED notice; items and transmitter stay (R46, R48, R49). RENEW, TAKE and FORCE from the
holder arm the idle deadline anew and change nothing else; RENEW and RELEASE from another entry are
refused with STATE, TAKE with BUSY, and change nothing (R48 to R51). That the reply stands before the
notices is the model's reading (assumption 10). -/
def Obligations.HoldDecided : Prop :=
  ∀ (h : Header) (e : StationId) (i : SlotId) (s : State), Types h e i s →
    let s1 := hear e h.port s
    let q := (s.slot i).input
    let granted := fun cmd why => exec cmd s = .next
      (((replied h .consoleHold .ok (.hold (some e) 0 (some (s.idleDue i))) s1).modSlot i fun x => { x with
        hist := postTo x.hist s.now (.holder (some e))
        input := { x.input with holder := some e, count := 0, idleDue := some (s.idleDue i) } }).notify
          (some i) (.holderChanged q.holder (some e) why 0))
    (q.holder = none → granted (.consoleHoldTake h) .take) ∧
    (q.holder ≠ some e → (s.station e).rights.force = true → granted (.consoleHoldForce h) .force) ∧
    (q.holder = some e →
      ∀ cmd ∈ [Instr.consoleHoldRenew h, .consoleHoldTake h] ++
          (if (s.station e).rights.force then [.consoleHoldForce h] else []),
        exec cmd s = .next (replied h .consoleHold .ok (.hold (some e) q.count (some (s.idleDue i)))
          (s1.modSlot i fun x => { x with input := { x.input with idleDue := some (s.idleDue i) } }))) ∧
    (q.holder ≠ some e → ∀ cmd ∈ [Instr.consoleHoldRenew h, .consoleHoldRelease h],
      exec cmd s = .next (replied h .consoleHold .state (.hold q.holder q.count q.idleDue) s1)) ∧
    (∀ e', q.holder = some e' → e' ≠ e →
      exec (.consoleHoldTake h) s = .next (replied h .consoleHold .busy (.hold q.holder q.count q.idleDue) s1))

/-- A slot whose holding has just ended: no holder, the deadline disarmed, the input count kept, and a
HOLDER marker (R46). -/
def holdingEnded (now : Time) (x : Slot) : Slot :=
  { x with
    hist := postTo x.hist now (.holder none)
    input := { x.input with holder := none, idleDue := none } }

/-- The holder's RELEASE and the expiry of the idle deadline end the holding: no holder, the deadline
disarmed, the input count kept, one HOLDER marker and one HOLDER_CHANGED notice (R46, R50, R52). That the
reply stands before the notices is the model's reading (assumption 10). -/
def Obligations.HoldEnded : Prop :=
  ∀ (i : SlotId) (s : State),
    let q := (s.slot i).input
    (∀ h e, Types h e i s → q.holder = some e →
      exec (.consoleHoldRelease h) s = .next
        (((replied h .consoleHold .ok (.hold none q.count none) (hear e h.port s)).modSlot i
          (holdingEnded s.now)).notify (some i) (.holderChanged (some e) none .release q.count))) ∧
    (∀ e due, q.holder = some e → q.idleDue = some due → reached due s.now = true →
      exec (.holderIdleExpiry i) s = .next
        ((s.modSlot i (holdingEnded s.now)).notify (some i) (.holderChanged (some e) none .idle q.count)))

/-- The queue and transmitter once some items have joined the tail: an idle transmitter takes the head
(R43). -/
def joined (c : ConsoleSetup) (s : State) (xs : List InputItem) (q : InputQueue) : InputQueue :=
  if q.tx = .idle then afterItem c s (q.items ++ xs) q else { q with items := q.items ++ xs }

/-- The holder's CONSOLE_WRITE that quotes the input count queues as many of its bytes as there is free
space and counts them; one that quotes another count is STALE and only renews the deadline; an entry
that is not the holder gets STATE with the holder (R54, R55). The holder's CONSOLE_BREAK that quotes the
input count queues a break of the duration brought into 10 to 2000 ms; with no free space it is refused
with FULL, and only the idle deadline moves (R56). Without TYPE on the slot both are DENIED, and a
CONSOLE_WRITE of no byte, of more than 512 bytes, or whose count is not that of its bytes is MALFORMED
(R54). Every reply of a CONSOLE_WRITE carries the accepted count, the input count and the free space;
those of a CONSOLE_BREAK carry the count and the space with OK and STALE (R54, R56). That an entry whose
holding a station write has ended is DENIED where it has lost TYPE or the slot, though the manual says STATE of it
elsewhere (R53), is the model's choice (assumption 52). -/
def Obligations.InputQueued : Prop :=
  ∀ (h : Header) (e : StationId) (i : SlotId) (quote : BitVec 32) (s : State), Taken h e s →
    finOf 8 h.target.toNat = some i →
    let s1 := hear e h.port s
    let q := (s.slot i).input
    let free := 256 - q.items.length
    let typed := s.holdsOn e (·.type) i
    let renewed := s1.modSlot i fun x => { x with input := { x.input with idleDue := some (s.idleDue i) } }
    let space := fun (q : InputQueue) => 256 - q.items.length
    let into := fun (y : InputQueue) (z : State) => z.modSlot i fun x => { x with input := y }
    (∀ (count : BitVec 16) (bytes : List Byte),
      let answers := fun st d z =>
        exec (.consoleWrite h quote count bytes) s = .next (replied h .consoleWrite st d z)
      (count = 0 ∨ 512 < count.toNat ∨ count.toNat ≠ bytes.length → answers .malformed (.write 0 q.count free) s1) ∧
      (1 ≤ count.toNat → count.toNat ≤ 512 → count.toNat = bytes.length →
        let n := min bytes.length free
        let total := q.count + BitVec.ofNat 32 n
        let y := joined (s.console i) s ((bytes.take n).map .byte)
          { q with count := total, idleDue := some (s.idleDue i) }
        (typed = false → answers .denied (.write 0 q.count free) s1) ∧
        (typed = true → q.holder ≠ some e → answers .state (.writeHeld 0 q.count free q.holder) s1) ∧
        (typed = true → q.holder = some e → quote ≠ q.count →
          answers .stale (.write 0 q.count free) renewed) ∧
        (typed = true → q.holder = some e → quote = q.count →
          answers .ok (.write n total (space y)) (into y s1)))) ∧
    ∀ duration : BitVec 16,
      let answers := fun st d z =>
        exec (.consoleBreak h quote duration) s = .next (replied h .consoleBreak st d z)
      let d := max 10 (min duration.toNat 2000)
      let y := joined (s.console i) s [.brk d] { q with idleDue := some (s.idleDue i) }
      (typed = false → answers .denied .none s1) ∧
      (typed = true → q.holder ≠ some e → answers .state (.brkHeld q.holder) s1) ∧
      (typed = true → q.holder = some e → quote ≠ q.count → answers .stale (.brkStale q.count free) renewed) ∧
      (typed = true → q.holder = some e → quote = q.count →
        (q.items.length < 256 → answers .ok (.brk d q.count (space y)) (into y s1)) ∧
        (256 ≤ q.items.length → answers .full .none renewed))

/-! ## Front-panel lines -/

/-- The record of a slot after a boot observation (R9). -/
def booted (r : SlotRecord) : SlotRecord :=
  let cause := match r.pendingCause with
    | some c => causeOf c
    | none => .unattributed
  { r with
    bootCount := r.bootCount + 1
    lastCause := cause
    causeSet := addCause cause r.causeSet
    pendingCause := none }

/-- A slot after a boot observation that no sequence hears: the record, the BOOT marker, and what the
Input Queue, the Pattern Matcher and the Silence Timer do (R9, R10, R57, R66, R68). -/
def bootedSlot (i : SlotId) (s : State) (x : Slot) : Slot :=
  { x with
    record := booted x.record
    hist := postTo x.hist s.now (.boot (booted x.record).bootCount (booted x.record).lastCause)
    input := if (s.console i).flushOnBoot then { x.input with items := [] } else x.input
    matcher := if (s.setup i).resetOnBoot then { x.matcher with state := (s.setup i).startState } else x.matcher
    silence := {}
    counters := if (s.console i).flushOnBoot then
        { x.counters with flushed := bumpBy x.input.items.length x.counters.flushed }
      else x.counters }

/-- The boots-left rule does nothing at a boot of slot `i`: no unit is bound to it that presents under a
setup that counts boots (R144). -/
def BootsFree (i : SlotId) (s : State) : Prop :=
  ∀ u, s.unitOf i = some u → (s.unit u).state = .presenting → (s.unitSetup u).presentBoots = 0

/-- What the notice of a sequence's end carries besides its outcome, from the sequence record `r` and the
slot's boot record (R120). -/
def endFields (r : SeqRecord) (step : Option Step) (x : SlotRecord) : SequenceEnd :=
  { action := r.action, origin := r.origin, profile := r.profile, step, escalated := r.escalated
    gate := r.gate, accepted := r.accepted, bootCount := x.bootCount, observed := x.observed }

/-- The sequence of slot `i`, whose record is `r`, finishes (R118, R120). -/
def finished (i : SlotId) (r : SeqRecord) (s : State) : State :=
  (s.modSlot i fun x => { x with
    seq := {}
    hist := postTo x.hist s.now (.sequence r.action .done)
    counters := { x.counters with done := bump x.counters.done } }).notify
      (some i) (.sequenceDone (endFields r none (s.slot i).record))

/-- The sequence of slot `i`, whose record is `r` and whose claim on RST_OUT, if it had one, has been
withdrawn, halts: PWR_OUT is released, and a marker and a SEQUENCE_HALTED notice follow (R118, R120). -/
def haltedNow (i : SlotId) (why : HaltReason) (r : SeqRecord) (s : State) : State :=
  (s.modSlot i fun x => { x with
    lines := { x.lines with pwrSeq := false }
    seq := { state := .halted why, record := none }
    hist := postTo x.hist s.now (.sequence r.action (.halted why))
    counters := { x.counters with halted := bump x.counters.halted } }).notify
      (some i) (.sequenceHalted why (endFields r (some r.current) (s.slot i).record))

/-- The POWER_CHANGED notice of a boot observation of slot `i` whose record was `r`, observed `before`
(R6, R9). -/
def bootNotice (i : SlotId) (before : Power) (r : SlotRecord) (s : State) : State :=
  s.notify (some i) (.powerChanged before .on true (booted r).bootCount (booted r).lastCause)

/-- The state after the sequence of slot `i` has withdrawn the only claim on RST_OUT: on a slot that is ON
with the reset-while-on flag set that is a boot observation, and the flag is cleared (R8, R9, R79). -/
def rstReleased (i : SlotId) (s : State) : State :=
  let x := s.slot i
  let cleared := fun (x : Slot) => { x with
    lines := { x.lines with rstSeq := false }
    record := { x.record with resetWhileOn := false } }
  if x.record.observed = .on ∧ x.record.resetWhileOn = true then
    bootNotice i .on x.record (s.modSlot i fun x => bootedSlot i s (cleared x))
  else s.modSlot i cleared

/-- The state after the start PRESS of slot `i`, without a charge, begins behind a GATE with outcome `g`:
PWR_OUT is asserted for the tap width, and EXPECT_HIGH follows (R106, R109, R114). -/
def pressBegun (g : GateOutcome) (r : SeqRecord) (s : State) (x : Slot) : Slot :=
  { x with
    lines := { x.lines with pwrSeq := true }
    seq := { state := .stepping
             record := some { r with
               gate := some g
               current := .press .start
               steps := [.expectHigh]
               deadline := some (s.after (s.profile r.profile).tapWidth) } } }

/-- The GATE of slot `i`, whose record is `r`, ends with outcome `g`: a RESET releases RST_OUT and finishes,
and any other sequence goes on to its start PRESS (R114, R116, R118). -/
def gatePassed (i : SlotId) (g : GateOutcome) (r : SeqRecord) (s : State) : State :=
  if r.steps = [.releaseRst] then finished i { r with gate := some g } (rstReleased i s)
  else s.modSlot i (pressBegun g r s)

/-- The GATE of slot `i` fails: under REQUIRE the sequence halts GATE_FAILED, a RESET releasing RST_OUT, and
else the GATE is waived (R113, R118). -/
def gateFailed (i : SlotId) (r : SeqRecord) (s : State) : State :=
  if (s.profile r.profile).gate = .require then
    haltedNow i .gateFailed r (if r.steps = [.releaseRst] then rstReleased i s else s)
  else gatePassed i .waived r s

/-- The sequencer of slot `i` is told that its unit will not be primed (R113). -/
def gateTold (i : SlotId) (s : State) : State :=
  match (s.slot i).seq with
  | { state := .waitGate, record := some r } => gateFailed i r s
  | _ => s

/-- The sequence of slot `i` waits, with record `r`, in the GATE of a RESET, or in one before a start PRESS
without a charge of a slot in STANDBY. -/
def WaitsAtGate (i : SlotId) (r : SeqRecord) (s : State) : Prop :=
  let x := s.slot i
  x.seq = { state := .waitGate, record := some r } ∧ r.current = .gate ∧ i ∉ waitingSlots s ∧
    (r.steps = [.releaseRst] ∧ x.lines.rstSeq = true ∧ x.lines.rstLocal = false ∨
      r.steps = [.press .start, .expectHigh] ∧ (s.profile r.profile).startCharge = 0 ∧
        x.record.observed = .standby ∧ x.lines.rstSeq = false)

/-- The sequence of slot `i`, should it wait in a GATE, does so on unit `u`, as `WaitsAtGate` says. -/
def GateKnown (u : UnitId) (i : SlotId) (s : State) : Prop :=
  (s.slot i).seq.state = .waitGate → s.unitOf i = some u ∧ ∃ r, WaitsAtGate i r s

/-- A GATE of slot `i` under profile `p` fails as it is entered: the bound unit does not present, or its
prime has ended in failure, or has been abandoned (R112). -/
def GateFails (p : Profile) (i : SlotId) (s : State) : Prop :=
  p.gate ≠ .none ∧ ∃ u, s.unitOf i = some u ∧
    ((s.unit u).state ≠ .presenting ∨ (s.unit u).prime = .failed ∨ (s.unit u).prime = .none)

/-- A GATE of slot `i` under profile `p` waits as it is entered (R112). -/
def GateWaits (p : Profile) (i : SlotId) (s : State) : Prop :=
  p.gate ≠ .none ∧ ∃ u, s.unitOf i = some u ∧ (s.unit u).state = .presenting ∧ (s.unit u).prime = .running

/-- A GATE of slot `i` under profile `p` passes as it is entered, with outcome `g` (R112, R113). -/
def GatePasses (g : GateOutcome) (p : Profile) (i : SlotId) (s : State) : Prop :=
  match g with
  | .notApplied => p.gate = .none ∨ s.unitOf i = none
  | .primed => p.gate ≠ .none ∧ ∃ u, s.unitOf i = some u ∧ (s.unit u).state = .presenting ∧
      (s.unit u).prime = .done
  | .waived => p.gate = .wait ∧ GateFails p i s

/-- The detach of unit `u`, bound to slot `i`, in a state `s` in which it holds `held` overlay blocks
(R142, R158): it is DETACHED but for its counters and its boots left, its overlay blocks are back in the
pool, it has no fetch record and no cache line, and one MEDIA_STATE notice goes out; where no unit waits
for a fetch record, nothing of another unit changes and no fetch is issued. -/
def Detached (u : UnitId) (i : SlotId) (why : Option EjectReason) (held : Nat) (s t : State) : Prop :=
  t.unit u = { counters := (t.unit u).counters, bootsLeft := (s.unit u).bootsLeft } ∧
    t.poolFree = s.poolFree + held ∧ (∀ l ∈ t.cache, l.unit ≠ u) ∧ (∀ r ∈ t.fetch.records, r.unit ≠ u) ∧
    t.noticeNumber = s.noticeNumber + 1 ∧
    (s.fetch.issue = [] →
      t = { s.notify (some i) (.mediaState u .detached .detached why 0) with
        slots := t.slots, units := t.units, cache := t.cache, fetch := t.fetch, poolFree := t.poolFree } ∧
      ∀ v, v ≠ u → t.unit v = s.unit v)

/-- The eject of unit `u`, presenting to slot `i` (R141, R142, R158). One MEDIA_STATE notice goes out, and
a GATE of the slot that waits on the unit fails. With a request in flight the unit is then EJECTING for
reason `why`, its prime abandoned. Else the detach follows, with a second notice. -/
def Ejected (u : UnitId) (i : SlotId) (why : EjectReason) (s t : State) : Prop :=
  let m := s.unit u
  let started := gateTold i (s.notify (some i) (.mediaState u .ejecting .ejecting (some why) (heldCount m)))
  let stopped := m.prime = .running
  t.slots = started.slots ∧ t.tables = s.tables ∧
    ((s.slot i).port.inFlight ≠ none →
      t = { started with units := t.units, cache := t.cache, fetch := t.fetch } ∧
      t.unit u = { m with
        state := .ejecting
        ejectReason := some why
        prime := if stopped then .none else m.prime
        primeImages := if stopped then [] else m.primeImages } ∧
      t.fetch.records = s.fetch.records ∧ ∀ v, v ≠ u → t.unit v = s.unit v) ∧
    ((s.slot i).port.inFlight = none →
      Detached u i (some why) (heldCount m) started t ∧ (t.unit u).counters = m.counters)

/-- When the filter deadline of a slot with FEED raised expires, the PG edge is logged. A rise to ON is a
boot observation, with all its updates, a POWER_CHANGED notice and the reactions of the slot's blocks
(R5, R6, R8, R9, R10, R83, R93); then the boots-left rule of the bound unit counts the boot or, at 0,
ejects the unit (R144), or an EXPECT_HIGH that is the last step is met and its sequence finishes (R110).
A fall from ON to STANDBY sends POWER_CHANGED, clears the reset-while-on flag and restarts the Silence
Timer (R6, R8, R68); an EXPECT_LOW is then met, and its sequence finishes or waits in the off dwell that
follows (R111). POWER_CHANGED goes before the sequence's notice, which is the model's choice (assumption
38). With FEED dropped nothing but the filter and the log changes. -/
def Obligations.PgReported : Prop :=
  ∀ (i : SlotId) (s : State) (due : Time),
    let x := s.slot i
    let seen := fun (assert : Bool) (y : Slot) =>
      { y with
        pg := { x.pg with filtered := assert, due := none }
        log := captureEdge .pg assert s.now x.log }
    let up := bootNotice i .standby x.record (s.modSlot i fun x =>
      seen true (bootedSlot i s { x with record := { x.record with observed := .on } }))
    let down := (s.modSlot i fun x => seen false { x with
      record := { x.record with observed := .standby, resetWhileOn := false }
      silence := {} }).notify (some i)
        (.powerChanged .on .standby false x.record.bootCount x.record.lastCause)
    let stepping := fun (r : SeqRecord) => x.seq = { state := .stepping, record := some r }
    x.pg.due = some due → reached due s.now = true →
    (x.lines.feed = true → s.pgRaw i = true → x.record.observed = .standby →
      (Quiet i s →
        (BootsFree i s → exec (.pgFilterExpiry i) s = .next up) ∧
        (∀ u, s.unitOf i = some u → (s.unit u).state = .presenting → (s.unitSetup u).presentBoots ≠ 0 →
          ((s.unit u).bootsLeft ≠ 0 → exec (.pgFilterExpiry i) s =
            .next (up.modUnit u fun m => { m with bootsLeft := m.bootsLeft - 1 })) ∧
          ((s.unit u).bootsLeft = 0 → ∃ t, exec (.pgFilterExpiry i) s = .next t ∧
            Ejected u i .bootsUsed up t))) ∧
      (∀ r, stepping r → r.current = .expectHigh → r.steps = [] → BootsFree i s →
        exec (.pgFilterExpiry i) s = .next (finished i r up))) ∧
    (x.lines.feed = true → s.pgRaw i = false → x.record.observed = .on →
      (Quiet i s → exec (.pgFilterExpiry i) s = .next down) ∧
      (∀ r soft, stepping r → r.current = .expectLow soft →
        (r.steps = [] → exec (.pgFilterExpiry i) s = .next (finished i r down)) ∧
        (∀ more, r.steps = .dwell .off :: more → exec (.pgFilterExpiry i) s =
          .next (down.modSlot i fun x => { x with seq := { x.seq with record := some { r with
            current := .dwell .off
            steps := more
            deadline := some (s.after ((s.profile r.profile).offDwell * 1000)) } } })))) ∧
    (x.lines.feed = false → x.record.observed = .feedOff →
      exec (.pgFilterExpiry i) s = .next (s.modSlot i (seen (s.pgRaw i))))

/-- The slot with one button's classifier and the log changed. -/
def withButton (b : Button) (c : Classifier) (l : LineLog) (x : Slot) : Slot :=
  match b with
  | .pwr => { x with pwrBtn := c, log := l }
  | .rst => { x with rstBtn := c, log := l }

/-- The slot with one button's counters changed (R96). -/
def countedAt (b : Button) (f : ButtonCounters → ButtonCounters) (x : Slot) : Slot :=
  match b with
  | .pwr => { x with counters := { x.counters with pwrIn := f x.counters.pwrIn } }
  | .rst => { x with counters := { x.counters with rstIn := f x.counters.rstIn } }

/-- The slot with one button's classifier in a state. -/
def inClass (b : Button) (st : ClassState) (x : Slot) : Slot :=
  withButton b { btnOf x b with state := st } x.log x

/-- A raw PG change that makes the line differ from the filtered state arms the filter deadline; one that
makes it equal again disarms it and counts a glitch (R83). A pin already at the level does not change,
which is the model's reading (assumption 32).
A press edge of a released button whose input has been seen released records the press with its
thresholds and deadlines and enters PENDING; a release edge of a PENDING press is a glitch (R86, R88). A
release edge in RELEASED, of a button held down through a reset, makes its input seen released (R86). Each
button edge is logged (R93), and nothing else changes. -/
def Obligations.EdgesTaken : Prop :=
  ∀ (i : SlotId) (s : State),
    (∀ high : Bool,
      let x := s.slot i
      let raw := high == (s.setup i).pgHigh
      (x.pg.pin ≠ high → raw ≠ x.pg.filtered → x.pg.due = none →
        exec (.pgRawChange i high) s = .next (s.modSlot i fun x =>
          { x with pg := { x.pg with pin := high, due := some (s.after (s.setup i).pgFilter) } })) ∧
      (x.pg.pin ≠ high → raw = x.pg.filtered → x.pg.due ≠ none →
        exec (.pgRawChange i high) s = .next (s.modSlot i fun x =>
          { x with
            pg := { x.pg with pin := high, due := none }
            counters := { x.counters with pgGlitches := bump x.counters.pgGlitches } })) ∧
      (x.pg.pin = high → exec (.pgRawChange i high) s = .next s)) ∧
    ∀ b : Button,
      let c := btnOf (s.slot i) b
      let t := s.tables.bridge.limits
      let log := fun up => captureEdge (lineOf b) up s.now (s.slot i).log
      (c.pressed = false → c.seen = true → c.state = .released →
        exec (.buttonPressEdge i b) s = .next (s.modSlot i (withButton b
          { pressed := true
            seen := true
            state := .pending
              { time := s.now, limits := t, glitchDue := s.after t.glitch, stuckDue := s.after t.stuck } }
          (log true)))) ∧
      (∀ p, c.pressed = true → c.state = .pending p →
        exec (.buttonReleaseEdge i b) s = .next (s.modSlot i fun x =>
          countedAt b (fun k => { k with glitches := bump k.glitches })
            (withButton b { pressed := false, seen := true, state := .released } (log false) x))) ∧
      (c.pressed = true → c.state = .released →
        exec (.buttonReleaseEdge i b) s = .next (s.modSlot i (withButton b
          { pressed := false, seen := true, state := .released } (log false))))

/-- At the glitch deadline a PENDING press of either button is BLOCKED, with its reason in the order MODE,
SEQUENCE, DISABLED, a LOCAL_PRESS notice and a count, or becomes PASSING: the local claim asserts the
output, the pending cause becomes LOCAL_BUTTON and the press is counted; a passing RST_IN press of a slot
that is ON also sets the reset-while-on flag (R8, R11, R79, R87, R91). -/
def Obligations.PressDecided : Prop :=
  ∀ (i : SlotId) (b : Button) (p : Press) (s : State), reached p.glitchDue s.now = true →
    (btnOf (s.slot i) b).state = .pending p →
    let x := s.slot i
    let c := s.setup i
    let enabled := match b with
      | .pwr => c.pwrOut.enable
      | .rst => c.rstOut.enable
    let passing := fun (x : Slot) => countedAt b (fun k => { k with passed := bump k.passed })
      (inClass b (.passing p) { x with record := { x.record with pendingCause := some .localButton } })
    (c.panel = .pass → seqBusy x.seq.state = false → enabled = true →
      (b = .pwr → exec (.glitchDeadline i b) s = .next (s.modSlot i fun x =>
        passing { x with lines := { x.lines with pwrLocal := true } })) ∧
      (b = .rst → rstAsserted x.lines = false → exec (.glitchDeadline i b) s = .next (s.modSlot i fun x =>
        passing { x with
          lines := { x.lines with rstLocal := true }
          record := { x.record with
            resetWhileOn := if x.record.observed = .on then true else x.record.resetWhileOn } }))) ∧
    (∀ r, r = (if c.panel = .block then BlockReason.mode else if seqBusy x.seq.state then .sequence
          else .disabled) →
      (c.panel = .block ∨ seqBusy x.seq.state = true ∨ enabled = false) →
      exec (.glitchDeadline i b) s = .next ((s.modSlot i fun x =>
        countedAt b (fun k => { k with blocked := bump k.blocked }) (inClass b (.blocked p r) x)).notify
          (some i) (.localPress b .blocked false (some r) none p.time)))

/-- The release of a passed PWR_IN press releases PWR_OUT, posts a LOCAL_PRESS marker of its class and
sends one notice with the class and the width (R88, R91); the stuck deadline of a passed PWR_IN press does
the same with the class STUCK and leaves it STUCK, counted (R90). The release of a passed RST_IN press, and
its stuck deadline, release RST_OUT first: on a server that was ON for the whole press, with no sequence
running, that is a boot observation (R8, R88, R90). The release of a BLOCKED press sends the notice of its
class with the block reason and posts no marker (R89); its stuck deadline posts the marker and leaves it
STUCK (R90); the release of a STUCK press sends STUCK_CLEARED (R91). That a STUCK press releases its
output before its marker is posted is the model's reading (assumption 21). -/
def Obligations.PressesEnd : Prop :=
  ∀ (i : SlotId) (b : Button) (p : Press) (s : State),
    let x := s.slot i
    let st := (btnOf x b).state
    let width := s.now - p.time
    let tap := decide (width.toNat < p.limits.hold)
    let cls := if tap then PressClass.tap else .hold
    let ev := if tap then PressEvent.tap else .hold
    let up := fun (x : Slot) => withButton b { pressed := false, seen := true, state := .released }
      (captureEdge (lineOf b) false s.now x.log) x
    let marked := fun (c : PressClass) (x : Slot) => { x with hist := postTo x.hist s.now (.localPress b c) }
    let stuck := fun (r : Option BlockReason) (x : Slot) =>
      countedAt b (fun k => { k with stuck := bump k.stuck }) (inClass b (.stuck p r) (marked .stuck x))
    let told := fun ev r w (z : State) => z.notify (some i) (.localPress b ev (decide (r = none)) r w p.time)
    let pwr := fun (x : Slot) => { x with lines := { x.lines with pwrLocal := false } }
    let rst := fun (x : Slot) => { x with
      lines := { x.lines with rstLocal := false }
      record := { x.record with resetWhileOn := false } }
    let boots := x.record.observed = .on ∧ x.record.resetWhileOn = true
    let reset := b = .rst ∧ x.lines.rstLocal = true ∧ x.lines.rstSeq = false
    (b = .pwr → st = .passing p →
      (x.pwrBtn.pressed = true → exec (.buttonReleaseEdge i b) s =
        .next (told ev none (some width) (s.modSlot i fun x => up (marked cls (pwr x))))) ∧
      (reached p.stuckDue s.now = true → exec (.stuckDeadline i b) s =
        .next (told .stuck none none (s.modSlot i fun x => stuck none (pwr x))))) ∧
    (reset → st = .passing p →
      (¬ boots → x.rstBtn.pressed = true → exec (.buttonReleaseEdge i b) s =
        .next (told ev none (some width) (s.modSlot i fun x => up (marked cls (rst x))))) ∧
      (¬ boots → reached p.stuckDue s.now = true → exec (.stuckDeadline i b) s =
        .next (told .stuck none none (s.modSlot i fun x => stuck none (rst x)))) ∧
      (boots → Quiet i s → BootsFree i s →
        (x.rstBtn.pressed = true → exec (.buttonReleaseEdge i b) s =
          .next (told ev none (some width) (bootNotice i .on x.record
            (s.modSlot i fun x => up (marked cls (bootedSlot i s (rst x))))))) ∧
        (reached p.stuckDue s.now = true → exec (.stuckDeadline i b) s =
          .next (told .stuck none none (bootNotice i .on x.record
            (s.modSlot i fun x => stuck none (bootedSlot i s (rst x))))))) ∧
      (boots → Quiet i s → x.rstBtn.pressed = true →
        ∃ t, exec (.buttonReleaseEdge i b) s = .next t ∧ (∀ j, j ≠ i → t.slot j = s.slot j) ∧
          (t.slot i).record = booted { x.record with resetWhileOn := false } ∧
          (t.slot i).lines = { x.lines with rstLocal := false } ∧ (t.slot i).rstBtn.state = .released)) ∧
    (∀ r, st = .blocked p r →
      ((btnOf x b).pressed = true → exec (.buttonReleaseEdge i b) s =
        .next (told ev (some r) (some width) (s.modSlot i up))) ∧
      (reached p.stuckDue s.now = true → exec (.stuckDeadline i b) s =
        .next (told .stuck (some r) none (s.modSlot i (stuck (some r)))))) ∧
    (∀ r, st = .stuck p r → (btnOf x b).pressed = true →
      exec (.buttonReleaseEdge i b) s = .next (told .stuckCleared r (some width) (s.modSlot i up)))

/-- At a unit tick: a last-assert time whose age is 2^31 ms or more is made absent (R94), the cold mark of
a slot whose feed dropped time is 60,000 ms old or more is set (R126), expired charges leave the Active
Charge List, and a last start time 5,000 ms old or more is made absent (R133). Nothing else changes. -/
def Obligations.UnitTickUpkeep : Prop :=
  ∀ (i : SlotId) (s : State),
    let aged := fun (t : Option Time) => match t with
      | some a => if (s.now - a).toNat < 2 ^ 31 then some a else none
      | none => none
    exec (.lastAssertAgeOut i) s = .next (s.modSlot i fun x => { x with
      log := { x.log with
        lastPg := aged x.log.lastPg, lastPwrIn := aged x.log.lastPwrIn, lastRstIn := aged x.log.lastRstIn } }) ∧
    (∀ t, (s.slot i).record.feedDropped = some t → 60000 ≤ (s.now - t).toNat →
      exec (.coldMarkSet i) s = .next (s.modSlot i fun x => { x with coldMark := true })) ∧
    ((∀ t, (s.slot i).record.feedDropped = some t → (s.now - t).toNat < 60000) →
      exec (.coldMarkSet i) s = .next s) ∧
    exec .inrushUnitUpkeep s = .next { s with
      inrush := { s.inrush with
        active := s.inrush.active.filter fun c => decide ((s.now - c.start).toNat < c.settle)
        last := match s.inrush.last with
          | some t => if (s.now - t).toNat < 5000 then some t else none
          | none => none } }

/-! ## Power sequences and the inrush budget -/

/-- A POWER request over a mask is answered OK with the outcome of each slot in ascending order, the quote
of a slot standing at the slot's place (R15, R101, R102). A slot on which the entry does not hold POWER is
DENIED and left as it was; a running server that passes its tests is in STEPPING, with the pending
cause OPERATOR and the rest of the action in the step list. POWER_OFF_SOFT and CYCLE_SOFT assert PWR_OUT
for the tap width, POWER_OFF_HARD for the hold width; RESET asserts RST_OUT for the reset width and sets
the reset-while-on flag. Nothing but these slots and the reply changes (R8, R102, R103, R106, R115, R116). That
the rest of a cycle stands in the step list as one step, powerOnTail, is the model's form (assumption 33). -/
def Obligations.PressesBegin : Prop :=
  ∀ (h : Header) (e : StationId) (profile : Option Nat) (quotes : List Quote) (s : State) (a : Action),
    Taken h e s → h.target ≠ 0 → quotes.length = (slotsOf h.target).length → profile.getD 0 ≤ 7 →
    let may := fun i => s.holdsOn e (·.power) i
    (∀ i ∈ slotsOf h.target, may i = true → PowerPasses a profile (quoteAt h.target quotes i) i s ∧
      (s.slot i).record.observed = .on ∧ (a = .reset → rstAsserted (s.slot i).lines = false)) →
    let begins := fun (first : Step) (rest : List Step) (width : Profile → Nat) (f : Slot → Slot) =>
      let begun := fun (i : SlotId) (x : Slot) => f { x with
        record := { x.record with pendingCause := some .operator }
        hist := postTo x.hist s.now (.sequence a .started)
        seq := { state := .stepping
                 record := some (startedRecord a profile i s first rest
                   (some (s.after (width (s.profile (usedProfile profile i s)))))) }
        counters := { x.counters with accepted := bump x.counters.accepted } }
      ∃ t, exec (powerCommand a h profile quotes) s = .next t ∧
        t = { replied h .power .ok (.power ((slotsOf h.target).map fun i =>
          (i, if may i then PowerOutcome.ok .stepping else .denied))) (hear e h.port s) with slots := t.slots } ∧
        ∀ i, t.slot i = if maskHas h.target i && may i then begun i (s.slot i) else s.slot i
    let pressed := fun (x : Slot) => { x with lines := { x.lines with pwrSeq := true } }
    (a = .powerOffSoft → begins (.press .stop) [.expectLow true] (·.tapWidth) pressed) ∧
    (a = .cycleSoft → begins (.press .stop) [.expectLow true, .dwell .off, .powerOnTail] (·.tapWidth) pressed) ∧
    (a = .powerOffHard → begins .hold [.expectLow false] (·.holdWidth) pressed) ∧
    (a = .reset → begins (.dwell .reset) [.gate, .releaseRst] (·.resetWidth) fun x => { x with
      record := { x.record with resetWhileOn := true }
      lines := { x.lines with rstSeq := true } })

/-- A slot on which a POWER request has been accepted: the pending cause OPERATOR, a STARTED marker and a
count (R103). -/
def granted (a : Action) (now : Time) (x : Slot) : Slot :=
  { x with
    record := { x.record with pendingCause := some .operator }
    hist := postTo x.hist now (.sequence a .started)
    counters := { x.counters with accepted := bump x.counters.accepted } }

/-- The charge of a FEED_RESTORE: half the feed charge, rounded up, when it is warm, else the feed charge
(R125, R126). -/
def restoreCharge (x : Slot) (p : Profile) (now : Time) : Nat :=
  match x.record.feedDropped with
  | some t => if x.coldMark = false ∧ (now - t).toNat < p.holdUp then (p.feedCharge + 1) / 2 else p.feedCharge
  | none => p.feedCharge

/-- A slot that observes STANDBY once its FEED has been raised (R5, R80). -/
def feedRaised (x : Slot) : Slot :=
  { x with record := { x.record with observed := .standby }, lines := { x.lines with feed := true } }

/-- FEED_OFF and CYCLE_FEED that pass their tests drop a raised FEED: the slot observes FEED_OFF with a
POWER_CHANGED notice, the feed dropped time is now and the cold mark is clear. FEED_OFF finishes at once;
CYCLE_FEED waits for its off dwell (R6, R14, R103, R117, R126). FEED_ON and POWER_ON of a slot in FEED_OFF
restore FEED (R114, R117). Without a feed charge it is raised at once and the slot observes STANDBY (R5, R80,
R109). With one the restore joins the Inrush Queue, with half the charge, rounded up, when it is warm: behind
others it waits in WAIT_BUDGET; into an empty queue it is tested at once, and with no charge active and no
start recorded FEED is raised (R125 to R127, R130 to R132). FEED_ON, and POWER_ON without auto press, then
finish; POWER_ON with auto press goes on through its GATE to its start press, shown for a GATE that passes at
once and a press without a charge (R109, R112, R114). Where PG was already reported active, the raise is a
boot observation and that press is skipped (R5, R9, R108, R114). That the reply stands before the notices,
and that a press is skipped with its EXPECT, are the model's reading (assumptions 10 and 33). -/
def Obligations.FeedSwitched : Prop :=
  ∀ (h : Header) (e : StationId) (i : SlotId) (profile : Option Nat) (q : Quote) (s : State),
    PowerTaken h e i profile s →
    let x := s.slot i
    let p := s.profile (usedProfile profile i s)
    let answer := fun st => replied h .power .ok (.power [(i, .ok st)]) (hear e h.port s)
    let begun := fun a => startedRecord a profile i s .gate [] none
    let changed := fun after (z : State) => z.notify (some i)
      (.powerChanged x.record.observed after false x.record.bootCount x.record.lastCause)
    let presses := fun (a : Action) => a = .powerOn ∧ p.autoPress = true
    let raised := fun st a => (answer st).modSlot i fun x => feedRaised (granted a s.now x)
    let charge := restoreCharge x p s.now
    let counters := { s.inrush.counters with joins := bump s.inrush.counters.joins }
    let charged := fun (z : State) => { z with inrush := {
      last := some s.now
      queue := []
      active := [{ slot := i, kind := .feedRestore, charge, settle := p.feedSettle, start := s.now }]
      counters := { counters with
        started := bump counters.started
        oversized := if s.tables.bridge.capacity < charge then bump counters.oversized
          else counters.oversized } } }
    let ends := fun a (f : State → State) =>
      (¬ presses a → exec (powerCommand a h profile [q]) s =
        .next (finished i (begun a) (changed .standby (f (raised .idle a))))) ∧
      (∀ g, presses a → GatePasses g p i s → p.startCharge = 0 → exec (powerCommand a h profile [q]) s =
        .next ((changed .standby (f (raised .stepping a))).modSlot i (pressBegun g (begun a) s)))
    (∀ a ∈ [Action.feedOn, .powerOn], PowerPasses a profile q i s → x.lines.feed = false →
      x.record.observed = .feedOff → x.pg.filtered = false →
      (p.feedCharge = 0 → ends a fun z => z) ∧
      (p.feedCharge ≠ 0 → s.inrush.queue ≠ [] → exec (powerCommand a h profile [q]) s =
        .next { (answer .waitBudget).modSlot i (fun x => { granted a s.now x with
            seq := { state := .waitBudget
                     record := some (startedRecord a profile i s .feedRestore
                       (if presses a then [.gate, .press .start, .expectHigh] else []) none) } }) with
          inrush := { s.inrush with
            queue := s.inrush.queue ++ [{ slot := i, kind := .feedRestore, charge, settle := p.feedSettle }]
            counters } }) ∧
      (p.feedCharge ≠ 0 → s.inrush.queue = [] → s.inrush.active = [] → s.inrush.last = none →
        ends a charged)) ∧
    (∀ g, PowerPasses .powerOn profile q i s → x.lines.feed = false → x.record.observed = .feedOff →
      x.pg.filtered = true → p.feedCharge = 0 → p.autoPress = true → BootsFree i s → GatePasses g p i s →
      let y := granted .powerOn s.now x
      exec (.powerOn h profile [q]) s = .next (finished i { begun .powerOn with gate := some g }
        (bootNotice i .feedOff y.record ((answer .idle).modSlot i fun x =>
          let z := bootedSlot i s { granted .powerOn s.now x with
            lines := { x.lines with feed := true }
            record := { y.record with observed := .on } }
          { z with counters := { z.counters with skipped := bump z.counters.skipped } })))) ∧
    (x.lines.feed = true → x.record.observed ≠ .feedOff →
      let dropped := fun (a : Action) (x : Slot) =>
        let y := granted a s.now x
        { y with
          record := { y.record with
            observed := .feedOff
            resetWhileOn := if x.record.observed = .on then false else x.record.resetWhileOn
            feedDropped := some s.now }
          silence := if x.record.observed = .on then {} else x.silence
          lines := { x.lines with feed := false }
          coldMark := false }
      (PowerPasses .feedOff profile q i s →
        exec (.powerFeedOff h profile [q]) s = .next (finished i (begun .feedOff)
          (changed .feedOff ((answer .idle).modSlot i (dropped .feedOff))))) ∧
      (PowerPasses .cycleFeed profile q i s →
        exec (.powerCycleFeed h profile [q]) s = .next
          (changed .feedOff ((answer .stepping).modSlot i fun x => { dropped .cycleFeed x with
            seq := { state := .stepping
                     record := some (startedRecord .cycleFeed profile i s (.dwell .off)
                       (.feedRestore :: if p.autoPress then [.dwell .one, .powerOnTail] else [])
                       (some (s.after (p.offDwell * 1000)))) } }))))

/-- An accepted action with nothing to do finishes within its acceptance: POWER_ON of a running server,
FEED_ON with FEED raised, FEED_OFF with FEED dropped, and a soft or hard off of a server that is not ON,
whose press is counted as skipped. Its STARTED and DONE markers stand one after the other, its pending
cause stays, and one SEQUENCE_DONE notice is sent (R103, R108, R114, R115, R117, R118, R120). A cycle whose
first half has nothing to do, CYCLE_SOFT of a server that is not ON or CYCLE_FEED with FEED dropped, goes on
to its off dwell in the same way, the press of the first counted as skipped (R108, R116, R117). That the
reply stands before the notices, that a press is skipped with its EXPECT, and the tail of a cycle as one step
of the list, are the model's reading (assumptions 10 and 33). -/
def Obligations.FinishedAtOnce : Prop :=
  ∀ (h : Header) (e : StationId) (i : SlotId) (profile : Option Nat) (q : Quote) (s : State) (a : Action),
    PowerTaken h e i profile s → PowerPasses a profile q i s →
    let x := s.slot i
    let off := a = .powerOffSoft ∨ a = .powerOffHard
    let answer := fun st => replied h .power .ok (.power [(i, .ok st)]) (hear e h.port s)
    let accepted := fun (skips : Bool) (x : Slot) =>
      let x := granted a s.now x
      { x with counters := { x.counters with
          skipped := if skips then bump x.counters.skipped else x.counters.skipped } }
    ((a = .powerOn ∧ x.record.observed = .on) ∨ (a = .feedOn ∧ x.lines.feed = true) ∨
      (a = .feedOff ∧ x.lines.feed = false) ∨ (off ∧ x.record.observed ≠ .on) →
      exec (powerCommand a h profile [q]) s = .next (finished i (startedRecord a profile i s .gate [] none)
        ((answer .idle).modSlot i (accepted (decide off))))) ∧
    (∀ rest, (a = .cycleSoft ∧ x.record.observed ≠ .on ∧ rest = [.powerOnTail]) ∨
        (a = .cycleFeed ∧ x.lines.feed = false ∧ rest = .feedRestore ::
          if (s.profile (usedProfile profile i s)).autoPress then [.dwell .one, .powerOnTail] else []) →
      exec (powerCommand a h profile [q]) s = .next ((answer .stepping).modSlot i fun x =>
        { accepted (decide (a = .cycleSoft)) x with
          seq := { state := .stepping
                   record := some (startedRecord a profile i s (.dwell .off) rest
                     (some (s.after ((s.profile (usedProfile profile i s)).offDwell * 1000)))) } }))

/-- POWER_ON of a slot in STANDBY enters its GATE (R112, R114). A GATE that passes, whatever its outcome,
comes to the start press. With start charge 0 PWR_OUT is asserted at once. With a charge it joins the Inrush
Queue: behind others it waits; into an empty queue it is tested at once, and with no charge active and no
start recorded it starts (R103, R109, R114, R125, R127, R130 to R132). With two slots in the mask the first
starts so, and the second, handled after it, waits for the spacing (R15, R131). A GATE whose unit's prime
runs waits, with its deadline (R112); under REQUIRE one that fails halts the sequence GATE_FAILED within its
acceptance (R113, R118). That the reply stands before the notices is the model's reading, and that the notice
of a halt in a GATE carries no outcome of it is the model's choice (assumptions 10 and 39). -/
def Obligations.StartPressBudgeted : Prop :=
  ∀ (h : Header) (e : StationId) (profile : Option Nat) (s : State),
    let profileOf := fun (i : SlotId) => s.profile (usedProfile profile i s)
    let s1 := hear e h.port s
    let waiting := fun (i : SlotId) =>
      ({ slot := i, kind := .startPress, charge := (profileOf i).startCharge,
         settle := (profileOf i).startSettle } : Waiting)
    let charge := fun (i : SlotId) =>
      ({ slot := i, kind := .startPress, charge := (profileOf i).startCharge,
         settle := (profileOf i).startSettle, start := s.now } : Charge)
    let gating := fun i deadline => startedRecord .powerOn profile i s .gate [.press .start, .expectHigh] deadline
    let pressing := fun (g : GateOutcome) (i : SlotId) (x : Slot) =>
      pressBegun g (gating i none) s (granted .powerOn s.now x)
    let queued := fun (g : GateOutcome) (i : SlotId) (x : Slot) => { granted .powerOn s.now x with
      seq := { state := .waitBudget, record := some { gating i none with
        gate := some g, current := .press .start, steps := [.expectHigh] } } }
    let ready := fun g i => (s.slot i).record.observed = .standby ∧ GatePasses g (profileOf i) i s
    let counted := fun (joins : Nat) (i : SlotId) => { s.inrush.counters with
      joins := bumpBy joins s.inrush.counters.joins
      started := bump s.inrush.counters.started
      oversized := if s.tables.bridge.capacity < (profileOf i).startCharge then bump s.inrush.counters.oversized
        else s.inrush.counters.oversized }
    let unused := s.inrush.queue = [] ∧ s.inrush.active = [] ∧ s.inrush.last = none
    (∀ (i : SlotId) (q : Quote), PowerTaken h e i profile s → PowerPasses .powerOn profile q i s →
      let answer := fun st => replied h .power .ok (.power [(i, .ok st)]) s1
      (∀ g, ready g i →
        ((profileOf i).startCharge = 0 → exec (.powerOn h profile [q]) s =
          .next ((answer .stepping).modSlot i (pressing g i))) ∧
        ((profileOf i).startCharge ≠ 0 → s.inrush.queue ≠ [] → exec (.powerOn h profile [q]) s =
          .next { (answer .waitBudget).modSlot i (queued g i) with
            inrush := { s.inrush with
              queue := s.inrush.queue ++ [waiting i]
              counters := { s.inrush.counters with joins := bump s.inrush.counters.joins } } }) ∧
        ((profileOf i).startCharge ≠ 0 → unused → exec (.powerOn h profile [q]) s =
          .next { (answer .stepping).modSlot i (pressing g i) with
            inrush := { last := some s.now, queue := [], active := [charge i], counters := counted 1 i } })) ∧
      ((s.slot i).record.observed = .standby → GateWaits (profileOf i) i s →
        exec (.powerOn h profile [q]) s = .next ((answer .waitGate).modSlot i fun x =>
          { granted .powerOn s.now x with
            seq := { state := .waitGate
                     record := some (gating i (some (s.after ((profileOf i).gateWait * 1000)))) } })) ∧
      ((s.slot i).record.observed = .standby → GateFails (profileOf i) i s → (profileOf i).gate = .require →
        (s.slot i).lines.rstSeq = false → i ∉ waitingSlots s →
        exec (.powerOn h profile [q]) s = .next (haltedNow i .gateFailed (gating i none)
          ((answer (.halted .gateFailed)).modSlot i (granted .powerOn s.now))))) ∧
    ∀ (i j : SlotId) (f g : GateOutcome) (q r : Quote), Taken h e s → slotsOf h.target = [i, j] →
      profile.getD 0 ≤ 7 →
      s.holdsOn e (·.power) i = true → s.holdsOn e (·.power) j = true →
      PowerPasses .powerOn profile q i s → PowerPasses .powerOn profile r j s → ready f i →
      ready g j →
      (profileOf i).startCharge ≠ 0 → (profileOf j).startCharge ≠ 0 → (profileOf i).startSettle ≠ 0 →
      unused → s.tables.bridge.spacing ≠ 0 →
      exec (.powerOn h profile [q, r]) s =
        .next { ((replied h .power .ok (.power [(i, .ok .stepping), (j, .ok .waitBudget)]) s1).modSlot i
            (pressing f i)).modSlot j (queued g j) with
          inrush := { last := some s.now, queue := [waiting j], active := [charge i], counters := counted 2 i } }

/-- ABORT is answered OK for a slot in any sequencer state. A slot in IDLE or HALTED becomes HALTED
ABORTED with no marker and no notice. In STEPPING or WAIT_GATE without a claim on RST_OUT the sequence
halts: PWR_OUT is released, a marker and one SEQUENCE_HALTED notice follow. In WAIT_BUDGET the slot is
also withdrawn from the Inrush Queue. FEED and the pending cause stay (R102, R104, R118, R120, R134). That
the reply stands before the notices is the model's reading, and that the notice of a halt in a GATE
carries no outcome of it is the model's choice (assumptions 10 and 39). -/
def Obligations.AbortHalts : Prop :=
  ∀ (h : Header) (e : StationId) (i : SlotId) (profile : Option Nat) (q : Quote) (s : State),
    PowerTaken h e i profile s →
    let x := s.slot i
    let s1 := hear e h.port s
    let answer := replied h .power .ok (.power [(i, .ok (.halted .aborted))])
    (Quiet i s → exec (.powerAbort h profile [q]) s = .next (answer
      (s1.modSlot i fun x => { x with seq := { x.seq with state := .halted .aborted } }))) ∧
    (∀ r, x.seq.record = some r → x.lines.rstSeq = false →
      (x.seq.state = .stepping ∨ x.seq.state = .waitGate → i ∉ waitingSlots s →
        exec (.powerAbort h profile [q]) s = .next (haltedNow i .aborted r (answer s1))) ∧
      (x.seq.state = .waitBudget → i ∈ waitingSlots s →
        exec (.powerAbort h profile [q]) s = .next (haltedNow i .aborted r { answer s1 with
          inrush := { s.inrush with
            queue := s.inrush.queue.filter fun w => decide (w.slot ≠ i)
            counters := { s.inrush.counters with withdrawals := bump s.inrush.counters.withdrawals } } })))

/-- A slot on which a POWER request fails a test of R102 is left as it was, and its outcome names the
first test that failed: DENIED, then power control, lines, a busy sequencer, a passing local press, a
quote that is required, a stale quote with the current boot count, and a RESET of a slot not ON. The
outcomes of a mask whose slots all fail stand in ascending order (R15). -/
def Obligations.PowerRefused : Prop :=
  ∀ (h : Header) (e : StationId) (profile : Option Nat) (quotes : List Quote) (s : State) (a : Action)
    (outcome : SlotId → PowerOutcome),
    Taken h e s → h.target ≠ 0 → quotes.length = (slotsOf h.target).length → profile.getD 0 ≤ 7 →
    (∀ i ∈ slotsOf h.target,
      let x := s.slot i
      let c := s.setup i
      let q := quoteAt h.target quotes i
      let tests : List (Prop × PowerOutcome) := [
        (s.holdsOn e (·.power) i = false, .denied),
        (c.powerControl = false, .statePowerControl),
        (linesEnabled a c (s.profile (usedProfile profile i s)) = false, .stateLine),
        (seqBusy x.seq.state = true, .busySequencer x.seq.state),
        (s.localPassing i = true, .busyLocal),
        (q = none ∧ needsQuote a = true, .stateQuoteRequired),
        (∃ n, q = some n ∧ n ≠ x.record.bootCount, .stale x.record.bootCount),
        (a = .reset ∧ x.record.observed ≠ .on, .stateNotOn)]
      ∃ (before after : List (Prop × PowerOutcome)) (test : Prop × PowerOutcome),
        tests = before ++ test :: after ∧ (∀ y ∈ before, ¬ y.1) ∧ test.1 ∧ outcome i = test.2) →
    exec (powerCommand a h profile quotes) s =
      .next (replied h .power .ok (.power ((slotsOf h.target).map fun i => (i, outcome i))) (hear e h.port s))

/-- At the deadline of a PRESS or HOLD PWR_OUT is released and the EXPECT step that follows is entered:
it waits, with its deadline, where its condition does not hold yet, and where it holds already the
sequence finishes or waits in the off dwell (R106, R107, R110, R111). At the deadline of the last DWELL of
a list the sequence finishes (R107, R118). At that of the off dwell of CYCLE_SOFT the POWER_ON steps for
the power then observed are taken: none with the slot ON, the start press of a slot in STANDBY behind a GATE
that passes at once (R112, R114, R116). At that of the off dwell of CYCLE_FEED the FEED is raised, the slot
observes STANDBY, and the sequence finishes or waits one second for its press (R5, R80, R117). The tail of a
cycle as one step of the list is the model's reading (assumption 33). -/
def Obligations.StepDeadlines : Prop :=
  ∀ (i : SlotId) (s : State) (r : SeqRecord) (due : Time),
    let x := s.slot i
    let p := s.profile r.profile
    let entered := fun (gate : Option GateOutcome) (st : Step) (more : List Step) (wait : Nat) (x : Slot) =>
      { x with seq := { state := .stepping, record := some { r with
          current := st, steps := more, gate, deadline := some (s.after wait) } } }
    let released := fun (x : Slot) => { x with lines := { x.lines with pwrSeq := false } }
    x.seq = { state := .stepping, record := some r } → r.deadline = some due → reached due s.now = true →
    (isPress r.current = true → ∀ st more, r.steps = st :: more →
      (st = .expectHigh ∧ x.record.observed ≠ .on) ∨
        ((∃ soft, st = .expectLow soft) ∧ x.record.observed = .on) →
      exec (.pressDeadline i) s = .next (s.modSlot i fun x => entered r.gate st more (match st with
        | .expectHigh => p.onDeadline * 1000
        | .expectLow true => p.softGrace * 1000
        | _ => 2000) (released x))) ∧
    (isPress r.current = true → ∀ st more, r.steps = st :: more →
      (st = .expectHigh ∧ x.record.observed = .on) ∨
        ((∃ soft, st = .expectLow soft) ∧ x.record.observed ≠ .on) →
      (more = [] → exec (.pressDeadline i) s = .next (finished i r (s.modSlot i released))) ∧
      (∀ rest, more = .dwell .off :: rest → exec (.pressDeadline i) s = .next (s.modSlot i fun x =>
        entered r.gate (.dwell .off) rest (p.offDwell * 1000) (released x)))) ∧
    (isDwell r.current = true →
      (r.steps = [] ∨ (r.steps = [.powerOnTail] ∧ x.record.observed = .on) →
        exec (.dwellDeadline i) s = .next (finished i r s)) ∧
      (∀ g, r.steps = [.powerOnTail] → x.record.observed = .standby → GatePasses g p i s → p.startCharge = 0 →
        exec (.dwellDeadline i) s = .next (s.modSlot i (pressBegun g r s))) ∧
      (∀ more, r.steps = .feedRestore :: more → x.lines.feed = false → x.record.observed = .feedOff →
        x.pg.filtered = false → p.feedCharge = 0 →
        let raised := (s.modSlot i fun x => { x with
          record := { x.record with observed := .standby }
          lines := { x.lines with feed := true } }).notify (some i)
            (.powerChanged .feedOff .standby false x.record.bootCount x.record.lastCause)
        (more = [] → exec (.dwellDeadline i) s = .next (finished i r raised)) ∧
        (∀ rest, more = .dwell .one :: rest → exec (.dwellDeadline i) s =
          .next (raised.modSlot i (entered r.gate (.dwell .one) rest 1000)))))

/-- A RESET holds RST_OUT until its GATE ends. At the deadline of its reset dwell a GATE that does not
apply, whose unit is primed, or that fails under WAIT, ends at once: RST_OUT is released, which on a server
that was ON for the whole time is a boot observation, and the sequence finishes (R8, R112, R116, R118); one
that fails under REQUIRE, its unit not presenting or its prime failed, halts GATE_FAILED, RST_OUT being
released (R112, R113, R118). A GATE whose unit's
prime is running waits with RST_OUT asserted (R112); at its deadline it is waived or halts in the same way
(R113, R118). An ABORT of a
RESET that holds RST_OUT releases it, with the boot observation, and halts (R104, R118). The boots-left
rule does nothing here. That the reply stands before the notices is the model's reading, and that the
notice of a halt in a GATE carries no outcome of it is the model's choice (assumptions 10 and 39). -/
def Obligations.ResetReleases : Prop :=
  ∀ (i : SlotId) (s : State) (r : SeqRecord), BootsFree i s →
    let x := s.slot i
    let p := s.profile r.profile
    x.seq.record = some r → x.lines.rstSeq = true → x.lines.rstLocal = false →
    (∀ due, r.deadline = some due → reached due s.now = true →
      (x.seq.state = .stepping → r.current = .dwell .reset → r.steps = [.gate, .releaseRst] →
        (∀ g, GatePasses g p i s → exec (.dwellDeadline i) s =
          .next (finished i { r with gate := some g } (rstReleased i s))) ∧
        (GateFails p i s → p.gate = .require → i ∉ waitingSlots s → exec (.dwellDeadline i) s =
          .next (haltedNow i .gateFailed { r with current := .gate } (rstReleased i s))) ∧
        (GateWaits p i s → exec (.dwellDeadline i) s =
          .next (s.modSlot i fun x => { x with seq := { state := .waitGate, record := some { r with
            current := .gate
            steps := [.releaseRst]
            deadline := some (s.after (p.gateWait * 1000)) } } }))) ∧
      (x.seq.state = .waitGate → r.current = .gate → r.steps = [.releaseRst] →
        (p.gate = .wait → exec (.gateWaitDeadline i) s =
          .next (finished i { r with gate := some .waived } (rstReleased i s))) ∧
        (p.gate = .require → i ∉ waitingSlots s → exec (.gateWaitDeadline i) s =
          .next (haltedNow i .gateFailed r (rstReleased i s))))) ∧
    ∀ h e profile q, PowerTaken h e i profile s → i ∉ waitingSlots s →
      x.seq.state = .stepping ∨ x.seq.state = .waitGate →
      exec (.powerAbort h profile [q]) s = .next (haltedNow i .aborted r (rstReleased i
        (replied h .power .ok (.power [(i, .ok (.halted .aborted))]) (hear e h.port s))))

/-- At its deadline an EXPECT_HIGH halts PG_TIMEOUT, and so does an EXPECT_LOW, but for one after the stop
PRESS of a soft off whose profile escalates: that one enters a stop HOLD of the hold width, followed by
an EXPECT_LOW of 2 s (R110, R111, R118, R120). A GATE that waits under REQUIRE halts GATE_FAILED at the
gate wait deadline; under WAIT it is waived and a start PRESS with no charge begins (R113). That the
notice of a halt in a GATE carries no outcome of it is the model's choice (assumption 39). -/
def Obligations.ExpectationsExpire : Prop :=
  ∀ (i : SlotId) (s : State) (r : SeqRecord) (due : Time),
    let x := s.slot i
    let p := s.profile r.profile
    x.seq.record = some r → r.deadline = some due → reached due s.now = true → x.lines.rstSeq = false →
    i ∉ waitingSlots s →
    let halts := fun cmd why => exec cmd s = .next (haltedNow i why r s)
    (x.seq.state = .stepping → r.current = .expectHigh → halts (.expectHighDeadline i) .pgTimeout) ∧
    (∀ soft, x.seq.state = .stepping → r.current = .expectLow soft →
      (soft = false ∨ p.escalate = false → halts (.expectLowDeadline i) .pgTimeout) ∧
      (soft = true → p.escalate = true → x.record.observed = .on →
        exec (.expectLowDeadline i) s = .next (s.modSlot i fun x => { x with
          lines := { x.lines with pwrSeq := true }
          seq := { state := .stepping
                   record := some { r with
                     escalated := true
                     current := .hold
                     steps := .expectLow false :: r.steps
                     deadline := some (s.after p.holdWidth) } } }))) ∧
    (x.seq.state = .waitGate → r.current = .gate →
      (p.gate = .require → halts (.gateWaitDeadline i) .gateFailed) ∧
      (p.gate = .wait → r.steps = [.press .start, .expectHigh] → p.startCharge = 0 →
        x.record.observed = .standby →
        exec (.gateWaitDeadline i) s = .next (s.modSlot i (pressBegun .waived r s))))

/-- An evaluation with an empty queue does nothing. Else expired charges leave the list, and the head is
tested: it fails when charges remain whose load with the charge clamped to the capacity exceeds the
capacity, when the spacing has not passed, or when the list is full, and then waits on; otherwise a start
PRESS of a slot that is not ON starts its charge and asserts PWR_OUT for its tap width (R128 to R132). A start
PRESS of a slot that is ON is a skipped start: it leaves the queue with no charge and no start time, the press
and its EXPECT_HIGH are skipped, and the sequence finishes (R108, R132). A FEED_RESTORE starts its charge and
raises FEED, and the sequence finishes, waits one second for its press, or, in a POWER_ON with auto press,
enters its GATE, which, where it passes at once, is followed by the start press: without a charge it begins,
and with one it joins the queue again behind others that wait (R80, R109, R112, R114, R117, R127, R132). That
a press is skipped with its EXPECT is the model's reading (assumption 33). -/
def Obligations.InrushEvaluated : Prop :=
  ∀ s : State,
    let b := s.tables.bridge
    let live := s.inrush.active.filter fun c => decide ((s.now - c.start).toNat < c.settle)
    let share := fun (c : Charge) =>
      (c.charge * (c.settle - (s.now - c.start).toNat) + c.settle - 1) / c.settle
    let load := (live.map share).sum
    (s.inrush.queue = [] → exec .inrushEvaluation s = .next s) ∧
    (∀ w ws, s.inrush.queue = w :: ws →
      let fits := live = [] ∨ load + min w.charge b.capacity ≤ b.capacity
      let spaced := ∀ t, s.inrush.last = some t → b.spacing ≤ (s.now - t).toNat
      (¬ (fits ∧ spaced ∧ live.length < 16) →
        exec .inrushEvaluation s = .next { s with inrush := { s.inrush with active := live } }) ∧
      let i := w.slot
      let x := s.slot i
      let starts := fun (z : State) => { z with inrush := {
        last := some s.now
        queue := ws
        active := live ++ [{ slot := i, kind := w.kind, charge := w.charge, settle := w.settle, start := s.now }]
        counters := { s.inrush.counters with
          started := bump s.inrush.counters.started
          oversized := if b.capacity < w.charge then bump s.inrush.counters.oversized
            else s.inrush.counters.oversized } } }
      let stepping := fun (r : SeqRecord) (f : Slot → Slot) => s.modSlot i fun x =>
        f { x with seq := { state := .stepping, record := some r } }
      (∀ r, fits → spaced → live.length < 16 → x.seq = { state := .waitBudget, record := some r } →
        (w.kind = .startPress → x.record.observed ≠ .on → exec .inrushEvaluation s = .next (starts
          (stepping { r with deadline := some (s.after (s.profile r.profile).tapWidth) } fun x =>
            { x with lines := { x.lines with pwrSeq := true } }))) ∧
        (w.kind = .startPress → x.record.observed = .on → r.steps = [.expectHigh] →
          exec .inrushEvaluation s = .next (finished i r { s.modSlot i (fun x =>
              { x with counters := { x.counters with skipped := bump x.counters.skipped } }) with
            inrush := { s.inrush with
              queue := ws
              active := live
              counters := { s.inrush.counters with skipped := bump s.inrush.counters.skipped } } })) ∧
        (w.kind = .feedRestore → x.lines.feed = false → x.record.observed = .feedOff → x.pg.filtered = false →
          let told := fun (z : State) => (starts z).notify (some i)
            (.powerChanged .feedOff .standby false x.record.bootCount x.record.lastCause)
          (r.steps = [] → exec .inrushEvaluation s = .next (finished i r (told (s.modSlot i feedRaised)))) ∧
          (∀ rest, r.steps = .dwell .one :: rest → exec .inrushEvaluation s = .next (told
            (stepping { r with current := .dwell .one, steps := rest, deadline := some (s.after 1000) }
              feedRaised))) ∧
          (∀ g, let p := s.profile r.profile
            r.steps = [.gate, .press .start, .expectHigh] → GatePasses g p i s →
            (p.startCharge = 0 → exec .inrushEvaluation s =
              .next (told (s.modSlot i fun x => pressBegun g r s (feedRaised x)))) ∧
            (p.startCharge ≠ 0 → ws ≠ [] →
              let z := told (s.modSlot i fun x => { feedRaised x with
                seq := { state := .waitBudget, record := some { r with
                  gate := some g, current := .press .start, steps := [.expectHigh], deadline := none } } })
              exec .inrushEvaluation s = .next { z with inrush := { z.inrush with
                queue := ws ++ [{ slot := i, kind := .startPress, charge := p.startCharge,
                                  settle := p.startSettle }]
                counters := { z.inrush.counters with joins := bump z.inrush.counters.joins } } })))))

/-! ## Storage ports and media units -/

/-- A free port completes every request NOT_PRESENT without a presenting unit, and the first request
after a bind MEDIUM_CHANGED, clearing the flag; each counts in the slot's not-present counter (R149,
R159). While a request is in flight the port takes no other (R148). CHECK carried out is completed GOOD
whatever the prime does, and CAPACITY is completed GOOD with the unit's capacity and the block size of
512; neither touches anything else (R150). That a command taken while a request is in flight changes
nothing, and the list of what a port has told its server, are the model's (assumptions 19 and 18). -/
def Obligations.PortRequestsAnswered : Prop :=
  (∀ (i : SlotId) (u : UnitId) (s : State), Presents i u s →
    exec (.storageCheck i) s = .next (toldMore i [.done .check .good] s) ∧
    exec (.storageCapacity i) s =
      .next (toldMore i [.capacity (s.capacity u) 512, .done .capacity .good] s)) ∧
  ∀ (i : SlotId) (first count : Nat) (s : State) (k : RequestKind) (cmd : Instr),
    (k, cmd) ∈ [(RequestKind.check, Instr.storageCheck i), (.capacity, .storageCapacity i),
      (.read, .storageRead i first count), (.write, .storageWrite i first count)] →
    let away := fun o s => (toldMore i [.done k o] s).modSlot i fun x =>
      { x with counters := { x.counters with notPresent := bump x.counters.notPresent } }
    ((s.slot i).port.inFlight = none → (∀ u, s.unitOf i = some u → (s.unit u).state ≠ .presenting) →
      exec cmd s = .next (away .notPresent s)) ∧
    (∀ u, (s.slot i).port.inFlight = none → s.unitOf i = some u → (s.unit u).state = .presenting →
      (s.unit u).mediumChanged = true →
      exec cmd s = .next (away .mediumChanged (s.modUnit u fun m => { m with mediumChanged := false }))) ∧
    ((s.slot i).port.inFlight ≠ none → exec cmd s = .next s)

/-- A READ whose blocks are all ready delivers them in LBA order and is completed GOOD, with its counters;
a read outside the capacity or of a count outside 1 to 128 is completed RANGE, and one that meets an
ABSENT region MEDIUM_ERROR, with no data (R151, R152, R159). The list of what a port has told its server
is the model's choice (assumption 18). -/
def Obligations.ReadsDelivered : Prop :=
  ∀ (i : SlotId) (u : UnitId) (first count : Nat) (s : State), Presents i u s →
    (1 ≤ count → count ≤ 128 → first + count ≤ s.capacity u → ∀ (xs : List Source) (data : List Block),
      s.resolveAll u first count = some xs → xs.map (s.ready u) = data.map some →
      ∃ t, exec (.storageRead i first count) s = .next t ∧
        (t.slot i).port = {
          inFlight := none
          out := (s.slot i).port.out ++ data.mapIdx (fun k d => .block (first + k) d) ++
            [.done .read .good] } ∧
        (t.unit u).counters.readsGood = bump (s.unit u).counters.readsGood ∧
        (t.unit u).counters.delivered = bumpBy count (s.unit u).counters.delivered ∧
        t.fetch.records = s.fetch.records ∧ ∀ j, j ≠ i → t.slot j = s.slot j) ∧
    (1 ≤ count → count ≤ 128 → first + count ≤ s.capacity u → s.resolveAll u first count = none →
      exec (.storageRead i first count) s = .next ((toldMore i [.done .read .mediumError] s).modUnit u
        fun m => { m with counters := { m.counters with mediaErrors := bump m.counters.mediaErrors } })) ∧
    (count = 0 ∨ 128 < count ∨ s.capacity u < first + count →
      exec (.storageRead i first count) s = .next (toldMore i [.done .read .range] s))

/-- A WRITE that passes its tests reserves one pool block for each LBA not yet in the Overlay Index; one
outside the capacity or of a count outside 1 to 128 is completed RANGE, one
that meets a region that is not written is completed PROTECTED, and one without space FULL, and none of
these reserves anything (R153, R154, R159). The list of what a port has told its server is the model's
choice (assumption 18). -/
def Obligations.WritesReserve : Prop :=
  ∀ (i : SlotId) (u : UnitId) (first count : Nat) (s : State), Presents i u s →
    let good := 1 ≤ count ∧ count ≤ 128 ∧ first + count ≤ s.capacity u
    let kinds := (lbas first count).map (s.kindAt u)
    let n := newBlocks (s.unit u) first count
    let room := n ≤ s.poolFree ∧ heldCount (s.unit u) + n ≤ (s.unitSetup u).overlayLimit
    let refused := fun o (f : UnitCounters → UnitCounters) => exec (.storageWrite i first count) s =
      .next ((toldMore i [.done .write o] s).modUnit u fun m => { m with counters := f m.counters })
    (¬ good → exec (.storageWrite i first count) s = .next (toldMore i [.done .write .range] s)) ∧
    (good → (s.unitSetup u).writeProtect = false → (∀ k ∈ kinds, k = .overlay ∨ k = .local_) → room →
      exec (.storageWrite i first count) s = .next { (s.modUnit u fun m =>
          { m with reserved := m.reserved + n }).modSlot i (fun x =>
          { x with port := { x.port with inFlight := some (.write first count) } }) with
        poolFree := s.poolFree - n }) ∧
    (good → (s.unitSetup u).writeProtect = false → (∀ k ∈ kinds, k = .overlay ∨ k = .local_) → ¬ room →
      refused .full fun c => { c with spaceRefusals := bump c.spaceRefusals }) ∧
    (good → (s.unitSetup u).writeProtect = false → .absent ∈ kinds →
      refused .mediumError fun c => { c with mediaErrors := bump c.mediaErrors }) ∧
    (good → (s.unitSetup u).writeProtect = true ∨ (.absent ∉ kinds ∧ ∃ k ∈ kinds, k = .remote ∨ k = .zero) →
      refused .protected_ fun c => { c with protectedRefusals := bump c.protectedRefusals })

/-- A data block of a write in flight is stored at its LBA, in place or in a reserved block; every other
LBA keeps its block; after the last one the write is completed GOOD (R154). An abort of a write returns
what is left of its reservation to the pool and completes nothing; an abort of a read ends it, with its
fetches left outstanding (R155). No detach follows while the unit presents. Where it is EJECTING, the end of
its last request, the last data block of a write, an abort of either kind, or the BLOCK_DATA with which a
read is complete, is followed by its detach in the same event (R142, R152, R154, R155, R158, R167). The list
of what a port has told its server is the model's choice (assumption 18). -/
def Obligations.WriteDataAndAborts : Prop :=
  ∀ (i : SlotId) (u : UnitId) (s : State), s.unitOf i = some u →
    ((s.unit u).state = .presenting →
    (∀ lba left data, (s.slot i).port.inFlight = some (.write lba left) → 1 ≤ left →
      ∃ t, exec (.storageWriteDataBlock i data) s = .next t ∧
        indexGet (t.unit u).overlay lba = some data ∧
        (∀ k, k ≠ lba → indexGet (t.unit u).overlay k = indexGet (s.unit u).overlay k) ∧
        (t.unit u).reserved = (if (indexGet (s.unit u).overlay lba).isSome then (s.unit u).reserved
          else (s.unit u).reserved - 1) ∧
        (t.unit u).counters.written = bump (s.unit u).counters.written ∧
        (t.slot i).port = (if left = 1 then
            { inFlight := none, out := (s.slot i).port.out ++ [.done .write .good] }
          else { (s.slot i).port with inFlight := some (.write (lba + 1) (left - 1)) }) ∧
        t = { s with slots := t.slots, units := t.units } ∧ (∀ j, j ≠ i → t.slot j = s.slot j) ∧
        ∀ v, v ≠ u → t.unit v = s.unit v) ∧
    (∀ lba left, (s.slot i).port.inFlight = some (.write lba left) →
      exec (.serverAbort i) s = .next { (s.modSlot i fun x =>
          { x with port := { x.port with inFlight := none } }).modUnit u (fun m => { m with
            reserved := 0
            counters := { m.counters with aborts := bump m.counters.aborts } }) with
        poolFree := s.poolFree + (s.unit u).reserved }) ∧
    (∀ lba rest images, (s.slot i).port.inFlight = some (.read lba rest images) →
      ∃ t, exec (.serverAbort i) s = .next t ∧ t.fetch.records = s.fetch.records ∧
        (t.slot i).port = { (s.slot i).port with inFlight := none } ∧
        (t.unit u).counters.aborts = bump (s.unit u).counters.aborts ∧ t.poolFree = s.poolFree)) ∧
    ((s.unit u).state = .ejecting →
    let m := s.unit u
    let ended := fun (cmd : Instr) (out : List ServerOut) (held : Nat) (s1 : State)
        (counters : UnitCounters → Prop) =>
      ∃ t, exec cmd s = .next t ∧ Detached u i m.ejectReason held s1 t ∧ counters (t.unit u).counters ∧
        ∀ j, t.slot j = if j = i then
            { s.slot i with port := { inFlight := none, out := (s.slot i).port.out ++ out } }
          else s.slot j
    (∀ lba data, (s.slot i).port.inFlight = some (.write lba 1) →
      ended (.storageWriteDataBlock i data) [.done .write .good]
        ((indexSet m.overlay lba data).length +
          if (indexGet m.overlay lba).isSome then m.reserved else m.reserved - 1) s fun c =>
        c = { m.counters with
          written := bump m.counters.written, writesGood := bump m.counters.writesGood }) ∧
    (∀ r, (s.slot i).port.inFlight = some r → ended (.serverAbort i) [] (heldCount m) s fun c =>
      c = { m.counters with aborts := bump m.counters.aborts }) ∧
    (∀ h e id check (block : BitVec 32) data r lba rest images (ds : List Block), AnswerHeard h e u s →
      m.station = some (e, h.src) → (hear e h.port s).recordOf u id = some r → block.toNat ∈ r.waiting →
      checkGood (s.unitSetup u) data check = true → (s.line u (block.toNat / 8)).isSome = true →
      (s.slot i).port.inFlight = some (.read lba rest images) →
      rest.map (fun x => if x = .image block.toNat then some data else s.ready u x) = ds.map some →
      ended (.blockData h id block check data)
        (ds.mapIdx (fun k d => ServerOut.block (lba + k) d) ++ [.done .read .good]) (heldCount m)
        (hear e h.port s) fun c => c.readsGood = bump m.counters.readsGood))

/-- A MEDIA_BIND that is taken binds the unit to the slot and to the requesting station, sets its boots
left from UNIT_SETUP and the medium-changed flag, enters PRESENTING and starts the prime, with a BOUND
notice (R139, R158). The prime is DONE at once when every covered block is ready, as with a capacity of 0,
and FAILED when one is ABSENT; its own notice follows, and nothing else changes. Else it is RUNNING over
the covered image blocks (R156). No slot changes. That the reply stands before the notices, and that the
notice of a prime that ends at once follows the one of the bind, are the model's reading (assumptions 10
and 23). -/
def Obligations.BindPresents : Prop :=
  ∀ (h : Header) (e : StationId) (u : UnitId) (i : SlotId) (slot : Byte) (s : State), Taken h e s →
    finOf 4 h.target.toNat = some u → finOf 8 slot.toNat = some i → s.holdsOn e (·.media) i = true →
    (s.unit u).state = .detached → s.unitOf i = none → (s.slot i).seq.state ≠ .waitGate →
    let s1 := hear e h.port s
    let cap := s.capacity u
    let covered := s.resolveAll u 0 (min 8 cap)
    let bound := fun (prime : PrimeState) (m : MediaUnit) => { m with
      slot := some i
      station := some (e, h.src)
      bootsLeft := (s.unitSetup u).presentBoots
      mediumChanged := true
      state := .presenting
      prime }
    let told := fun ev (z : State) => z.notify (some i) (.mediaState u .presenting ev none (heldCount (s.unit u)))
    let atOnce := fun prime ev => exec (.mediaBind h slot) s = .next (told ev (told .bound
      ((replied h .mediaBind .ok (.bind u .presenting i (s.unitSetup u).presentBoots cap prime) s1).modUnit u
        (bound prime))))
    (covered = none → atOnce .failed .primeFailed) ∧
    (∀ xs, covered = some xs →
      ((∀ x ∈ xs, s.ready u x ≠ none) → atOnce .done .primed) ∧
      ((∃ x ∈ xs, s.ready u x = none) → ∃ z, exec (.mediaBind h slot) s = .next (told .bound z) ∧
        ReplyStands h .mediaBind .ok (.bind u .presenting i (s.unitSetup u).presentBoots cap .running) s1 z ∧
        z.unit u = { bound .running (s1.unit u) with
          primeImages := imagesIn xs, counters := (z.unit u).counters } ∧
        z.slots = s.slots ∧ z.tables = s.tables ∧ z.poolFree = s.poolFree ∧ z.noticeNumber = s.noticeNumber ∧
        ∀ v, v ≠ u → z.unit v = s1.unit v))

/-- A MEDIA_UNBIND from the unit's media station or an administrator starts the eject with reason UNBIND
and is answered OK. With no request in flight the detach follows: the unit is DETACHED without slot,
station or overlay block, its blocks are back in the pool, and it has no fetch record and no cache line;
with a request in flight it stays EJECTING and bound. Each step sends its MEDIA_STATE notice (R140, R141,
R142, R158). A GATE of the slot that waits on the unit fails between the two: under WAIT it is waived and the
sequence goes on, and under REQUIRE it halts GATE_FAILED (R113, R118, R141). That the reply stands before the
notices is the model's reading, and that the notice of a halt in a GATE carries no outcome of it is the
model's choice (assumptions 10 and 39). -/
def Obligations.UnbindEjects : Prop :=
  ∀ (h : Header) (e : StationId) (u : UnitId) (i : SlotId) (s : State), Taken h e s →
    finOf 4 h.target.toNat = some u → (s.unit u).state = .presenting → (s.unit u).slot = some i →
    (isMediaStation (s.unit u) e = true ∨ (s.station e).rights.admin = true) →
    GateKnown u i s →
    ∃ t, exec (.mediaUnbind h) s = .next t ∧
      Ejected u i .unbind (replied h .mediaUnbind .ok .none (hear e h.port s)) t

/-! ## Fetches, answers of media stations and fetch deadlines -/

/-- The BLOCK_FETCH of a record, addressed to the unit's media address (R165, R178, R191). -/
def fetchFrame (s : State) (r : FetchRecord) : List OwnFrame :=
  match (s.unit r.unit).station with
  | none => []
  | some (_, a) => [{
      dst := a
      src := s.tables.bridge.address
      etype := s.tables.bridge.frameType
      version := 1
      target := BitVec.ofNat 8 r.unit
      tag := 0
      body := .blockFetch r.unit r.id r.first r.count r.reAsk }]

/-- The HELD records of `which` are offered to the Own Queue of port `p` in the order they were issued:
while it has room their frames enter it, their deadlines are armed and they are counted (R165, R188). -/
def offered (which : FetchRecord → Bool) (p : Port) (s : State) : State :=
  let sent := (s.fetch.records.filter fun r => isHeld r && which r).take (ownSpace (s.port p))
  { s.modPort p fun x => { x with own := x.own ++ sent.flatMap (fetchFrame s) } with
    fetch := { s.fetch with records := s.fetch.records.map fun r =>
      if r ∈ sent then { r with phase := .out (s.after (s.unitSetup r.unit).fetchDeadline) } else r }
    units := Vector.ofFn fun u =>
      let m := s.unit u
      { m with counters := { m.counters with
          fetches := bumpBy (sent.filter fun r => decide (r.unit = u)).length m.counters.fetches } } }

/-- A new record, in phase HELD, enters the Fetch Table under the id counter's next value and is offered
at the port of its unit's media station (R164, R165). -/
def asked (r : FetchRecord) (s : State) : State :=
  let z := { s with fetch := { s.fetch with records := s.fetch.records ++ [r], lastId := r.id } }
  match (s.unit r.unit).station with
  | none => z
  | some (e, _) => offered (fun x => decide (x = r)) (s.lastPorts[e].getD .uplink) z

/-- The line of a group that a requester has just asked for: pinned once more, and the EMPTY blocks
between two of its blocks PENDING (R161, R164). -/
def lineAsked (l : CacheLine) (span : Option (Nat × Nat)) : CacheLine :=
  { l with
    pins := l.pins + 1
    blocks := Vector.ofFn fun k => match span with
      | some (lo, hi) =>
        if lo ≤ 8 * l.group + k ∧ 8 * l.group + k ≤ hi ∧ l.blocks[k] = .empty then .pending else l.blocks[k]
      | none => l.blocks[k] }

/-- The state once a read of image blocks `bs` of group `g` waits on line `l`, which stands behind the other
lines. Where some of the blocks are EMPTY and a record can be had, a fetch of the span from the lowest to
the highest of them is issued under the next id, with the EMPTY blocks of the span; without a record the
group joins the Issue Queue (R161, R163, R164). -/
def readWaits (i : SlotId) (u : UnitId) (first g : Nat) (bs : List Nat) (others : List CacheLine)
    (l : CacheLine) (s : State) : State :=
  let isHeldBack := fun b => decide (s.blockAt u b = .empty)
  let z := fun span => { s.modSlot i (fun x =>
      { x with port := { x.port with inFlight := some (.read first (bs.map .image) bs) } }) with
    cache := others ++ [lineAsked l span] }
  match bs.filter isHeldBack with
  | [] => z none
  | b :: more =>
    let lo := more.foldl min b
    let hi := more.foldl max b
    if s.fetch.records.length < 16 ∧ (recordsOf s u).length < 4 then
      asked { id := nextId s.fetch.lastId, unit := u, first := lo, count := hi - lo + 1
              waiting := ((List.range (hi - lo + 1)).map (lo + ·)).filter isHeldBack } (z (some (lo, hi)))
    else
      let e : IssueEntry := { unit := u, group := g, prime := false }
      { z none with fetch := { s.fetch with
          issue := if e ∈ s.fetch.issue then s.fetch.issue else s.fetch.issue ++ [e] } }

/-- A READ of image blocks of one group, the first of which is not VALID, waits. The group's line is found,
or taken free, or taken from the line nearest the least recent end that has no pin and no PENDING block,
which counts a replacement; it stands at the most recent end, pinned (R160, R161, R162). Where blocks are
EMPTY a fetch is issued and offered to the Own Queue of the station's port, or the group joins the Issue
Queue (R163, R164, R165, R188). Nothing else changes. At its
deadline a record below the re-ask limit is replaced by one under the next id with the same pending set,
its span, and the re-ask count one more; the blocks stay PENDING, and it is offered anew (R164, R169). A
message that changes the last port of its station's entry offers the HELD records of that entry's units
there, in the order they were issued (R182, R188). That a re-ask leaves the Issue Queue as it was, though it
frees the record it replaces (R163, R169), is the model's reading (assumption 22). -/
def Obligations.FetchesAsked : Prop :=
  (∀ (i : SlotId) (u : UnitId) (first count g : Nat) (bs : List Nat) (s : State), Presents i u s →
    1 ≤ count → count ≤ 128 → first + count ≤ s.capacity u →
    s.resolveAll u first count = some (bs.map .image) → (∀ b ∈ bs, b / 8 = g) →
    (∀ b, bs.head? = some b → isValid (s.blockAt u b) = false) →
    nextId s.fetch.lastId ∉ s.fetch.records.map (·.id) →
    let waits := fun others l z => exec (.storageRead i first count) s =
      .next (readWaits i u first g bs others l z)
    (∀ l, s.cache.filter (isLine u g) = [l] → waits (s.cache.filter fun x => !isLine u g x) l s) ∧
    (s.cache.filter (isLine u g) = [] →
      (s.cache.length < 256 → waits s.cache { unit := u, group := g } s) ∧
      (∀ v, 256 ≤ s.cache.length → s.cache.find? replaceable = some v →
        waits (s.cache.filter fun x => !isLine v.unit v.group x) { unit := u, group := g }
          { s with fetch := { s.fetch with counters := { s.fetch.counters with
              replacements := bump s.fetch.counters.replacements } } }))) ∧
  (∀ (r : FetchRecord) (due : Time) (s : State),
    s.fetch.records.find? (fun x => decide (x.id = r.id)) = some r → r.phase = .out due →
    reached due s.now = true → r.reAsk < (s.unitSetup r.unit).reAskLimit →
    let id := nextId s.fetch.lastId
    let left := s.fetch.records.filter fun x => decide (x.id ≠ r.id)
    (∃ t, exec (.fetchDeadline r.id) s = .next t ∧ t.cache = s.cache ∧ t.fetch.lastId = id ∧
      t.slots = s.slots ∧ (t.unit r.unit).counters.reAsks = bump (s.unit r.unit).counters.reAsks ∧
      ∃ r' ∈ t.fetch.records, r'.id = id ∧ r'.unit = r.unit ∧ r'.waiting = r.waiting ∧
        r'.reAsk = r.reAsk + 1 ∧ ∀ b ∈ r.waiting, r'.first ≤ b ∧ b < r'.first + r'.count) ∧
    (∀ lo hi, lo ∈ r.waiting → hi ∈ r.waiting → (∀ b ∈ r.waiting, lo ≤ b ∧ b ≤ hi) → id ∉ left.map (·.id) →
      exec (.fetchDeadline r.id) s = .next ((asked
        { r with id := id, first := lo, count := hi - lo + 1, phase := .held, reAsk := r.reAsk + 1 }
        { s with fetch := { s.fetch with records := left } }).modUnit r.unit fun m =>
          { m with counters := { m.counters with reAsks := bump m.counters.reAsks } }))) ∧
  ∀ (e : StationId) (p : Port) (s : State), s.lastPorts[e] ≠ some p → (s.fetch.records.map (·.id)).Nodup →
    hear e p s = offered (fun r => decide ((s.unit r.unit).station.map (·.1) = some e)) p
      { s with lastPorts := upd s.lastPorts e fun _ => some p }

/-- A BLOCK_DATA or BLOCK_ABSENT of a known station that fails a check of R166 is dropped without a reply
and counted, the first failing check deciding: MALFORMED, then FOREIGN, STALE, DUPLICATE, CHECK_FAIL.
Nothing else changes but that the station has been heard. -/
def Obligations.AnswersDropped : Prop :=
  ∀ (h : Header) (e : StationId) (u : UnitId) (id : BitVec 16) (block check : BitVec 32) (data : Block)
    (count : Nat) (reason : Byte) (s : State),
    let s1 := hear e h.port s
    let dropped := fun cmd (f : FetchCounters → FetchCounters) =>
      exec cmd s = .next { s1 with fetch := { s1.fetch with counters := f s1.fetch.counters } }
    let blockData := Instr.blockData h id block check data
    let both := [blockData, .blockAbsent h id block count reason]
    (s.lookup h.src = some e →
      h.version ≠ 1 ∨ h.bodyFits = false ∨ h.bodyExact = false ∨ finOf 4 h.target.toNat = none →
      ∀ cmd ∈ both, dropped cmd fun c => { c with malformed := bump c.malformed }) ∧
    (AnswerHeard h e u s →
      ((s.unit u).state ≠ .detached → (s.unit u).station ≠ some (e, h.src) →
        ∀ cmd ∈ both, dropped cmd fun c => { c with foreign := bump c.foreign }) ∧
      ((s.unit u).state = .detached ∨ (s.unit u).station = some (e, h.src) → s1.recordOf u id = none →
        ∀ cmd ∈ both, dropped cmd fun c => { c with stale := bump c.stale }) ∧
      ((s.unit u).station = some (e, h.src) → ∀ r, s1.recordOf u id = some r →
        (block.toNat ∉ r.waiting → dropped blockData fun c => { c with duplicate := bump c.duplicate }) ∧
        (block.toNat ∈ r.waiting → checkGood (s.unitSetup u) data check = false →
          dropped blockData fun c => { c with checkFail := bump c.checkFail }) ∧
        ((∀ b ∈ r.waiting, b < block.toNat ∨ block.toNat + count ≤ b) →
          dropped (.blockAbsent h id block count reason) fun c => { c with duplicate := bump c.duplicate })))

/-- A BLOCK_DATA that passes the checks makes its block VALID with its data and is counted; it leaves the
record's pending set (R166, R167). A record that awaits nothing more is freed, and a group that waits in
the Issue Queue then has its fetch issued (R163, R167). The read in flight on the unit's port is delivered
its blocks in LBA order up to the first that is not ready, and after its last one it is completed GOOD
(R152, R167). All this holds whatever the unit's prime. A running prime besides is DONE, with a PRIMED
notice, once every block it covers is VALID, and a GATE that waits for it goes on to its start press, or, of
a RESET, releases RST_OUT and finishes; else the prime stays as it is (R113, R116, R156, R158). The unit is
PRESENTING, and no other record stands under the id (R164). That the Issue Queue is served before the read is
told, and the read before the prime, is the model's reading (assumptions 22 and 23). That the notice stands
before those of the GATE's end (assumption 41), and that what the read's port has told its server is kept in a
list (assumption 18), are the model's choices. -/
def Obligations.BlockAccepted : Prop :=
  ∀ (h : Header) (e : StationId) (u : UnitId) (id : BitVec 16) (block check : BitVec 32) (data : Block)
    (r : FetchRecord) (s : State), AnswerHeard h e u s → (s.unit u).state = .presenting →
    (s.unit u).station = some (e, h.src) → (hear e h.port s).recordOf u id = some r →
    (∀ r' ∈ (hear e h.port s).fetch.records, r'.id = id → r' = r) →
    block.toNat ∈ r.waiting → checkGood (s.unitSetup u) data check = true →
    (s.line u (block.toNat / 8)).isSome = true →
    let s1 := hear e h.port s
    let b := block.toNat
    let m := s.unit u
    let ready := fun x => if x = .image b then some data else s.ready u x
    let more := ∃ k ∈ r.waiting, k ≠ b
    let left := s1.fetch.records.filter fun x => decide (x.id ≠ id)
    let cmd := Instr.blockData h id block check data
    let taken := fun (t : State) => t.blockAt u b = .valid data ∧
      (t.unit u).counters.accepted = bump m.counters.accepted ∧ t.noticeNumber = s.noticeNumber ∧
      (more → t.fetch.records = s1.fetch.records.map fun x =>
        if x.id = id then { r with waiting := r.waiting.filter fun k => decide (k ≠ b) } else x) ∧
      (¬ more → s.fetch.issue = [] → t.fetch.records = left) ∧
      (∀ w, ¬ more → s.blockAt u b = .pending → s.fetch.issue = [w] → left.length < 16 →
        (left.filter fun x => decide (x.unit = w.unit)).length < 4 →
        let need := s.emptyIn w.unit w.group (s.imagesOf w.unit w.prime)
        need ≠ [] → t.fetch.issue = [] ∧ ∃ r' ∈ t.fetch.records, r'.id = nextId s.fetch.lastId ∧
          r'.unit = w.unit ∧ r'.reAsk = 0 ∧ ∀ k ∈ need, k ∈ r'.waiting) ∧
      (∀ i lba sent rest images (ds : List Block), m.slot = some i →
        (s.slot i).port.inFlight = some (.read lba (sent ++ rest) images) → sent.map ready = ds.map some →
        (∀ x, rest.head? = some x → ready x = none) →
        let out := (s.slot i).port.out ++ ds.mapIdx fun k d => ServerOut.block (lba + k) d
        (t.slot i).port = if rest = [] then { inFlight := none, out := out ++ [.done .read .good] }
          else { inFlight := some (.read (lba + ds.length) rest images), out })
    let completes := m.prime = .running ∧ ∀ k ∈ m.primeImages, k = b ∨ isValid (s.blockAt u k) = true
    let primed := fun (z : State) => z.notify m.slot (.mediaState u .presenting .primed none (heldCount m))
    let ends := fun (f : State → State) => ∃ z, exec cmd s = .next (f (primed z)) ∧ taken z ∧
      (z.unit u).prime = .done ∧ (z.unit u).primeImages = []
    (¬ completes → ∃ t, exec cmd s = .next t ∧ taken t ∧ (t.unit u).prime = m.prime ∧
      (t.unit u).primeImages = m.primeImages) ∧
    (completes → (∀ i, m.slot = some i → (s.slot i).seq.state ≠ .waitGate) → ends fun z => z) ∧
    (∀ i q, completes → m.slot = some i → WaitsAtGate i q s → BootsFree i s →
      ends (gatePassed i .primed q))

/-- Blocks that a BLOCK_ABSENT names, or that are pending in a record whose deadline expires at its re-ask
limit, fail: they return to EMPTY, are counted, and one FETCH_FAILED notice names the record, their number
and the lowest of them, and the reason; a read in flight on the unit's port that waits on one of them is
completed MEDIUM_ERROR (R168, R169, R170, R174). A running prime that waits on one of them becomes FAILED,
with a PRIME_FAILED notice, and a GATE that waits for it fails: under WAIT it is waived and the sequence goes
on, and under REQUIRE it halts GATE_FAILED (R113, R156, R158, R170). The blocks that a BLOCK_ABSENT names
leave the record's pending set, and a record that then awaits nothing is freed; the record of the last
deadline is freed (R168, R169). Nothing waits in the Issue Queue. Where the unit is EJECTING, a read that so
ends is followed by the unit's detach (R142). That the PRIME_FAILED notice stands before those of the GATE's
end, and that the notice of a halt in a GATE carries no outcome of it, are the model's choices (assumptions
41 and 39). The list of what a port has told its server is the model's choice (assumption 18). -/
def Obligations.BlocksFail : Prop :=
  ∀ (u : UnitId) (i : SlotId) (r : FetchRecord) (s : State), (s.unit u).slot = some i →
    s.fetch.issue = [] → r.unit = u →
    let m := s.unit u
    let x := s.slot i
    let waits := fun (bs : List Nat) => match x.port.inFlight with
      | some (.read _ rest _) => (imagesIn rest).any bs.contains
      | _ => false
    let port := fun bs => if waits bs then
        { inFlight := none, out := x.port.out ++ [.done .read .mediumError] }
      else x.port
    let primes := fun (bs : List Nat) => m.prime = .running ∧ m.primeImages.any bs.contains = true
    let lowestOf := fun (bs : List Nat) lowest => lowest ∈ bs ∧ ∀ b ∈ bs, lowest ≤ b
    let failedNotice := fun (bs : List Nat) why lowest (s1 : State) =>
      s1.notify (some i) (.fetchFailed u r.id r.first r.count bs.length lowest why r.reAsk)
    let failed := fun (bs : List Nat) (why : FetchReason) (s1 t : State) =>
      (∀ b ∈ bs, t.blockAt u b = .empty) ∧
      (t.unit u).counters.failed = bumpBy bs.length m.counters.failed ∧
      ((t.unit u).prime, (t.unit u).primeImages) =
        (if primes bs then (.failed, []) else (m.prime, m.primeImages)) ∧
      ∃ lowest, lowestOf bs lowest ∧
        let told := failedNotice bs why lowest s1
        let ends := if primes bs then gateTold i (told.notify (some i)
          (.mediaState u .presenting .primeFailed none (heldCount m))) else told
        t = { ends with slots := t.slots, units := t.units, cache := t.cache, fetch := t.fetch } ∧
        ∀ j, t.slot j = if j = i then { ends.slot i with port := port bs } else ends.slot j
    let gone := fun (bs : List Nat) (why : FetchReason) (s1 t : State) => ∃ lowest, lowestOf bs lowest ∧
      Detached u i m.ejectReason (heldCount m) (failedNotice bs why lowest s1) t ∧
      ∀ j, t.slot j = if j = i then { x with port := port bs } else s.slot j
    let fails := fun (cmd : Instr) (bs : List Nat) (why : FetchReason) (s1 : State) (kept : State → Prop) =>
      (m.state = .presenting → (primes bs → x.seq.state = .waitGate → GateKnown u i s ∧ BootsFree i s) →
        ∃ t, exec cmd s = .next t ∧ failed bs why s1 t ∧ kept t) ∧
      (m.state = .ejecting → waits bs = true → ∃ t, exec cmd s = .next t ∧ gone bs why s1 t)
    (∀ h e first count reason, AnswerHeard h e u s → m.station = some (e, h.src) →
      (hear e h.port s).recordOf u r.id = some r →
      let bs := r.waiting.filter fun b => decide (first.toNat ≤ b) && decide (b < first.toNat + count)
      bs ≠ [] → fails (.blockAbsent h r.id first count reason) bs (.absent reason) (hear e h.port s) fun t =>
        let records := (hear e h.port s).fetch.records
        let left := r.waiting.filter fun b => decide (b ∉ bs)
        (∀ r' ∈ records, r'.id = r.id → r' = r) → t.fetch.records =
          if left = [] then records.filter fun x => decide (x.id ≠ r.id)
          else records.map fun x => if x.id = r.id then { r with waiting := left } else x) ∧
    (∀ due, s.fetch.records.find? (fun x => decide (x.id = r.id)) = some r → r.phase = .out due →
      reached due s.now = true → (s.unitSetup u).reAskLimit ≤ r.reAsk → r.waiting ≠ [] →
      fails (.fetchDeadline r.id) r.waiting .noAnswer s fun t =>
        t.fetch.records = s.fetch.records.filter fun x => decide (x.id ≠ r.id))

/-! ## Ports and frames -/

/-- The command of a message that a station sends (R33, R47, R101, R191, R195, R197): none for a message
whose mode, form, action or table the manual does not know. -/
def commandOf (h : Header) : Message → Option Instr
  | .discover => some (.discover h .bridge)
  | .slotQuery => some (.slotQuery h)
  | .slotClear => some (.slotClear h)
  | .consoleRead (.absolute p) max => some (.consoleReadAbsolute h p max)
  | .consoleRead .cursor max => some (.consoleReadCursor h max)
  | .consoleRead (.marker sel offset) max => some (.consoleReadMarker h sel offset max)
  | .consoleRead .unknown _ => none
  | .historyClear => some (.historyClear h)
  | .consoleHold .take => some (.consoleHoldTake h)
  | .consoleHold .force => some (.consoleHoldForce h)
  | .consoleHold .release => some (.consoleHoldRelease h)
  | .consoleHold .renew => some (.consoleHoldRenew h)
  | .consoleHold .unknown => none
  | .consoleWrite quote count bytes => some (.consoleWrite h quote count bytes)
  | .consoleBreak quote duration => some (.consoleBreak h quote duration)
  | .linesQuery => some (.linesQuery h)
  | .power (.act a) profile quotes => some (powerCommand a h profile quotes)
  | .power .abort profile quotes => some (.powerAbort h profile quotes)
  | .power .unknown _ _ => none
  | .mediaBind slot => some (.mediaBind h slot)
  | .mediaUnbind => some (.mediaUnbind h)
  | .mediaQuery => some (.mediaQuery h)
  | .blockData id block check data => some (.blockData h id block check data)
  | .blockAbsent id first count reason => some (.blockAbsent h id first count reason)
  | .tableWrite w (.station x) => some (.tableWriteStation h w x)
  | .tableWrite w (.slotSetup x) => some (.tableWriteSlotSetup h w x)
  | .tableWrite w (.consoleSetup x) => some (.tableWriteConsoleSetup h w x)
  | .tableWrite w (.profile x) => some (.tableWriteProfile h w x)
  | .tableWrite w (.classMap x) => some (.tableWriteClassMap h w x)
  | .tableWrite w (.automaton x) => some (.tableWriteAutomaton h w x)
  | .tableWrite w (.stateAction x) => some (.tableWriteStateAction h w x)
  | .tableWrite w (.watchAction x) => some (.tableWriteWatchAction h w x)
  | .tableWrite w (.unitSetup x) => some (.tableWriteUnitSetup h w x)
  | .tableWrite w (.imageMap x) => some (.tableWriteImageMap h w x)
  | .tableWrite w (.bridgeSetup x) => some (.tableWriteBridgeSetup h w x)
  | .tableWrite _ .unknownTable => none
  | .tableRead t n => some (.tableRead h t n)
  | .bridgeControl .save => some (.bridgeControlSave h)
  | .bridgeControl (.restart quote) => some (.bridgeControlRestart h quote)
  | .bridgeControl (.counters g clear) => some (.bridgeControlCounters h g clear)
  | .bridgeControl .unknown => none
  | .foreign k => some (.messageUnknownKind h k)

/-- A frame is dropped on a bad FCS, on its length, or by the classifier, each counted; a frame that is
not for the bridge goes to the tail of the other port's Pass Queue when it finds room there and is
dropped otherwise; a message for the bridge runs its kind's command; a DISCOVER sent to the group address
or to broadcast is passed on and also answered, to a known station; a port in DOWN receives nothing
(R177, R179, R185, R196). Messages of a mode, form, action or table that the manual does not know are not
treated here. That a frame which fails the FCS and the length test counts as an FCS error only is the model's
choice (assumption 53). The form of a frame is the model's choice too (assumption 6): whether a body is that
of its kind is the bit fieldsExact and the limit of 1,482 bytes for a kind with fields, and the body length 0
for one without; bytes that are no message are read at the header's offsets (R191), most significant byte
first, and are of an unknown kind. -/
def Obligations.FramesSorted : Prop :=
  ∀ (p : Port) (f : Frame) (s : State),
    let b := s.tables.bridge
    let counted := fun (g : PortCounters → PortCounters) => s.modPort p fun x => { x with counters := g x.counters }
    let s1 := counted fun c => { c with received := bump c.received }
    let q := otherPort p
    let good := (s.port p).up = true ∧ f.fcsGood = true ∧ 64 ≤ f.length ∧ f.length ≤ 1522
    let toAll := (f.dst = b.group ∨ f.dst = BitVec.allOnes 48) ∧ f.etype = b.frameType ∧ isDiscover f = true
    let own := good ∧ f.src ≠ b.address ∧ f.dst = b.address ∧ f.etype = b.frameType
    ((s.port p).up = false → exec (.frameReceived p f) s = .next s) ∧
    ((s.port p).up = true → f.fcsGood = false → exec (.frameReceived p f) s =
      .next (counted fun c => { c with fcsErrors := bump c.fcsErrors })) ∧
    ((s.port p).up = true → f.fcsGood = true → f.length < 64 ∨ 1522 < f.length →
      exec (.frameReceived p f) s = .next (counted fun c => { c with lengthErrors := bump c.lengthErrors })) ∧
    (good → f.src = b.address → exec (.frameReceived p f) s = .next { s1 with
      frameCounters := { s.frameCounters with selfSource := bump s.frameCounters.selfSource } }) ∧
    (good → f.src ≠ b.address → f.dst = b.address → f.etype ≠ b.frameType →
      exec (.frameReceived p f) s = .next { s1 with
        frameCounters := { s.frameCounters with wrongType := bump s.frameCounters.wrongType } }) ∧
    (good → f.src ≠ b.address → f.dst ≠ b.address → ¬ toAll →
      exec (.frameReceived p f) s = .next (passedOn q f s1)) ∧
    (∀ version target tag bodyLength fieldsExact m,
      f.payload = .bridge version target tag bodyLength fieldsExact m →
      let h : Header := { port := p, src := f.src, version, target, tag, bodyLength, frameLength := f.length
                          bodyExact := if m.hasNoFields then decide (bodyLength = 0)
                                       else fieldsExact && decide (bodyLength.toNat ≤ 1482) }
      (∀ cmd, own → commandOf h m = some cmd → exec (.frameReceived p f) s = exec cmd s1) ∧
      (good → f.src ≠ b.address → f.dst ≠ b.address → toAll →
        (s.lookup f.src = none → exec (.frameReceived p f) s = .next (passedOn q f s1)) ∧
        (∀ e, Taken h e s1 → exec (.frameReceived p f) s = .next (replied h .discover .ok
          (.discover (discoverReport s e)) (hear e p (passedOn q f s1)))))) ∧
    (∀ bs, own → f.payload = .other bs →
      let byte := fun offset => bs.getD (offset - 14) 0
      exec (.frameReceived p f) s = exec (.messageUnknownKind
        { port := p, src := f.src, version := byte 14, target := byte 16, tag := byte 17 ++ byte 18
          bodyLength := byte 19 ++ byte 20, frameLength := f.length, bodyExact := false } (.code (byte 15))) s1)

/-- Every request of an unknown station is dropped without a reply and counted, and every request of a
known station that finds no reply space is not handled and is counted (R179, R186). A wrong version, and
with the right one an unknown kind or a kind that only the bridge sends, is refused with UNSUPPORTED,
whatever the request; a body length past the frame is refused with MALFORMED (R192). A TABLE_WRITE from
an entry without ADMIN is refused with DENIED, one outside the table's indices with RANGE, and during a
SAVE with BUSY (R195). Nothing but the reply follows a refusal. A DISCOVER from the bridge's own address
is dropped before any of this (R179). -/
def Obligations.RequestsRefused : Prop :=
  (∀ (c : Instr) (k : MsgKind) (h : Header) (s : State), requestOf c = some (k, h) →
    (k = .discover → h.src ≠ s.tables.bridge.address) →
    (s.lookup h.src = none → exec c s = .next { s with
      frameCounters := { s.frameCounters with unknownStation := bump s.frameCounters.unknownStation } }) ∧
    (∀ e, s.lookup h.src = some e →
      let s1 := hear e h.port s
      (s1.ownRoom h.port = false → exec c s = .next (s1.modPort h.port fun x =>
        { x with counters := { x.counters with replySpace := bump x.counters.replySpace } })) ∧
      (s1.ownRoom h.port = true →
        (h.version ≠ 1 ∨ isForeign k = true → exec c s = .next (replied h k .unsupported .none s1)) ∧
        (h.version = 1 → isForeign k = false → h.frameLength < 21 + h.bodyLength.toNat + 4 →
          exec c s = .next (replied h k .malformed .none s1))))) ∧
  ∀ (h : Header) (e : StationId) (w : WriteHead) (x : TableEntry) (s : State), Taken h e s →
    let refused := fun st =>
      exec (writeCommand h w x) s = .next (replied h .tableWrite st .none (hear e h.port s))
    ((s.station e).rights.admin = false → refused .denied) ∧
    ((s.station e).rights.admin = true →
      (w.index < (indexRange x).1 ∨ (indexRange x).2 ≤ w.index → refused .range) ∧
      ((indexRange x).1 ≤ w.index → w.index < (indexRange x).2 → entryLength x = true → s.save ≠ none →
        refused .busy))

/-- The Egress Arbiter of an idle port in UP sends the head of the only queue that holds frames; with
both, the head of the Own Queue while the own-share counter is below the own share, else the head of the
Pass Queue, and the counter moves on, 7 being followed by 0 (R189). As a frame leaves the Own Queue, the
HELD records of the stations reached through the port are offered, in the order they were issued (R165,
R188). A frame whose last byte has left is
counted; with the reply of a pending restart the restart is due (R189, R199). The restart that is pending
and then due is the model's reading (assumption 28). -/
def Obligations.EgressServed : Prop :=
  ∀ (p : Port) (s : State),
    let x := s.port p
    let sent := fun (o : Option Outgoing) => s.modPort p fun x => { x with
      sending := o
      counters := { x.counters with sent := bump x.counters.sent } }
    (x.up = true → x.sending = none →
      (∀ f rest, x.pass = f :: rest → x.own = [] → exec (.egressChoice p) s =
        .next (s.modPort p fun x => { x with pass := rest, sending := some (.pass f) })) ∧
      (∀ f rest g own, x.pass = f :: rest → x.own = g :: own → s.tables.bridge.ownShare ≤ x.share →
        exec (.egressChoice p) s = .next (s.modPort p fun x =>
          { x with pass := rest, sending := some (.pass f), share := (x.share + 1) % 8 })) ∧
      (∀ g own, x.own = g :: own → (x.pass = [] ∨ x.share < s.tables.bridge.ownShare) →
        let share := if x.pass = [] then x.share else (x.share + 1) % 8
        (∃ t, exec (.egressChoice p) s = .next t ∧ (t.port p).sending = some (.own g) ∧
          (t.port p).pass = x.pass ∧ (∃ l, (t.port p).own = own ++ l) ∧ (t.port p).share = share ∧
          t.slots = s.slots ∧ t.cache = s.cache) ∧
        ((s.fetch.records.map (·.id)).Nodup → exec (.egressChoice p) s =
          .next (offered (viaPort p s) p (s.modPort p fun x =>
            { x with own := own, sending := some (.own g), share }))))) ∧
    (∀ o, x.sending = some o → (sendsRestart (some o) = false ∨ s.restart ≠ .pending →
        exec (.frameSent p) s = .next (sent none)) ∧
      (sendsRestart (some o) = true → s.restart = .pending →
        exec (.frameSent p) s = .next { sent none with restart := .due }))

/-- A link up takes a port in DOWN to UP with empty queues, and offers the HELD records of the stations
reached through it, in the order they were issued (R176, R188); a link down takes a port in UP to DOWN,
flushes both queues and the frame being sent, counts them and the link down, and makes a pending restart
whose reply is flushed due (R176, R199). A report that repeats the state changes nothing, which is the
model's reading (assumption 32). So is the restart that is pending and then due (assumption 28). -/
def Obligations.LinksFollowed : Prop :=
  ∀ (p : Port) (s : State),
    let x := s.port p
    let n := x.pass.length + x.own.length + (if x.sending = none then 0 else 1)
    let down := s.modPort p fun x => { x with
      up := false, pass := [], own := [], sending := none
      counters := { x.counters with
        flushed := bumpBy n x.counters.flushed
        linkDowns := bump x.counters.linkDowns } }
    let lost := sendsRestart x.sending || x.own.any isRestartReply
    (x.up = true → exec (.linkUp p) s = .next s) ∧ (x.up = false → exec (.linkDown p) s = .next s) ∧
    (x.up = false →
      (∃ t, exec (.linkUp p) s = .next t ∧ (t.port p).up = true ∧ (t.port p).pass = [] ∧
        (t.port p).sending = x.sending ∧ (t.port p).counters = x.counters ∧ t.slots = s.slots ∧
        t.cache = s.cache) ∧
      ((s.fetch.records.map (·.id)).Nodup → exec (.linkUp p) s = .next (offered (viaPort p s) p
        (s.modPort p fun x => { x with up := true, pass := [], own := [] })))) ∧
    (x.up = true → (lost = false ∨ s.restart ≠ .pending) → exec (.linkDown p) s = .next down) ∧
    (x.up = true → lost = true → s.restart = .pending →
      exec (.linkDown p) s = .next { down with restart := .due })

/-! ## Tables -/

/-- Entry fields that a table's rule takes lie in their ranges after clamping (R3, R19, R20, R42, R60,
R76, R85, R97, R124, R145, R146, R178, R189). -/
def Obligations.EntriesInRange : Prop :=
  (∀ c e y, judgeSlotSetup c e = some y → y.profile ≤ 7 ∧ y.recoveryLimit ≤ 15 ∧ 1 ≤ y.windowHours ∧
    y.windowHours ≤ 24 ∧ y.startState ≤ 511 ∧ 1 ≤ y.silenceLimit ∧ y.silenceLimit ≤ 63 ∧
    y.silenceUnit ∈ [1, 4, 16, 64, 256, 1024] ∧ y.silenceAction ≤ 31 ∧ 1 ≤ y.pgFilter ∧ y.pgFilter ≤ 50) ∧
  (∀ c e y, judgeConsole c e = some y → y.baud ∈ bauds ∧ (y.dataBits = 7 ∨ y.dataBits = 8) ∧
    (y.stopBits = 1 ∨ y.stopBits = 2) ∧ 10 ≤ y.idleLimit ∧ y.idleLimit ≤ 3600) ∧
  (∀ c e y, judgeProfile c e = some y → 50 ≤ y.tapWidth ∧ y.tapWidth ≤ 2000 ∧ 4000 ≤ y.holdWidth ∧
    y.holdWidth ≤ 15000 ∧ 50 ≤ y.resetWidth ∧ y.resetWidth ≤ 2000 ∧ 1 ≤ y.softGrace ∧ y.softGrace ≤ 600 ∧
    1 ≤ y.offDwell ∧ y.offDwell ≤ 60 ∧ 1 ≤ y.onDeadline ∧ y.onDeadline ≤ 120 ∧ 1 ≤ y.gateWait ∧
    y.gateWait ≤ 300 ∧ y.feedCharge ≤ 1000 ∧ y.startCharge ≤ 1000 ∧ 10 ≤ y.feedSettle ∧
    y.feedSettle ≤ 10000 ∧ 10 ≤ y.startSettle ∧ y.startSettle ≤ 10000 ∧ y.holdUp ≤ 60000) ∧
  (∀ c e y, judgeWatch c e = some y → y.returnState ≤ 511 ∧ y.holdOff ≤ 3600) ∧
  (∀ c e y, judgeUnit c e = some y → 50 ≤ y.fetchDeadline ∧ y.fetchDeadline ≤ 5000 ∧ y.reAskLimit ≤ 7 ∧
    y.overlayLimit ≤ 4096 ∧ y.presentBoots ≤ 15 ∧
    (y.width = .w16 → y.poly.toNat < 65536 ∧ y.init.toNat < 65536 ∧ y.finalXor.toNat < 65536)) ∧
  (∀ c r y, judgeRegion c r = some y → y.first < 2 ^ 31 ∧ 1 ≤ y.count ∧ y.count ≤ 2 ^ 31 ∧
    (y.kind = .remote ∨ y.kind = .overlay → y.base.getD 0 + y.count ≤ 2 ^ 32) ∧
    (y.kind = .local_ ∨ y.kind = .zero ∨ y.kind = .absent → y.base = none)) ∧
  ∀ c e y, judgeBridge c e = some y → 10 ≤ y.capacity ∧ y.capacity ≤ 4000 ∧ y.spacing ≤ 5000 ∧
    10 ≤ y.limits.glitch ∧ y.limits.glitch ≤ 255 ∧ 1000 ≤ y.limits.hold ∧ y.limits.hold ≤ 8000 ∧
    5000 ≤ y.limits.stuck ∧ y.limits.stuck ≤ 30000 ∧ y.limits.hold < y.limits.stuck ∧ 1 ≤ y.ownShare ∧
    y.ownShare ≤ 8 ∧ 0x0600 ≤ y.frameType.toNat ∧ groupBit y.group = true ∧
    y.group ≠ broadcast ∧ groupBit y.address = false

/-- A taken Station Table write stores the entry, makes its last port and cursors absent, clears the
holder of each slot that the entry held and may no longer type on, with a HOLDER marker and a
HOLDER_CHANGED notice, and keeps every other holder (R53, R183, R184). A unit that presents for the entry
is ejected when the entry is no longer valid, no longer holds MEDIA on the unit's slot, or has another
address (R143, R184); shown whole where the write ends one holding, ejects one unit, or does neither. A
write of an address another valid entry holds, or that leaves no entry with ADMIN, is refused with STATE
(R183). The request's target, of which the kind has no use, may hold any value (assumption 9), and the
reset of the last port offers no fetch (assumption 42): both are the model's reading. So is it that the
reply stands before the notices (assumption 10), and, of a GATE that waits on the ejected unit and halts, that
its notice carries no outcome of it (assumption 39). That the echo carries the last port is the model's choice
(assumption 46). -/
def Obligations.StationWritten : Prop :=
  ∀ (h : Header) (e k : StationId) (w : WriteHead) (x : StationEntry) (s : State),
    WriteTaken h e w (.station x none) s → w.index = k.val → goodStationAddr x.address = true →
    let table := upd s.tables.stations k fun _ => x
    let s1 := hear e h.port s
    let stored := { replied h .tableWrite .ok (.table (.station x none)) s1 with
      tables := { s.tables with stations := table }
      lastPorts := upd s1.lastPorts k (fun _ => none)
      cursors := upd s.cursors k (fun _ => Vector.replicate 8 none) }
    let ends := fun i => (s.slot i).input.holder = some k ∧ (x.valid && x.rights.type && maskHas x.mask i) = false
    let keeps := fun i => x.valid = true ∧ x.rights.media = true ∧ maskHas x.mask i = true ∧
      x.address = (s.station k).address
    let loses := fun u => isMediaStation (s.unit u) k = true ∧ (s.unit u).state = .presenting ∧
      ∀ i, (s.unit u).slot = some i → ¬ keeps i
    (addressTaken s.tables.stations k x = true ∨ hasAdmin table = false →
      exec (.tableWriteStation h w x) s = .next (replied h .tableWrite .state .none s1)) ∧
    (addressTaken s.tables.stations k x = false → hasAdmin table = true →
      (∃ t, exec (.tableWriteStation h w x) s = .next t ∧ t.tables = { s.tables with stations := table } ∧
        t.lastPorts = stored.lastPorts ∧ t.cursors = stored.cursors ∧
        (∀ i, (t.slot i).input.holder = if ends i then none else (s.slot i).input.holder) ∧
        ∀ u i, loses u → (s.unit u).slot = some i → (t.unit u).state ≠ .presenting) ∧
      ((∀ i, ¬ ends i) → (∀ u, ¬ loses u) → exec (.tableWriteStation h w x) s = .next stored) ∧
      (∀ i, ends i → (∀ j, ends j → j = i) → (∀ u, ¬ loses u) →
        exec (.tableWriteStation h w x) s = .next ((stored.modSlot i (holdingEnded s.now)).notify (some i)
          (.holderChanged (some k) none .stationChange (s.slot i).input.count))) ∧
      (∀ u i, (∀ i, ¬ ends i) → loses u → (∀ v, loses v → v = u) → (s.unit u).slot = some i →
        GateKnown u i s → ∃ t, exec (.tableWriteStation h w x) s = .next t ∧
          Ejected u i .stationChange stored t))

/-- A taken SLOT_SETUP write stores the entry whole, sets the matcher's state when it turns the matcher
on, restarts the Silence Timer when it changes its fields and the PG filter when it changes the PG setup
(R19, R62, R77, R84); one that turns off the enable of a raised FEED drops it, with a POWER_CHANGED notice
(R6, R80, R81). A write that
changes an output that its line or sequencer forbids is refused with STATE (R81). The target may hold any
value, which is the model's reading (assumption 9). That the reply stands before the notices is the
model's reading (assumption 10). -/
def Obligations.SlotSetupWritten : Prop :=
  ∀ (h : Header) (e : StationId) (i : SlotId) (w : WriteHead) (x y : SlotSetup) (s : State),
    WriteTaken h e w (.slotSetup x) s → w.index = i.val → judgeSlotSetup true x = some y →
    let old := s.setup i
    let z := s.slot i
    let s1 := hear e h.port s
    let stored := { replied h .tableWrite .ok (.table (.slotSetup y)) (s1.modSlot i (fun z => { z with
        matcher := if old.matchEnable = false ∧ y.matchEnable = true then
            { z.matcher with state := y.startState } else z.matcher
        silence := if silenceChanged old y then {} else z.silence
        pg := if pgChanged old y then
            { z.pg with due := if (z.pg.pin == y.pgHigh) = z.pg.filtered then none
                               else some (s.after y.pgFilter) }
          else z.pg })) with
      tables := { s.tables with slotSetup := upd s.tables.slotSetup i fun _ => y } }
    (setupForbidden s i y = true →
      exec (.tableWriteSlotSetup h w x) s = .next (replied h .tableWrite .state .none s1)) ∧
    (setupForbidden s i y = false → (z.lines.feed = false ∨ old.feed.enable = false ∨ y.feed.enable = true) →
      exec (.tableWriteSlotSetup h w x) s = .next stored) ∧
    (setupForbidden s i y = false → z.lines.feed = true → old.feed.enable = true → y.feed.enable = false →
      (∃ t, exec (.tableWriteSlotSetup h w x) s = .next t ∧ (t.slot i).lines = { z.lines with feed := false } ∧
        (t.slot i).record.observed = .feedOff ∧ (t.slot i).record.feedDropped = some s.now ∧
        (t.slot i).coldMark = false ∧ t.setup i = y ∧ ∀ j, j ≠ i → t.slot j = s.slot j) ∧
      (z.record.observed ≠ .feedOff →
        exec (.tableWriteSlotSetup h w x) s = .next ((stored.modSlot i fun x => { x with
          record := { x.record with
            observed := .feedOff
            resetWhileOn := if z.record.observed = .on then false else x.record.resetWhileOn
            feedDropped := some s.now }
          silence := if z.record.observed = .on then {} else x.silence
          lines := { x.lines with feed := false }
          coldMark := false }).notify (some i)
            (.powerChanged z.record.observed .feedOff false z.record.bootCount z.record.lastCause))))

/-- A taken write of a table with no effect but its own entry stores the entry as its rule leaves it,
echoes it in a reply from the address in force before it, and changes nothing else (R20, R59, R60, R97,
R145, R146, R195; the reply's address is assumption 26). A profile that a busy sequence uses, and the
setup or map of a unit that is not DETACHED, are refused with STATE; so an empty map entry too. The request's target, of which the
kind has no use, may hold any value, which is the model's reading (assumption 9). -/
def Obligations.EntriesStored : Prop :=
  ∀ (h : Header) (e : StationId) (w : WriteHead) (s : State),
    let n := w.index
    let s1 := hear e h.port s
    let t := s.tables
    let stored := fun (x : TableEntry) (y : TableEntry) (t : Tables) => exec (writeCommand h w x) s =
      .next { replied h .tableWrite .ok (.table y) s1 with tables := t }
    let inUse := fun (x : TableEntry) => exec (writeCommand h w x) s =
      .next (replied h .tableWrite .state .none s1)
    (∀ x y (i : SlotId), WriteTaken h e w (.consoleSetup x) s → n = i.val → judgeConsole true x = some y →
      stored (.consoleSetup x) (.consoleSetup y)
        { t with consoleSetup := upd t.consoleSetup i fun _ => y }) ∧
    (∀ x y (k : Fin 8), WriteTaken h e w (.profile x) s → n = k.val → judgeProfile true x = some y →
      (profileInUse s k = false → stored (.profile x) (.profile y)
        { t with profiles := upd t.profiles k fun _ => y }) ∧
      (profileInUse s k = true → inUse (.profile x))) ∧
    (∀ x, WriteTaken h e w (.classMap x) s → x ≤ 31 → stored (.classMap x) (.classMap x)
      { t with classMap := sparseSet factoryIndex t.classMap n x }) ∧
    (∀ x, WriteTaken h e w (.automaton x) s → (∀ y ∈ x, y ≤ 511) → stored (.automaton x) (.automaton x)
      { t with automaton := sparseSet factoryRow t.automaton n x }) ∧
    (∀ x, WriteTaken h e w (.stateAction x) s → x ≤ 31 → stored (.stateAction x) (.stateAction x)
      { t with stateAction := sparseSet factoryIndex t.stateAction n x }) ∧
    (∀ x y, WriteTaken h e w (.watchAction x) s → judgeWatch true x = some y →
      stored (.watchAction x) (.watchAction y) { t with watch := sparseSet factoryWatch t.watch n y }) ∧
    (∀ x y (u : UnitId), WriteTaken h e w (.unitSetup x) s → n = u.val → judgeUnit true x = some y →
      ((s.unit u).state = .detached → stored (.unitSetup x) (.unitSetup y)
        { t with unitSetup := upd t.unitSetup u fun _ => y }) ∧
      ((s.unit u).state ≠ .detached → inUse (.unitSetup x))) ∧
    (∀ r y (k : Fin 64), WriteTaken h e w (.imageMap (some r)) s → n = k.val →
      judgeRegion true r = some y →
      ((s.unit (mapUnit k)).state = .detached → mapOverlap t.maps k y = false →
        stored (.imageMap (some r)) (.imageMap (some y)) { t with maps := upd t.maps k fun _ => some y }) ∧
      ((s.unit (mapUnit k)).state ≠ .detached ∨ mapOverlap t.maps k y = true →
        inUse (.imageMap (some r)))) ∧
    (∀ k : Fin 64, WriteTaken h e w (.imageMap none) s → n = k.val →
      ((s.unit (mapUnit k)).state = .detached → stored (.imageMap none) (.imageMap none)
        { t with maps := upd t.maps k fun _ => none }) ∧
      ((s.unit (mapUnit k)).state ≠ .detached → inUse (.imageMap none))) ∧
    (∀ x y, WriteTaken h e w (.bridgeSetup x) s → judgeBridge true x = some y →
      stored (.bridgeSetup x) (.bridgeSetup y) { t with bridge := y })

/-! ## Bridge control, restart and power-up -/

/-- SAVE copies the tables, marks the store INVALID and runs for at most 1,500 ms; at its end the store
holds the copy and one SAVE_DONE notice is sent; a RESTART that quotes the restart count becomes pending,
and one that quotes another is STALE. While a SAVE is running or a restart is pending both are BUSY, and
an entry without ADMIN is DENIED (R197, R198, R199). COUNTERS answers with the group's counters as they
stand and, with the clear flag, sets them to 0 in
the same event; an unknown group is UNSUPPORTED and a number outside its range is RANGE (R136, R201). The
target may hold any value, which is the model's reading (assumption 9). So is the restart that is pending
and then due (assumption 28). That 0 and 1 name the ports is the model's choice (assumption 48). -/
def Obligations.ControlsTaken : Prop :=
  (∀ (s : State) (j : SaveJob), s.save = some j → exec .saveComplete s =
    .next ({ s with save := none, store := some j.copy }.notify none (.saveDone j.taken))) ∧
  ∀ (h : Header) (e : StationId) (quote : BitVec 16) (clear : Bool) (s : State), Taken h e s →
    let s1 := hear e h.port s
    let free := s.save = none ∧ s.restart = .none
    let admin := (s.station e).rights.admin
    let both := [Instr.bridgeControlSave h, .bridgeControlRestart h quote]
    let read := fun g r (z : State) => exec (.bridgeControlCounters h g clear) s =
      .next (replied h .bridgeControl .ok (.counters r) (if clear then z else s1))
    let refused := fun g st => exec (.bridgeControlCounters h g clear) s =
      .next (replied h .bridgeControl st .none s1)
    (admin = false → (∀ cmd ∈ both, exec cmd s = .next (replied h .bridgeControl .denied .none s1)) ∧
      ∀ g, refused g .denied) ∧
    (admin = true →
      (free →
        exec (.bridgeControlSave h) s = .next (replied h .bridgeControl .ok .none { s1 with
          save := some { copy := s.tables, taken := s.now, due := s.now + 1500 }
          store := none }) ∧
        exec (.bridgeControlRestart h quote) s = .next (
          if quote = s.restartCount then
            replied h .bridgeControl .ok .restartAccepted { s1 with restart := .pending }
          else replied h .bridgeControl .stale (.restartStale s.restartCount) s1)) ∧
      (¬ free → ∀ cmd ∈ both, exec cmd s = .next (replied h .bridgeControl .busy .none s1)) ∧
      (∀ p : Port, read (.port (match p with | .uplink => 0 | .chain => 1))
        (.port (s1.port p).counters (s1.port p).up) (s1.modPort p fun x => { x with counters := {} })) ∧
      read .frame (.frame s.frameCounters) { s1 with frameCounters := {} } ∧
      (∀ i : SlotId,
        read (.slot i) (.slot (s.slot i).counters) (s1.modSlot i fun x => { x with counters := {} })) ∧
      (∀ u : UnitId,
        read (.unit u) (.unit (s1.unit u).counters) (s1.modUnit u fun m => { m with counters := {} })) ∧
      read .fetch (.fetch s.fetch.counters) { s1 with fetch := { s1.fetch with counters := {} } } ∧
      read .inrush (.inrush s.inrush.counters (inrushSnapshot s))
        { s1 with inrush := { s.inrush with counters := {} } } ∧
      refused .unknown .unsupported ∧ (∀ n, 2 ≤ n → refused (.port n) .range) ∧
      (∀ n, 8 ≤ n → refused (.slot n) .range) ∧ ∀ n, 4 ≤ n → refused (.unit n) .range)

/-- A slot as a restart leaves it before its RST_OUT is released: the receiver waits for mark, the input, the
Silence Timer, the recovery window, the Line Event Log and the counters are empty, the matcher is in the
loaded start state with no hold-off, the claims on PWR_OUT and the presses are gone, a busy sequencer is HALTED
BRIDGE_RESTART, a request in flight is completed NOT_PRESENT, and the PG filter runs when the line differs from
the filtered state. The record, the history and the cold mark are kept (R24, R25, R46, R62, R67, R73, R82, R84,
R92, R94, R100, R126, R148). -/
def restartedTo (c : SlotSetup) (now : Time) (x : Slot) : Slot :=
  let button := fun (k : Classifier) =>
    ({ pressed := k.pressed, seen := !k.pressed, state := .released } : Classifier)
  { record := x.record
    rx := .needMark false
    hist := x.hist
    input := {}
    matcher := { state := c.startState, holdOffs := [] }
    silence := {}
    recovery := {}
    lines := { pwrSeq := false, pwrLocal := false, rstSeq := x.lines.rstSeq, rstLocal := x.lines.rstLocal,
               feed := x.lines.feed }
    pg := { x.pg with
      due := if (x.pg.pin == c.pgHigh) = x.pg.filtered then none
        else some (now + BitVec.ofNat 32 (max 1 c.pgFilter)) }
    pwrBtn := button x.pwrBtn
    rstBtn := button x.rstBtn
    log := {}
    seq := { state := if seqBusy x.seq.state then .halted .bridgeRestart else .idle, record := none }
    coldMark := x.coldMark
    port := match x.port.inFlight with
      | some r => { inFlight := none, out := x.port.out ++ [.done (requestKind r) .notPresent] }
      | none => x.port
    counters := {} }

/-- The report of a sequence that the restart from `old` has halted: its marker, its notice and its count
(R100, R120, R122). -/
def restartHalt (old s : State) (i : SlotId) : State :=
  match (old.slot i).seq.record with
  | some r =>
    if seqBusy (old.slot i).seq.state then
      (s.modSlot i fun x => { x with
        hist := postTo x.hist s.now (.sequence r.action (.halted .bridgeRestart))
        counters := { x.counters with halted := bump x.counters.halted } }).notify (some i)
          (.sequenceHalted .bridgeRestart (endFields r (some r.current) (s.slot i).record))
    else s
  | none => s

/-- The restart's release of an asserted RST_OUT, a boot observation on a slot that is ON with the
reset-while-on flag set (R8, R9, R82). -/
def restartRelease (i : SlotId) (s : State) : State :=
  let x := s.slot i
  let freed := fun (x : Slot) => { x with
    lines := { x.lines with rstSeq := false, rstLocal := false }
    record := { x.record with resetWhileOn := false } }
  if rstAsserted x.lines = false then s
  else if x.record.observed = .on ∧ x.record.resetWhileOn = true then
    bootNotice i .on x.record (s.modSlot i fun x => bootedSlot i s (freed x))
  else s.modSlot i freed

/-- The restart's drop of a raised FEED whose reloaded enable is no (R5, R6, R14, R82, R126). -/
def restartDrop (i : SlotId) (s : State) : State :=
  let x := s.slot i
  let dropped := s.modSlot i fun x => { x with
    lines := { x.lines with feed := false }
    record := { x.record with feedDropped := some s.now }
    coldMark := false }
  if x.lines.feed = false ∨ (s.setup i).feed.enable = true then s
  else if x.record.observed = .feedOff then dropped
  else
    (dropped.modSlot i fun y => { y with
      record := { y.record with
        observed := .feedOff
        resetWhileOn := if x.record.observed = .on then false else y.record.resetWhileOn }
      silence := if x.record.observed = .on then {} else y.silence }).notify (some i)
        (.powerChanged x.record.observed .feedOff false x.record.bootCount x.record.lastCause)

/-- A restart that is due is one event (R199). It loads the tables of a VALID store, else the factory tables,
with no last port and no cursor (R181, R200); raises the restart count; frees every unit, cache line and fetch
record, and keeps the fetch id counter (R138, R160, R164); empties the scheduler, the port queues and the
counters, and keeps the link states and bridge time (R123, R176, R185, R189, R190); and leaves each slot as
`restartedTo` says. Then BRIDGE_STARTED is sent with number 1, then the SEQUENCE markers and SEQUENCE_HALTED
notices of the slots that were busy, and then, slot by slot, RST_OUT is released and a FEED whose loaded enable
is no is dropped, with the boot observations and notices they bring (R8, R82, R100, R194, R199, R200). What each
block then holds is also said field by field: the boot count of a slot whose RST_OUT was not asserted is kept
(R13), the history's positions and bytes are kept (R25), and the Own Queues hold notices alone. The phase in
which a restart is due is the model's reading (assumption 28). That a sequence halted in WAIT_GATE sends no
outcome of that GATE, and the list of what a port has told its server, are the model's choices (assumptions 39
and 18). -/
def Obligations.RestartTaken : Prop :=
  ∀ s : State, s.restart = .due → ∃ t, exec .bridgeRestart s = .next t ∧
    (let tables := s.store.getD factoryTables
     let z : State := { s with
       tables
       storeValid := s.store.isSome
       lastPorts := Vector.replicate 32 none
       cursors := Vector.replicate 32 (Vector.replicate 8 none)
       restartCount := s.restartCount + 1
       noticeNumber := 0
       restart := .none
       save := none
       slots := Vector.ofFn fun i => restartedTo tables.slotSetup[i] s.now (s.slot i)
       units := Vector.replicate 4 {}
       poolFree := 4096
       cache := []
       fetch := { lastId := s.fetch.lastId }
       inrush := {}
       uplink := { up := s.uplink.up }
       chain := { up := s.chain.up }
       frameCounters := {} }
     t = (List.finRange 8).foldl (fun s i => restartDrop i (restartRelease i s))
       ((List.finRange 8).foldl (restartHalt s)
         (z.notify none (.bridgeStarted (s.restartCount + 1) true s.store.isSome)))) ∧
    t.tables = s.store.getD factoryTables ∧ t.storeValid = s.store.isSome ∧
    t.restartCount = s.restartCount + 1 ∧ t.restart = .none ∧ t.save = none ∧ t.now = s.now ∧
    (∀ u, t.unit u = {}) ∧ t.poolFree = 4096 ∧ t.cache = [] ∧ t.fetch = { lastId := s.fetch.lastId } ∧
    t.inrush = {} ∧ t.frameCounters = {} ∧
    (∀ p, (t.port p).up = (s.port p).up ∧ (t.port p).pass = [] ∧ (t.port p).sending = none ∧
      (t.port p).share = 0 ∧ (t.port p).counters = { noticeDrop := (t.port p).counters.noticeDrop } ∧
      ∀ f ∈ (t.port p).own, ∃ number time slot body, f.body = .notice number time slot body) ∧
    (∀ k : StationId, t.lastPorts[k] = none ∧ ∀ i, t.cursor k i = none) ∧
    ∀ i : SlotId, let x := s.slot i; let y := t.slot i
      y.hist.next = x.hist.next ∧ y.hist.retained = x.hist.retained ∧ y.hist.ring = x.hist.ring ∧
      y.rx = .needMark false ∧ y.input = {} ∧ y.silence = {} ∧ y.recovery = {} ∧ y.log = {} ∧
      y.matcher = { state := (t.setup i).startState } ∧
      y.counters = (if seqBusy x.seq.state = true ∧ x.seq.record ≠ none then { halted := 1 } else {}) ∧
      pwrAsserted y.lines = false ∧ rstAsserted y.lines = false ∧
      y.lines.feed = (x.lines.feed && (t.setup i).feed.enable) ∧
      y.pwrBtn.state = .released ∧ y.rstBtn.state = .released ∧ y.pg.filtered = x.pg.filtered ∧
      y.seq = { state := if seqBusy x.seq.state then .halted .bridgeRestart else .idle, record := none } ∧
      y.port.inFlight = none ∧
      (rstAsserted x.lines = false → y.record.bootCount = x.record.bootCount ∧
        y.record.pendingCause = x.record.pendingCause)

/-- Power-up loads the tables in the same way, with no last port and no cursor, takes the power-up value of
every block (the receivers, the storage ports, the ports and all counters among them), raises FEED where the
loaded setup has feed at power-up ON and the FEED enable yes, starts the PG filter of a line that is active,
and generates BRIDGE_STARTED with number 1; both ports are DOWN, so no copy leaves, and the copies are counted
as dropped (R7, R24, R80, R84, R176, R181, R187, R190, R194, R200). That the input pins and the waiting
commands are what they were (assumption 13), that the places of a history ring read as 0 (assumption 16), and
that the list of what a storage port has told its server is empty (assumption 18), are the model's choices. -/
def Obligations.PoweredUp : Prop :=
  ∀ s : State, ∃ t, exec .powerUp s = .next t ∧ t.tables = s.store.getD factoryTables ∧
    t.store = s.store ∧ t.storeValid = s.store.isSome ∧ t.now = 0 ∧ t.restartCount = 0 ∧
    t.restart = .none ∧ t.save = none ∧ t.noticeNumber = 1 ∧ t.pending = s.pending ∧
    t.msInUnit = 0 ∧ t.unitTicks = 0 ∧
    (∃ z : State, z.noticeNumber = 0 ∧ z.tables = t.tables ∧ z.now = 0 ∧ (∀ p, z.port p = {}) ∧
      t = z.notify none (.bridgeStarted 0 false s.store.isSome)) ∧
    (∀ p, (t.port p) = { counters := { noticeDrop := (t.port p).counters.noticeDrop } }) ∧
    (t.port .chain).counters.noticeDrop = 0 ∧ t.frameCounters = {} ∧
    (∀ k : StationId, t.lastPorts[k] = none ∧ ∀ i, t.cursor k i = none) ∧ (∀ u, t.unit u = {}) ∧
    t.poolFree = 4096 ∧ t.cache = [] ∧ t.fetch = {} ∧ t.inrush = {} ∧
    ∀ i : SlotId, let c := t.setup i; let y := t.slot i
      let feed := c.feedAtPowerUp && c.feed.enable
      y.record = { observed := if feed then .standby else .feedOff } ∧ y.lines = { feed } ∧
      y.rx = .needMark false ∧ y.port = {} ∧
      y.hist = {} ∧ y.input = {} ∧ y.silence = {} ∧ y.recovery = {} ∧ y.log = {} ∧ y.seq = {} ∧
      y.matcher = { state := c.startState } ∧ y.coldMark = false ∧ y.counters = {} ∧
      y.pg = { pin := (s.slot i).pg.pin
               filtered := false
               due := if (s.slot i).pg.pin = c.pgHigh then some (BitVec.ofNat 32 (max 1 c.pgFilter)) else none } ∧
      y.pwrBtn = { pressed := (s.slot i).pwrBtn.pressed, seen := !(s.slot i).pwrBtn.pressed } ∧
      y.rstBtn = { pressed := (s.slot i).rstBtn.pressed, seen := !(s.slot i).rstBtn.pressed }
end

