-- ==== Sys2Proof/Laws/State.lean ====
section
/-! SUPPORT. What each shared operation leaves unchanged, one lemma for each field and each update, and
what it does to the slot, unit or port it changes. -/

namespace Sys2Proof.Machine

open Sys2Proof

/-! ## Fixed-size collections -/

@[simp] theorem upd_get_same {α : Type} {n : Nat} (v : Vector α n) (i : Fin n) (f : α → α) :
    (upd v i f)[(i : Nat)] = f v[(i : Nat)] := by
  simp [upd]

theorem upd_get_ne {α : Type} {n : Nat} (v : Vector α n) {i j : Fin n} (h : j ≠ i) (f : α → α) :
    (upd v i f)[j] = v[j] := by
  have h' : (i : Nat) ≠ (j : Nat) := fun e => h (Fin.ext e.symm)
  simp [upd, Vector.getElem_set_ne _ _ h']

theorem upd_same {α : Type} {n : Nat} (v : Vector α n) (i : Fin n) (f : α → α) : (upd v i f)[i] = f v[i] :=
  upd_get_same v i f

theorem upd_get {α : Type} {n : Nat} (v : Vector α n) (i j : Fin n) (f : α → α) :
    (upd v i f)[j] = if j = i then f v[j] else v[j] := by
  by_cases h : j = i
  · subst h; simp
  · rw [upd_get_ne v h, if_neg h]

@[simp] theorem upd_id {α : Type} {n : Nat} (v : Vector α n) (i : Fin n) : upd v i (fun x => x) = v := by
  ext j hj
  by_cases h : (i : Nat) = j
  · subst h; simp [upd]
  · simp [upd]

@[simp] theorem upd_upd {α : Type} {n : Nat} (v : Vector α n) (i : Fin n) (f g : α → α) :
    upd (upd v i f) i g = upd v i fun x => g (f x) := by
  ext j hj
  by_cases h : (i : Nat) = j
  · subst h; simp [upd]
  · simp [upd, Vector.getElem_set_ne _ _ h]

/-- A fold whose step keeps a field keeps it. -/
theorem foldl_keeps {α β γ : Type} (get : β → γ) (f : β → α → β) (h : ∀ b a, get (f b a) = get b) :
    ∀ (l : List α) (b : β), get (l.foldl f b) = get b
  | [], _ => rfl
  | a :: l, b => (foldl_keeps get f h l (f b a)).trans (h b a)

/-! ## Slots -/

@[simp] theorem modSlot_now {s : State} {i : SlotId} {f : Slot → Slot} : (s.modSlot i f).now = s.now := rfl
@[simp] theorem modSlot_msInUnit {s : State} {i : SlotId} {f : Slot → Slot} : (s.modSlot i f).msInUnit = s.msInUnit :=
  rfl
@[simp] theorem modSlot_unitTicks {s : State} {i : SlotId} {f : Slot → Slot} : (s.modSlot i f).unitTicks = s.unitTicks :=
  rfl
@[simp] theorem modSlot_units {s : State} {i : SlotId} {f : Slot → Slot} : (s.modSlot i f).units = s.units := rfl
@[simp] theorem modSlot_poolFree {s : State} {i : SlotId} {f : Slot → Slot} : (s.modSlot i f).poolFree = s.poolFree :=
  rfl
@[simp] theorem modSlot_cache {s : State} {i : SlotId} {f : Slot → Slot} : (s.modSlot i f).cache = s.cache := rfl
@[simp] theorem modSlot_fetch {s : State} {i : SlotId} {f : Slot → Slot} : (s.modSlot i f).fetch = s.fetch := rfl
@[simp] theorem modSlot_inrush {s : State} {i : SlotId} {f : Slot → Slot} : (s.modSlot i f).inrush = s.inrush := rfl
@[simp] theorem modSlot_uplink {s : State} {i : SlotId} {f : Slot → Slot} : (s.modSlot i f).uplink = s.uplink := rfl
@[simp] theorem modSlot_chain {s : State} {i : SlotId} {f : Slot → Slot} : (s.modSlot i f).chain = s.chain := rfl
@[simp] theorem modSlot_frameCounters {s : State} {i : SlotId} {f : Slot → Slot} : (s.modSlot i f).frameCounters = s.frameCounters :=
  rfl
@[simp] theorem modSlot_tables {s : State} {i : SlotId} {f : Slot → Slot} : (s.modSlot i f).tables = s.tables := rfl
@[simp] theorem modSlot_lastPorts {s : State} {i : SlotId} {f : Slot → Slot} : (s.modSlot i f).lastPorts = s.lastPorts :=
  rfl
@[simp] theorem modSlot_cursors {s : State} {i : SlotId} {f : Slot → Slot} : (s.modSlot i f).cursors = s.cursors :=
  rfl
@[simp] theorem modSlot_noticeNumber {s : State} {i : SlotId} {f : Slot → Slot} : (s.modSlot i f).noticeNumber = s.noticeNumber :=
  rfl
@[simp] theorem modSlot_restartCount {s : State} {i : SlotId} {f : Slot → Slot} : (s.modSlot i f).restartCount = s.restartCount :=
  rfl
@[simp] theorem modSlot_restart {s : State} {i : SlotId} {f : Slot → Slot} : (s.modSlot i f).restart = s.restart :=
  rfl
@[simp] theorem modSlot_save {s : State} {i : SlotId} {f : Slot → Slot} : (s.modSlot i f).save = s.save := rfl
@[simp] theorem modSlot_store {s : State} {i : SlotId} {f : Slot → Slot} : (s.modSlot i f).store = s.store := rfl
@[simp] theorem modSlot_storeValid {s : State} {i : SlotId} {f : Slot → Slot} : (s.modSlot i f).storeValid = s.storeValid :=
  rfl
@[simp] theorem modSlot_pending {s : State} {i : SlotId} {f : Slot → Slot} : (s.modSlot i f).pending = s.pending :=
  rfl

@[simp] theorem modSlot_slot_same {s : State} {i : SlotId} {f : Slot → Slot} : (s.modSlot i f).slot i = f (s.slot i) :=
  upd_same s.slots i f

theorem modSlot_slot_ne {s : State} {i j : SlotId} {f : Slot → Slot} (h : j ≠ i) : (s.modSlot i f).slot j = s.slot j :=
  upd_get_ne s.slots h f

theorem modSlot_slot {s : State} {i j : SlotId} {f : Slot → Slot} :
    (s.modSlot i f).slot j = if j = i then f (s.slot j) else s.slot j := upd_get s.slots i j f

@[simp] theorem modSlot_modSlot {s : State} {i : SlotId} {f g : Slot → Slot} :
    (s.modSlot i f).modSlot i g = s.modSlot i fun x => g (f x) := by
  simp [State.modSlot]

/-- Two changes that agree on the slot as it is are the same change. -/
theorem modSlot_congr {s : State} {i : SlotId} {f g : Slot → Slot} (h : f (s.slot i) = g (s.slot i)) :
    s.modSlot i f = s.modSlot i g := by
  have h' : f s.slots[i] = g s.slots[i] := h
  simp only [State.modSlot, upd, h']

/-- A change that leaves the slot as it is changes nothing. -/
theorem modSlot_self {s : State} {i : SlotId} {f : Slot → Slot} (h : f (s.slot i) = s.slot i) :
    s.modSlot i f = s := by
  rw [modSlot_congr (g := fun x => x) h]
  simp [State.modSlot]

@[simp] theorem count_now {s : State} {i : SlotId} {f : SlotCounters → SlotCounters} : (s.count i f).now = s.now :=
  rfl
@[simp] theorem count_msInUnit {s : State} {i : SlotId} {f : SlotCounters → SlotCounters} : (s.count i f).msInUnit = s.msInUnit :=
  rfl
@[simp] theorem count_unitTicks {s : State} {i : SlotId} {f : SlotCounters → SlotCounters} : (s.count i f).unitTicks = s.unitTicks :=
  rfl
@[simp] theorem count_units {s : State} {i : SlotId} {f : SlotCounters → SlotCounters} : (s.count i f).units = s.units :=
  rfl
@[simp] theorem count_poolFree {s : State} {i : SlotId} {f : SlotCounters → SlotCounters} : (s.count i f).poolFree = s.poolFree :=
  rfl
@[simp] theorem count_cache {s : State} {i : SlotId} {f : SlotCounters → SlotCounters} : (s.count i f).cache = s.cache :=
  rfl
@[simp] theorem count_fetch {s : State} {i : SlotId} {f : SlotCounters → SlotCounters} : (s.count i f).fetch = s.fetch :=
  rfl
@[simp] theorem count_inrush {s : State} {i : SlotId} {f : SlotCounters → SlotCounters} : (s.count i f).inrush = s.inrush :=
  rfl
@[simp] theorem count_uplink {s : State} {i : SlotId} {f : SlotCounters → SlotCounters} : (s.count i f).uplink = s.uplink :=
  rfl
@[simp] theorem count_chain {s : State} {i : SlotId} {f : SlotCounters → SlotCounters} : (s.count i f).chain = s.chain :=
  rfl
@[simp] theorem count_frameCounters {s : State} {i : SlotId} {f : SlotCounters → SlotCounters} : (s.count i f).frameCounters = s.frameCounters :=
  rfl
@[simp] theorem count_tables {s : State} {i : SlotId} {f : SlotCounters → SlotCounters} : (s.count i f).tables = s.tables :=
  rfl
@[simp] theorem count_lastPorts {s : State} {i : SlotId} {f : SlotCounters → SlotCounters} : (s.count i f).lastPorts = s.lastPorts :=
  rfl
@[simp] theorem count_cursors {s : State} {i : SlotId} {f : SlotCounters → SlotCounters} : (s.count i f).cursors = s.cursors :=
  rfl
@[simp] theorem count_noticeNumber {s : State} {i : SlotId} {f : SlotCounters → SlotCounters} : (s.count i f).noticeNumber = s.noticeNumber :=
  rfl
@[simp] theorem count_restartCount {s : State} {i : SlotId} {f : SlotCounters → SlotCounters} : (s.count i f).restartCount = s.restartCount :=
  rfl
@[simp] theorem count_restart {s : State} {i : SlotId} {f : SlotCounters → SlotCounters} : (s.count i f).restart = s.restart :=
  rfl
@[simp] theorem count_save {s : State} {i : SlotId} {f : SlotCounters → SlotCounters} : (s.count i f).save = s.save :=
  rfl
@[simp] theorem count_store {s : State} {i : SlotId} {f : SlotCounters → SlotCounters} : (s.count i f).store = s.store :=
  rfl
@[simp] theorem count_storeValid {s : State} {i : SlotId} {f : SlotCounters → SlotCounters} : (s.count i f).storeValid = s.storeValid :=
  rfl
@[simp] theorem count_pending {s : State} {i : SlotId} {f : SlotCounters → SlotCounters} : (s.count i f).pending = s.pending :=
  rfl

/-! ## Units -/

@[simp] theorem modUnit_now {s : State} {u : UnitId} {f : MediaUnit → MediaUnit} : (s.modUnit u f).now = s.now := rfl
@[simp] theorem modUnit_msInUnit {s : State} {u : UnitId} {f : MediaUnit → MediaUnit} : (s.modUnit u f).msInUnit = s.msInUnit :=
  rfl
@[simp] theorem modUnit_unitTicks {s : State} {u : UnitId} {f : MediaUnit → MediaUnit} : (s.modUnit u f).unitTicks = s.unitTicks :=
  rfl
@[simp] theorem modUnit_slots {s : State} {u : UnitId} {f : MediaUnit → MediaUnit} : (s.modUnit u f).slots = s.slots :=
  rfl
@[simp] theorem modUnit_poolFree {s : State} {u : UnitId} {f : MediaUnit → MediaUnit} : (s.modUnit u f).poolFree = s.poolFree :=
  rfl
@[simp] theorem modUnit_cache {s : State} {u : UnitId} {f : MediaUnit → MediaUnit} : (s.modUnit u f).cache = s.cache :=
  rfl
@[simp] theorem modUnit_fetch {s : State} {u : UnitId} {f : MediaUnit → MediaUnit} : (s.modUnit u f).fetch = s.fetch :=
  rfl
@[simp] theorem modUnit_inrush {s : State} {u : UnitId} {f : MediaUnit → MediaUnit} : (s.modUnit u f).inrush = s.inrush :=
  rfl
@[simp] theorem modUnit_uplink {s : State} {u : UnitId} {f : MediaUnit → MediaUnit} : (s.modUnit u f).uplink = s.uplink :=
  rfl
@[simp] theorem modUnit_chain {s : State} {u : UnitId} {f : MediaUnit → MediaUnit} : (s.modUnit u f).chain = s.chain :=
  rfl
@[simp] theorem modUnit_frameCounters {s : State} {u : UnitId} {f : MediaUnit → MediaUnit} : (s.modUnit u f).frameCounters = s.frameCounters :=
  rfl
@[simp] theorem modUnit_tables {s : State} {u : UnitId} {f : MediaUnit → MediaUnit} : (s.modUnit u f).tables = s.tables :=
  rfl
@[simp] theorem modUnit_lastPorts {s : State} {u : UnitId} {f : MediaUnit → MediaUnit} : (s.modUnit u f).lastPorts = s.lastPorts :=
  rfl
@[simp] theorem modUnit_cursors {s : State} {u : UnitId} {f : MediaUnit → MediaUnit} : (s.modUnit u f).cursors = s.cursors :=
  rfl
@[simp] theorem modUnit_noticeNumber {s : State} {u : UnitId} {f : MediaUnit → MediaUnit} : (s.modUnit u f).noticeNumber = s.noticeNumber :=
  rfl
@[simp] theorem modUnit_restartCount {s : State} {u : UnitId} {f : MediaUnit → MediaUnit} : (s.modUnit u f).restartCount = s.restartCount :=
  rfl
@[simp] theorem modUnit_restart {s : State} {u : UnitId} {f : MediaUnit → MediaUnit} : (s.modUnit u f).restart = s.restart :=
  rfl
@[simp] theorem modUnit_save {s : State} {u : UnitId} {f : MediaUnit → MediaUnit} : (s.modUnit u f).save = s.save :=
  rfl
@[simp] theorem modUnit_store {s : State} {u : UnitId} {f : MediaUnit → MediaUnit} : (s.modUnit u f).store = s.store :=
  rfl
@[simp] theorem modUnit_storeValid {s : State} {u : UnitId} {f : MediaUnit → MediaUnit} : (s.modUnit u f).storeValid = s.storeValid :=
  rfl
@[simp] theorem modUnit_pending {s : State} {u : UnitId} {f : MediaUnit → MediaUnit} : (s.modUnit u f).pending = s.pending :=
  rfl

@[simp] theorem modUnit_unit_same {s : State} {u : UnitId} {f : MediaUnit → MediaUnit} :
    (s.modUnit u f).unit u = f (s.unit u) :=
  upd_same s.units u f

theorem modUnit_unit_ne {s : State} {u v : UnitId} {f : MediaUnit → MediaUnit} (h : v ≠ u) :
    (s.modUnit u f).unit v = s.unit v := upd_get_ne s.units h f

theorem modUnit_unit {s : State} {u v : UnitId} {f : MediaUnit → MediaUnit} :
    (s.modUnit u f).unit v = if v = u then f (s.unit v) else s.unit v := upd_get s.units u v f

@[simp] theorem modSlot_unit {s : State} {i : SlotId} {f : Slot → Slot} {u : UnitId} :
    (s.modSlot i f).unit u = s.unit u := rfl

@[simp] theorem modUnit_slot {s : State} {u : UnitId} {f : MediaUnit → MediaUnit} {i : SlotId} :
    (s.modUnit u f).slot i = s.slot i := rfl

/-- Two changes that agree on the unit as it is are the same change. -/
theorem modUnit_congr {s : State} {u : UnitId} {f g : MediaUnit → MediaUnit} (h : f (s.unit u) = g (s.unit u)) :
    s.modUnit u f = s.modUnit u g := by
  have h' : f s.units[u] = g s.units[u] := h
  simp only [State.modUnit, upd, h']

@[simp] theorem modUnit_modUnit {s : State} {u : UnitId} {f g : MediaUnit → MediaUnit} :
    (s.modUnit u f).modUnit u g = s.modUnit u fun x => g (f x) := by
  simp [State.modUnit]

@[simp] theorem countUnit_now {s : State} {u : UnitId} {f : UnitCounters → UnitCounters} : (s.countUnit u f).now = s.now :=
  rfl
@[simp] theorem countUnit_msInUnit {s : State} {u : UnitId} {f : UnitCounters → UnitCounters} : (s.countUnit u f).msInUnit = s.msInUnit :=
  rfl
@[simp] theorem countUnit_unitTicks {s : State} {u : UnitId} {f : UnitCounters → UnitCounters} : (s.countUnit u f).unitTicks = s.unitTicks :=
  rfl
@[simp] theorem countUnit_slots {s : State} {u : UnitId} {f : UnitCounters → UnitCounters} : (s.countUnit u f).slots = s.slots :=
  rfl
@[simp] theorem countUnit_poolFree {s : State} {u : UnitId} {f : UnitCounters → UnitCounters} : (s.countUnit u f).poolFree = s.poolFree :=
  rfl
@[simp] theorem countUnit_cache {s : State} {u : UnitId} {f : UnitCounters → UnitCounters} : (s.countUnit u f).cache = s.cache :=
  rfl
@[simp] theorem countUnit_fetch {s : State} {u : UnitId} {f : UnitCounters → UnitCounters} : (s.countUnit u f).fetch = s.fetch :=
  rfl
@[simp] theorem countUnit_inrush {s : State} {u : UnitId} {f : UnitCounters → UnitCounters} : (s.countUnit u f).inrush = s.inrush :=
  rfl
@[simp] theorem countUnit_uplink {s : State} {u : UnitId} {f : UnitCounters → UnitCounters} : (s.countUnit u f).uplink = s.uplink :=
  rfl
@[simp] theorem countUnit_chain {s : State} {u : UnitId} {f : UnitCounters → UnitCounters} : (s.countUnit u f).chain = s.chain :=
  rfl
@[simp] theorem countUnit_frameCounters {s : State} {u : UnitId} {f : UnitCounters → UnitCounters} : (s.countUnit u f).frameCounters = s.frameCounters :=
  rfl
@[simp] theorem countUnit_tables {s : State} {u : UnitId} {f : UnitCounters → UnitCounters} : (s.countUnit u f).tables = s.tables :=
  rfl
@[simp] theorem countUnit_lastPorts {s : State} {u : UnitId} {f : UnitCounters → UnitCounters} : (s.countUnit u f).lastPorts = s.lastPorts :=
  rfl
@[simp] theorem countUnit_cursors {s : State} {u : UnitId} {f : UnitCounters → UnitCounters} : (s.countUnit u f).cursors = s.cursors :=
  rfl
@[simp] theorem countUnit_noticeNumber {s : State} {u : UnitId} {f : UnitCounters → UnitCounters} : (s.countUnit u f).noticeNumber = s.noticeNumber :=
  rfl
@[simp] theorem countUnit_restartCount {s : State} {u : UnitId} {f : UnitCounters → UnitCounters} : (s.countUnit u f).restartCount = s.restartCount :=
  rfl
@[simp] theorem countUnit_restart {s : State} {u : UnitId} {f : UnitCounters → UnitCounters} : (s.countUnit u f).restart = s.restart :=
  rfl
@[simp] theorem countUnit_save {s : State} {u : UnitId} {f : UnitCounters → UnitCounters} : (s.countUnit u f).save = s.save :=
  rfl
@[simp] theorem countUnit_store {s : State} {u : UnitId} {f : UnitCounters → UnitCounters} : (s.countUnit u f).store = s.store :=
  rfl
@[simp] theorem countUnit_storeValid {s : State} {u : UnitId} {f : UnitCounters → UnitCounters} : (s.countUnit u f).storeValid = s.storeValid :=
  rfl
@[simp] theorem countUnit_pending {s : State} {u : UnitId} {f : UnitCounters → UnitCounters} : (s.countUnit u f).pending = s.pending :=
  rfl

/-! ## Ports -/

@[simp] theorem modPort_now {s : State} {p : Port} {f : PortState → PortState} : (s.modPort p f).now = s.now :=
  by cases p <;> rfl
@[simp] theorem modPort_msInUnit {s : State} {p : Port} {f : PortState → PortState} : (s.modPort p f).msInUnit = s.msInUnit :=
  by cases p <;> rfl
@[simp] theorem modPort_unitTicks {s : State} {p : Port} {f : PortState → PortState} : (s.modPort p f).unitTicks = s.unitTicks :=
  by cases p <;> rfl
@[simp] theorem modPort_slots {s : State} {p : Port} {f : PortState → PortState} : (s.modPort p f).slots = s.slots :=
  by cases p <;> rfl
@[simp] theorem modPort_units {s : State} {p : Port} {f : PortState → PortState} : (s.modPort p f).units = s.units :=
  by cases p <;> rfl
@[simp] theorem modPort_poolFree {s : State} {p : Port} {f : PortState → PortState} : (s.modPort p f).poolFree = s.poolFree :=
  by cases p <;> rfl
@[simp] theorem modPort_cache {s : State} {p : Port} {f : PortState → PortState} : (s.modPort p f).cache = s.cache :=
  by cases p <;> rfl
@[simp] theorem modPort_fetch {s : State} {p : Port} {f : PortState → PortState} : (s.modPort p f).fetch = s.fetch :=
  by cases p <;> rfl
@[simp] theorem modPort_inrush {s : State} {p : Port} {f : PortState → PortState} : (s.modPort p f).inrush = s.inrush :=
  by cases p <;> rfl
@[simp] theorem modPort_frameCounters {s : State} {p : Port} {f : PortState → PortState} : (s.modPort p f).frameCounters = s.frameCounters :=
  by cases p <;> rfl
@[simp] theorem modPort_tables {s : State} {p : Port} {f : PortState → PortState} : (s.modPort p f).tables = s.tables :=
  by cases p <;> rfl
@[simp] theorem modPort_lastPorts {s : State} {p : Port} {f : PortState → PortState} : (s.modPort p f).lastPorts = s.lastPorts :=
  by cases p <;> rfl
@[simp] theorem modPort_cursors {s : State} {p : Port} {f : PortState → PortState} : (s.modPort p f).cursors = s.cursors :=
  by cases p <;> rfl
@[simp] theorem modPort_noticeNumber {s : State} {p : Port} {f : PortState → PortState} : (s.modPort p f).noticeNumber = s.noticeNumber :=
  by cases p <;> rfl
@[simp] theorem modPort_restartCount {s : State} {p : Port} {f : PortState → PortState} : (s.modPort p f).restartCount = s.restartCount :=
  by cases p <;> rfl
@[simp] theorem modPort_restart {s : State} {p : Port} {f : PortState → PortState} : (s.modPort p f).restart = s.restart :=
  by cases p <;> rfl
@[simp] theorem modPort_save {s : State} {p : Port} {f : PortState → PortState} : (s.modPort p f).save = s.save :=
  by cases p <;> rfl
@[simp] theorem modPort_store {s : State} {p : Port} {f : PortState → PortState} : (s.modPort p f).store = s.store :=
  by cases p <;> rfl
@[simp] theorem modPort_storeValid {s : State} {p : Port} {f : PortState → PortState} : (s.modPort p f).storeValid = s.storeValid :=
  by cases p <;> rfl
@[simp] theorem modPort_pending {s : State} {p : Port} {f : PortState → PortState} : (s.modPort p f).pending = s.pending :=
  by cases p <;> rfl

@[simp] theorem modPort_port_same {s : State} {p : Port} {f : PortState → PortState} :
    (s.modPort p f).port p = f (s.port p) := by cases p <;> rfl

theorem modPort_port_ne {s : State} {p q : Port} {f : PortState → PortState} (h : q ≠ p) :
    (s.modPort p f).port q = s.port q := by cases p <;> cases q <;> first | rfl | exact absurd rfl h

@[simp] theorem modPort_modPort {s : State} {p : Port} {f g : PortState → PortState} :
    (s.modPort p f).modPort p g = s.modPort p fun x => g (f x) := by cases p <;> rfl

@[simp] theorem modPort_slot {s : State} {p : Port} {f : PortState → PortState} {i : SlotId} :
    (s.modPort p f).slot i = s.slot i := by cases p <;> rfl

@[simp] theorem modPort_unit {s : State} {p : Port} {f : PortState → PortState} {u : UnitId} :
    (s.modPort p f).unit u = s.unit u := by cases p <;> rfl

@[simp] theorem modSlot_port {s : State} {i : SlotId} {f : Slot → Slot} {p : Port} :
    (s.modSlot i f).port p = s.port p := by cases p <;> rfl

@[simp] theorem modUnit_port {s : State} {u : UnitId} {f : MediaUnit → MediaUnit} {p : Port} :
    (s.modUnit u f).port p = s.port p := by cases p <;> rfl

/-- Two changes that agree on the port as it is are the same change. -/
theorem modPort_congr {s : State} {p : Port} {f g : PortState → PortState} (h : f (s.port p) = g (s.port p)) :
    s.modPort p f = s.modPort p g := by
  cases p
  · show ({ s with uplink := f s.uplink } : State) = { s with uplink := g s.uplink }
    rw [show f s.uplink = g s.uplink from h]
  · show ({ s with chain := f s.chain } : State) = { s with chain := g s.chain }
    rw [show f s.chain = g s.chain from h]

@[simp] theorem countPort_now {s : State} {p : Port} {f : PortCounters → PortCounters} : (s.countPort p f).now = s.now :=
  modPort_now
@[simp] theorem countPort_msInUnit {s : State} {p : Port} {f : PortCounters → PortCounters} : (s.countPort p f).msInUnit = s.msInUnit :=
  modPort_msInUnit
@[simp] theorem countPort_unitTicks {s : State} {p : Port} {f : PortCounters → PortCounters} : (s.countPort p f).unitTicks = s.unitTicks :=
  modPort_unitTicks
@[simp] theorem countPort_slots {s : State} {p : Port} {f : PortCounters → PortCounters} : (s.countPort p f).slots = s.slots :=
  modPort_slots
@[simp] theorem countPort_units {s : State} {p : Port} {f : PortCounters → PortCounters} : (s.countPort p f).units = s.units :=
  modPort_units
@[simp] theorem countPort_poolFree {s : State} {p : Port} {f : PortCounters → PortCounters} : (s.countPort p f).poolFree = s.poolFree :=
  modPort_poolFree
@[simp] theorem countPort_cache {s : State} {p : Port} {f : PortCounters → PortCounters} : (s.countPort p f).cache = s.cache :=
  modPort_cache
@[simp] theorem countPort_fetch {s : State} {p : Port} {f : PortCounters → PortCounters} : (s.countPort p f).fetch = s.fetch :=
  modPort_fetch
@[simp] theorem countPort_inrush {s : State} {p : Port} {f : PortCounters → PortCounters} : (s.countPort p f).inrush = s.inrush :=
  modPort_inrush
@[simp] theorem countPort_frameCounters {s : State} {p : Port} {f : PortCounters → PortCounters} : (s.countPort p f).frameCounters = s.frameCounters :=
  modPort_frameCounters
@[simp] theorem countPort_tables {s : State} {p : Port} {f : PortCounters → PortCounters} : (s.countPort p f).tables = s.tables :=
  modPort_tables
@[simp] theorem countPort_lastPorts {s : State} {p : Port} {f : PortCounters → PortCounters} : (s.countPort p f).lastPorts = s.lastPorts :=
  modPort_lastPorts
@[simp] theorem countPort_cursors {s : State} {p : Port} {f : PortCounters → PortCounters} : (s.countPort p f).cursors = s.cursors :=
  modPort_cursors
@[simp] theorem countPort_noticeNumber {s : State} {p : Port} {f : PortCounters → PortCounters} : (s.countPort p f).noticeNumber = s.noticeNumber :=
  modPort_noticeNumber
@[simp] theorem countPort_restartCount {s : State} {p : Port} {f : PortCounters → PortCounters} : (s.countPort p f).restartCount = s.restartCount :=
  modPort_restartCount
@[simp] theorem countPort_restart {s : State} {p : Port} {f : PortCounters → PortCounters} : (s.countPort p f).restart = s.restart :=
  modPort_restart
@[simp] theorem countPort_save {s : State} {p : Port} {f : PortCounters → PortCounters} : (s.countPort p f).save = s.save :=
  modPort_save
@[simp] theorem countPort_store {s : State} {p : Port} {f : PortCounters → PortCounters} : (s.countPort p f).store = s.store :=
  modPort_store
@[simp] theorem countPort_storeValid {s : State} {p : Port} {f : PortCounters → PortCounters} : (s.countPort p f).storeValid = s.storeValid :=
  modPort_storeValid
@[simp] theorem countPort_pending {s : State} {p : Port} {f : PortCounters → PortCounters} : (s.countPort p f).pending = s.pending :=
  modPort_pending

@[simp] theorem ownAppend_now {s : State} {p : Port} {g : OwnFrame} : (s.ownAppend p g).now = s.now := modPort_now
@[simp] theorem ownAppend_msInUnit {s : State} {p : Port} {g : OwnFrame} : (s.ownAppend p g).msInUnit = s.msInUnit :=
  modPort_msInUnit
@[simp] theorem ownAppend_unitTicks {s : State} {p : Port} {g : OwnFrame} : (s.ownAppend p g).unitTicks = s.unitTicks :=
  modPort_unitTicks
@[simp] theorem ownAppend_slots {s : State} {p : Port} {g : OwnFrame} : (s.ownAppend p g).slots = s.slots :=
  modPort_slots
@[simp] theorem ownAppend_units {s : State} {p : Port} {g : OwnFrame} : (s.ownAppend p g).units = s.units :=
  modPort_units
@[simp] theorem ownAppend_poolFree {s : State} {p : Port} {g : OwnFrame} : (s.ownAppend p g).poolFree = s.poolFree :=
  modPort_poolFree
@[simp] theorem ownAppend_cache {s : State} {p : Port} {g : OwnFrame} : (s.ownAppend p g).cache = s.cache :=
  modPort_cache
@[simp] theorem ownAppend_fetch {s : State} {p : Port} {g : OwnFrame} : (s.ownAppend p g).fetch = s.fetch :=
  modPort_fetch
@[simp] theorem ownAppend_inrush {s : State} {p : Port} {g : OwnFrame} : (s.ownAppend p g).inrush = s.inrush :=
  modPort_inrush
@[simp] theorem ownAppend_frameCounters {s : State} {p : Port} {g : OwnFrame} : (s.ownAppend p g).frameCounters = s.frameCounters :=
  modPort_frameCounters
@[simp] theorem ownAppend_tables {s : State} {p : Port} {g : OwnFrame} : (s.ownAppend p g).tables = s.tables :=
  modPort_tables
@[simp] theorem ownAppend_lastPorts {s : State} {p : Port} {g : OwnFrame} : (s.ownAppend p g).lastPorts = s.lastPorts :=
  modPort_lastPorts
@[simp] theorem ownAppend_cursors {s : State} {p : Port} {g : OwnFrame} : (s.ownAppend p g).cursors = s.cursors :=
  modPort_cursors
@[simp] theorem ownAppend_noticeNumber {s : State} {p : Port} {g : OwnFrame} : (s.ownAppend p g).noticeNumber = s.noticeNumber :=
  modPort_noticeNumber
@[simp] theorem ownAppend_restartCount {s : State} {p : Port} {g : OwnFrame} : (s.ownAppend p g).restartCount = s.restartCount :=
  modPort_restartCount
@[simp] theorem ownAppend_restart {s : State} {p : Port} {g : OwnFrame} : (s.ownAppend p g).restart = s.restart :=
  modPort_restart
@[simp] theorem ownAppend_save {s : State} {p : Port} {g : OwnFrame} : (s.ownAppend p g).save = s.save := modPort_save
@[simp] theorem ownAppend_store {s : State} {p : Port} {g : OwnFrame} : (s.ownAppend p g).store = s.store :=
  modPort_store
@[simp] theorem ownAppend_storeValid {s : State} {p : Port} {g : OwnFrame} : (s.ownAppend p g).storeValid = s.storeValid :=
  modPort_storeValid
@[simp] theorem ownAppend_pending {s : State} {p : Port} {g : OwnFrame} : (s.ownAppend p g).pending = s.pending :=
  modPort_pending

/-! ## The fetch path and the scheduler -/

@[simp] theorem countFetch_now {s : State} {f : FetchCounters → FetchCounters} : (s.countFetch f).now = s.now := rfl
@[simp] theorem countFetch_msInUnit {s : State} {f : FetchCounters → FetchCounters} : (s.countFetch f).msInUnit = s.msInUnit :=
  rfl
@[simp] theorem countFetch_unitTicks {s : State} {f : FetchCounters → FetchCounters} : (s.countFetch f).unitTicks = s.unitTicks :=
  rfl
@[simp] theorem countFetch_slots {s : State} {f : FetchCounters → FetchCounters} : (s.countFetch f).slots = s.slots :=
  rfl
@[simp] theorem countFetch_units {s : State} {f : FetchCounters → FetchCounters} : (s.countFetch f).units = s.units :=
  rfl
@[simp] theorem countFetch_poolFree {s : State} {f : FetchCounters → FetchCounters} : (s.countFetch f).poolFree = s.poolFree :=
  rfl
@[simp] theorem countFetch_cache {s : State} {f : FetchCounters → FetchCounters} : (s.countFetch f).cache = s.cache :=
  rfl
@[simp] theorem countFetch_inrush {s : State} {f : FetchCounters → FetchCounters} : (s.countFetch f).inrush = s.inrush :=
  rfl
@[simp] theorem countFetch_uplink {s : State} {f : FetchCounters → FetchCounters} : (s.countFetch f).uplink = s.uplink :=
  rfl
@[simp] theorem countFetch_chain {s : State} {f : FetchCounters → FetchCounters} : (s.countFetch f).chain = s.chain :=
  rfl
@[simp] theorem countFetch_frameCounters {s : State} {f : FetchCounters → FetchCounters} : (s.countFetch f).frameCounters = s.frameCounters :=
  rfl
@[simp] theorem countFetch_tables {s : State} {f : FetchCounters → FetchCounters} : (s.countFetch f).tables = s.tables :=
  rfl
@[simp] theorem countFetch_lastPorts {s : State} {f : FetchCounters → FetchCounters} : (s.countFetch f).lastPorts = s.lastPorts :=
  rfl
@[simp] theorem countFetch_cursors {s : State} {f : FetchCounters → FetchCounters} : (s.countFetch f).cursors = s.cursors :=
  rfl
@[simp] theorem countFetch_noticeNumber {s : State} {f : FetchCounters → FetchCounters} : (s.countFetch f).noticeNumber = s.noticeNumber :=
  rfl
@[simp] theorem countFetch_restartCount {s : State} {f : FetchCounters → FetchCounters} : (s.countFetch f).restartCount = s.restartCount :=
  rfl
@[simp] theorem countFetch_restart {s : State} {f : FetchCounters → FetchCounters} : (s.countFetch f).restart = s.restart :=
  rfl
@[simp] theorem countFetch_save {s : State} {f : FetchCounters → FetchCounters} : (s.countFetch f).save = s.save :=
  rfl
@[simp] theorem countFetch_store {s : State} {f : FetchCounters → FetchCounters} : (s.countFetch f).store = s.store :=
  rfl
@[simp] theorem countFetch_storeValid {s : State} {f : FetchCounters → FetchCounters} : (s.countFetch f).storeValid = s.storeValid :=
  rfl
@[simp] theorem countFetch_pending {s : State} {f : FetchCounters → FetchCounters} : (s.countFetch f).pending = s.pending :=
  rfl

@[simp] theorem modRecord_now {s : State} {n : BitVec 16} {f : FetchRecord → FetchRecord} : (s.modRecord n f).now = s.now :=
  rfl
@[simp] theorem modRecord_msInUnit {s : State} {n : BitVec 16} {f : FetchRecord → FetchRecord} : (s.modRecord n f).msInUnit = s.msInUnit :=
  rfl
@[simp] theorem modRecord_unitTicks {s : State} {n : BitVec 16} {f : FetchRecord → FetchRecord} : (s.modRecord n f).unitTicks = s.unitTicks :=
  rfl
@[simp] theorem modRecord_slots {s : State} {n : BitVec 16} {f : FetchRecord → FetchRecord} : (s.modRecord n f).slots = s.slots :=
  rfl
@[simp] theorem modRecord_units {s : State} {n : BitVec 16} {f : FetchRecord → FetchRecord} : (s.modRecord n f).units = s.units :=
  rfl
@[simp] theorem modRecord_poolFree {s : State} {n : BitVec 16} {f : FetchRecord → FetchRecord} : (s.modRecord n f).poolFree = s.poolFree :=
  rfl
@[simp] theorem modRecord_cache {s : State} {n : BitVec 16} {f : FetchRecord → FetchRecord} : (s.modRecord n f).cache = s.cache :=
  rfl
@[simp] theorem modRecord_inrush {s : State} {n : BitVec 16} {f : FetchRecord → FetchRecord} : (s.modRecord n f).inrush = s.inrush :=
  rfl
@[simp] theorem modRecord_uplink {s : State} {n : BitVec 16} {f : FetchRecord → FetchRecord} : (s.modRecord n f).uplink = s.uplink :=
  rfl
@[simp] theorem modRecord_chain {s : State} {n : BitVec 16} {f : FetchRecord → FetchRecord} : (s.modRecord n f).chain = s.chain :=
  rfl
@[simp] theorem modRecord_frameCounters {s : State} {n : BitVec 16} {f : FetchRecord → FetchRecord} : (s.modRecord n f).frameCounters = s.frameCounters :=
  rfl
@[simp] theorem modRecord_tables {s : State} {n : BitVec 16} {f : FetchRecord → FetchRecord} : (s.modRecord n f).tables = s.tables :=
  rfl
@[simp] theorem modRecord_lastPorts {s : State} {n : BitVec 16} {f : FetchRecord → FetchRecord} : (s.modRecord n f).lastPorts = s.lastPorts :=
  rfl
@[simp] theorem modRecord_cursors {s : State} {n : BitVec 16} {f : FetchRecord → FetchRecord} : (s.modRecord n f).cursors = s.cursors :=
  rfl
@[simp] theorem modRecord_noticeNumber {s : State} {n : BitVec 16} {f : FetchRecord → FetchRecord} : (s.modRecord n f).noticeNumber = s.noticeNumber :=
  rfl
@[simp] theorem modRecord_restartCount {s : State} {n : BitVec 16} {f : FetchRecord → FetchRecord} : (s.modRecord n f).restartCount = s.restartCount :=
  rfl
@[simp] theorem modRecord_restart {s : State} {n : BitVec 16} {f : FetchRecord → FetchRecord} : (s.modRecord n f).restart = s.restart :=
  rfl
@[simp] theorem modRecord_save {s : State} {n : BitVec 16} {f : FetchRecord → FetchRecord} : (s.modRecord n f).save = s.save :=
  rfl
@[simp] theorem modRecord_store {s : State} {n : BitVec 16} {f : FetchRecord → FetchRecord} : (s.modRecord n f).store = s.store :=
  rfl
@[simp] theorem modRecord_storeValid {s : State} {n : BitVec 16} {f : FetchRecord → FetchRecord} : (s.modRecord n f).storeValid = s.storeValid :=
  rfl
@[simp] theorem modRecord_pending {s : State} {n : BitVec 16} {f : FetchRecord → FetchRecord} : (s.modRecord n f).pending = s.pending :=
  rfl

@[simp] theorem modLine_now {s : State} {u : UnitId} {g : Nat} {f : CacheLine → CacheLine} : (s.modLine u g f).now = s.now :=
  rfl
@[simp] theorem modLine_msInUnit {s : State} {u : UnitId} {g : Nat} {f : CacheLine → CacheLine} : (s.modLine u g f).msInUnit = s.msInUnit :=
  rfl
@[simp] theorem modLine_unitTicks {s : State} {u : UnitId} {g : Nat} {f : CacheLine → CacheLine} : (s.modLine u g f).unitTicks = s.unitTicks :=
  rfl
@[simp] theorem modLine_slots {s : State} {u : UnitId} {g : Nat} {f : CacheLine → CacheLine} : (s.modLine u g f).slots = s.slots :=
  rfl
@[simp] theorem modLine_units {s : State} {u : UnitId} {g : Nat} {f : CacheLine → CacheLine} : (s.modLine u g f).units = s.units :=
  rfl
@[simp] theorem modLine_poolFree {s : State} {u : UnitId} {g : Nat} {f : CacheLine → CacheLine} : (s.modLine u g f).poolFree = s.poolFree :=
  rfl
@[simp] theorem modLine_fetch {s : State} {u : UnitId} {g : Nat} {f : CacheLine → CacheLine} : (s.modLine u g f).fetch = s.fetch :=
  rfl
@[simp] theorem modLine_inrush {s : State} {u : UnitId} {g : Nat} {f : CacheLine → CacheLine} : (s.modLine u g f).inrush = s.inrush :=
  rfl
@[simp] theorem modLine_uplink {s : State} {u : UnitId} {g : Nat} {f : CacheLine → CacheLine} : (s.modLine u g f).uplink = s.uplink :=
  rfl
@[simp] theorem modLine_chain {s : State} {u : UnitId} {g : Nat} {f : CacheLine → CacheLine} : (s.modLine u g f).chain = s.chain :=
  rfl
@[simp] theorem modLine_frameCounters {s : State} {u : UnitId} {g : Nat} {f : CacheLine → CacheLine} : (s.modLine u g f).frameCounters = s.frameCounters :=
  rfl
@[simp] theorem modLine_tables {s : State} {u : UnitId} {g : Nat} {f : CacheLine → CacheLine} : (s.modLine u g f).tables = s.tables :=
  rfl
@[simp] theorem modLine_lastPorts {s : State} {u : UnitId} {g : Nat} {f : CacheLine → CacheLine} : (s.modLine u g f).lastPorts = s.lastPorts :=
  rfl
@[simp] theorem modLine_cursors {s : State} {u : UnitId} {g : Nat} {f : CacheLine → CacheLine} : (s.modLine u g f).cursors = s.cursors :=
  rfl
@[simp] theorem modLine_noticeNumber {s : State} {u : UnitId} {g : Nat} {f : CacheLine → CacheLine} : (s.modLine u g f).noticeNumber = s.noticeNumber :=
  rfl
@[simp] theorem modLine_restartCount {s : State} {u : UnitId} {g : Nat} {f : CacheLine → CacheLine} : (s.modLine u g f).restartCount = s.restartCount :=
  rfl
@[simp] theorem modLine_restart {s : State} {u : UnitId} {g : Nat} {f : CacheLine → CacheLine} : (s.modLine u g f).restart = s.restart :=
  rfl
@[simp] theorem modLine_save {s : State} {u : UnitId} {g : Nat} {f : CacheLine → CacheLine} : (s.modLine u g f).save = s.save :=
  rfl
@[simp] theorem modLine_store {s : State} {u : UnitId} {g : Nat} {f : CacheLine → CacheLine} : (s.modLine u g f).store = s.store :=
  rfl
@[simp] theorem modLine_storeValid {s : State} {u : UnitId} {g : Nat} {f : CacheLine → CacheLine} : (s.modLine u g f).storeValid = s.storeValid :=
  rfl
@[simp] theorem modLine_pending {s : State} {u : UnitId} {g : Nat} {f : CacheLine → CacheLine} : (s.modLine u g f).pending = s.pending :=
  rfl

@[simp] theorem touch_now {s : State} {u : UnitId} {g : Nat} : (touch u g s).now = s.now := rfl
@[simp] theorem touch_msInUnit {s : State} {u : UnitId} {g : Nat} : (touch u g s).msInUnit = s.msInUnit := rfl
@[simp] theorem touch_unitTicks {s : State} {u : UnitId} {g : Nat} : (touch u g s).unitTicks = s.unitTicks := rfl
@[simp] theorem touch_slots {s : State} {u : UnitId} {g : Nat} : (touch u g s).slots = s.slots := rfl
@[simp] theorem touch_units {s : State} {u : UnitId} {g : Nat} : (touch u g s).units = s.units := rfl
@[simp] theorem touch_poolFree {s : State} {u : UnitId} {g : Nat} : (touch u g s).poolFree = s.poolFree := rfl
@[simp] theorem touch_fetch {s : State} {u : UnitId} {g : Nat} : (touch u g s).fetch = s.fetch := rfl
@[simp] theorem touch_inrush {s : State} {u : UnitId} {g : Nat} : (touch u g s).inrush = s.inrush := rfl
@[simp] theorem touch_uplink {s : State} {u : UnitId} {g : Nat} : (touch u g s).uplink = s.uplink := rfl
@[simp] theorem touch_chain {s : State} {u : UnitId} {g : Nat} : (touch u g s).chain = s.chain := rfl
@[simp] theorem touch_frameCounters {s : State} {u : UnitId} {g : Nat} : (touch u g s).frameCounters = s.frameCounters :=
  rfl
@[simp] theorem touch_tables {s : State} {u : UnitId} {g : Nat} : (touch u g s).tables = s.tables := rfl
@[simp] theorem touch_lastPorts {s : State} {u : UnitId} {g : Nat} : (touch u g s).lastPorts = s.lastPorts := rfl
@[simp] theorem touch_cursors {s : State} {u : UnitId} {g : Nat} : (touch u g s).cursors = s.cursors := rfl
@[simp] theorem touch_noticeNumber {s : State} {u : UnitId} {g : Nat} : (touch u g s).noticeNumber = s.noticeNumber :=
  rfl
@[simp] theorem touch_restartCount {s : State} {u : UnitId} {g : Nat} : (touch u g s).restartCount = s.restartCount :=
  rfl
@[simp] theorem touch_restart {s : State} {u : UnitId} {g : Nat} : (touch u g s).restart = s.restart := rfl
@[simp] theorem touch_save {s : State} {u : UnitId} {g : Nat} : (touch u g s).save = s.save := rfl
@[simp] theorem touch_store {s : State} {u : UnitId} {g : Nat} : (touch u g s).store = s.store := rfl
@[simp] theorem touch_storeValid {s : State} {u : UnitId} {g : Nat} : (touch u g s).storeValid = s.storeValid := rfl
@[simp] theorem touch_pending {s : State} {u : UnitId} {g : Nat} : (touch u g s).pending = s.pending := rfl

@[simp] theorem modInrush_now {s : State} {f : Inrush → Inrush} : (s.modInrush f).now = s.now := rfl
@[simp] theorem modInrush_msInUnit {s : State} {f : Inrush → Inrush} : (s.modInrush f).msInUnit = s.msInUnit := rfl
@[simp] theorem modInrush_unitTicks {s : State} {f : Inrush → Inrush} : (s.modInrush f).unitTicks = s.unitTicks := rfl
@[simp] theorem modInrush_slots {s : State} {f : Inrush → Inrush} : (s.modInrush f).slots = s.slots := rfl
@[simp] theorem modInrush_units {s : State} {f : Inrush → Inrush} : (s.modInrush f).units = s.units := rfl
@[simp] theorem modInrush_poolFree {s : State} {f : Inrush → Inrush} : (s.modInrush f).poolFree = s.poolFree := rfl
@[simp] theorem modInrush_cache {s : State} {f : Inrush → Inrush} : (s.modInrush f).cache = s.cache := rfl
@[simp] theorem modInrush_fetch {s : State} {f : Inrush → Inrush} : (s.modInrush f).fetch = s.fetch := rfl
@[simp] theorem modInrush_uplink {s : State} {f : Inrush → Inrush} : (s.modInrush f).uplink = s.uplink := rfl
@[simp] theorem modInrush_chain {s : State} {f : Inrush → Inrush} : (s.modInrush f).chain = s.chain := rfl
@[simp] theorem modInrush_frameCounters {s : State} {f : Inrush → Inrush} : (s.modInrush f).frameCounters = s.frameCounters :=
  rfl
@[simp] theorem modInrush_tables {s : State} {f : Inrush → Inrush} : (s.modInrush f).tables = s.tables := rfl
@[simp] theorem modInrush_lastPorts {s : State} {f : Inrush → Inrush} : (s.modInrush f).lastPorts = s.lastPorts := rfl
@[simp] theorem modInrush_cursors {s : State} {f : Inrush → Inrush} : (s.modInrush f).cursors = s.cursors := rfl
@[simp] theorem modInrush_noticeNumber {s : State} {f : Inrush → Inrush} : (s.modInrush f).noticeNumber = s.noticeNumber :=
  rfl
@[simp] theorem modInrush_restartCount {s : State} {f : Inrush → Inrush} : (s.modInrush f).restartCount = s.restartCount :=
  rfl
@[simp] theorem modInrush_restart {s : State} {f : Inrush → Inrush} : (s.modInrush f).restart = s.restart := rfl
@[simp] theorem modInrush_save {s : State} {f : Inrush → Inrush} : (s.modInrush f).save = s.save := rfl
@[simp] theorem modInrush_store {s : State} {f : Inrush → Inrush} : (s.modInrush f).store = s.store := rfl
@[simp] theorem modInrush_storeValid {s : State} {f : Inrush → Inrush} : (s.modInrush f).storeValid = s.storeValid :=
  rfl
@[simp] theorem modInrush_pending {s : State} {f : Inrush → Inrush} : (s.modInrush f).pending = s.pending := rfl

@[simp] theorem modTables_now {s : State} {f : Tables → Tables} : (modTables f s).now = s.now := rfl
@[simp] theorem modTables_msInUnit {s : State} {f : Tables → Tables} : (modTables f s).msInUnit = s.msInUnit := rfl
@[simp] theorem modTables_unitTicks {s : State} {f : Tables → Tables} : (modTables f s).unitTicks = s.unitTicks := rfl
@[simp] theorem modTables_slots {s : State} {f : Tables → Tables} : (modTables f s).slots = s.slots := rfl
@[simp] theorem modTables_units {s : State} {f : Tables → Tables} : (modTables f s).units = s.units := rfl
@[simp] theorem modTables_poolFree {s : State} {f : Tables → Tables} : (modTables f s).poolFree = s.poolFree := rfl
@[simp] theorem modTables_cache {s : State} {f : Tables → Tables} : (modTables f s).cache = s.cache := rfl
@[simp] theorem modTables_fetch {s : State} {f : Tables → Tables} : (modTables f s).fetch = s.fetch := rfl
@[simp] theorem modTables_inrush {s : State} {f : Tables → Tables} : (modTables f s).inrush = s.inrush := rfl
@[simp] theorem modTables_uplink {s : State} {f : Tables → Tables} : (modTables f s).uplink = s.uplink := rfl
@[simp] theorem modTables_chain {s : State} {f : Tables → Tables} : (modTables f s).chain = s.chain := rfl
@[simp] theorem modTables_frameCounters {s : State} {f : Tables → Tables} : (modTables f s).frameCounters = s.frameCounters :=
  rfl
@[simp] theorem modTables_lastPorts {s : State} {f : Tables → Tables} : (modTables f s).lastPorts = s.lastPorts := rfl
@[simp] theorem modTables_cursors {s : State} {f : Tables → Tables} : (modTables f s).cursors = s.cursors := rfl
@[simp] theorem modTables_noticeNumber {s : State} {f : Tables → Tables} : (modTables f s).noticeNumber = s.noticeNumber :=
  rfl
@[simp] theorem modTables_restartCount {s : State} {f : Tables → Tables} : (modTables f s).restartCount = s.restartCount :=
  rfl
@[simp] theorem modTables_restart {s : State} {f : Tables → Tables} : (modTables f s).restart = s.restart := rfl
@[simp] theorem modTables_save {s : State} {f : Tables → Tables} : (modTables f s).save = s.save := rfl
@[simp] theorem modTables_store {s : State} {f : Tables → Tables} : (modTables f s).store = s.store := rfl
@[simp] theorem modTables_storeValid {s : State} {f : Tables → Tables} : (modTables f s).storeValid = s.storeValid :=
  rfl
@[simp] theorem modTables_pending {s : State} {f : Tables → Tables} : (modTables f s).pending = s.pending := rfl

/-! ## Notices and markers -/

@[simp] theorem offerCopy_now {b : OwnBody} {o : Option SlotId} {s : State} {e : StationId} : (offerCopy b o s e).now = s.now :=
  by unfold offerCopy; dsimp only; split_ifs <;> simp
@[simp] theorem offerCopy_msInUnit {b : OwnBody} {o : Option SlotId} {s : State} {e : StationId} : (offerCopy b o s e).msInUnit = s.msInUnit :=
  by unfold offerCopy; dsimp only; split_ifs <;> simp
@[simp] theorem offerCopy_unitTicks {b : OwnBody} {o : Option SlotId} {s : State} {e : StationId} : (offerCopy b o s e).unitTicks = s.unitTicks :=
  by unfold offerCopy; dsimp only; split_ifs <;> simp
@[simp] theorem offerCopy_slots {b : OwnBody} {o : Option SlotId} {s : State} {e : StationId} : (offerCopy b o s e).slots = s.slots :=
  by unfold offerCopy; dsimp only; split_ifs <;> simp
@[simp] theorem offerCopy_units {b : OwnBody} {o : Option SlotId} {s : State} {e : StationId} : (offerCopy b o s e).units = s.units :=
  by unfold offerCopy; dsimp only; split_ifs <;> simp
@[simp] theorem offerCopy_poolFree {b : OwnBody} {o : Option SlotId} {s : State} {e : StationId} : (offerCopy b o s e).poolFree = s.poolFree :=
  by unfold offerCopy; dsimp only; split_ifs <;> simp
@[simp] theorem offerCopy_cache {b : OwnBody} {o : Option SlotId} {s : State} {e : StationId} : (offerCopy b o s e).cache = s.cache :=
  by unfold offerCopy; dsimp only; split_ifs <;> simp
@[simp] theorem offerCopy_fetch {b : OwnBody} {o : Option SlotId} {s : State} {e : StationId} : (offerCopy b o s e).fetch = s.fetch :=
  by unfold offerCopy; dsimp only; split_ifs <;> simp
@[simp] theorem offerCopy_inrush {b : OwnBody} {o : Option SlotId} {s : State} {e : StationId} : (offerCopy b o s e).inrush = s.inrush :=
  by unfold offerCopy; dsimp only; split_ifs <;> simp
@[simp] theorem offerCopy_frameCounters {b : OwnBody} {o : Option SlotId} {s : State} {e : StationId} : (offerCopy b o s e).frameCounters = s.frameCounters :=
  by unfold offerCopy; dsimp only; split_ifs <;> simp
@[simp] theorem offerCopy_tables {b : OwnBody} {o : Option SlotId} {s : State} {e : StationId} : (offerCopy b o s e).tables = s.tables :=
  by unfold offerCopy; dsimp only; split_ifs <;> simp
@[simp] theorem offerCopy_lastPorts {b : OwnBody} {o : Option SlotId} {s : State} {e : StationId} : (offerCopy b o s e).lastPorts = s.lastPorts :=
  by unfold offerCopy; dsimp only; split_ifs <;> simp
@[simp] theorem offerCopy_cursors {b : OwnBody} {o : Option SlotId} {s : State} {e : StationId} : (offerCopy b o s e).cursors = s.cursors :=
  by unfold offerCopy; dsimp only; split_ifs <;> simp
@[simp] theorem offerCopy_noticeNumber {b : OwnBody} {o : Option SlotId} {s : State} {e : StationId} : (offerCopy b o s e).noticeNumber = s.noticeNumber :=
  by unfold offerCopy; dsimp only; split_ifs <;> simp
@[simp] theorem offerCopy_restartCount {b : OwnBody} {o : Option SlotId} {s : State} {e : StationId} : (offerCopy b o s e).restartCount = s.restartCount :=
  by unfold offerCopy; dsimp only; split_ifs <;> simp
@[simp] theorem offerCopy_restart {b : OwnBody} {o : Option SlotId} {s : State} {e : StationId} : (offerCopy b o s e).restart = s.restart :=
  by unfold offerCopy; dsimp only; split_ifs <;> simp
@[simp] theorem offerCopy_save {b : OwnBody} {o : Option SlotId} {s : State} {e : StationId} : (offerCopy b o s e).save = s.save :=
  by unfold offerCopy; dsimp only; split_ifs <;> simp
@[simp] theorem offerCopy_store {b : OwnBody} {o : Option SlotId} {s : State} {e : StationId} : (offerCopy b o s e).store = s.store :=
  by unfold offerCopy; dsimp only; split_ifs <;> simp
@[simp] theorem offerCopy_storeValid {b : OwnBody} {o : Option SlotId} {s : State} {e : StationId} : (offerCopy b o s e).storeValid = s.storeValid :=
  by unfold offerCopy; dsimp only; split_ifs <;> simp
@[simp] theorem offerCopy_pending {b : OwnBody} {o : Option SlotId} {s : State} {e : StationId} : (offerCopy b o s e).pending = s.pending :=
  by unfold offerCopy; dsimp only; split_ifs <;> simp

@[simp] theorem notify_now {s : State} {o : Option SlotId} {b : NoticeBody} : (s.notify o b).now = s.now :=
  foldl_keeps State.now _ (fun _ _ => offerCopy_now) _ _
@[simp] theorem notify_msInUnit {s : State} {o : Option SlotId} {b : NoticeBody} : (s.notify o b).msInUnit = s.msInUnit :=
  foldl_keeps State.msInUnit _ (fun _ _ => offerCopy_msInUnit) _ _
@[simp] theorem notify_unitTicks {s : State} {o : Option SlotId} {b : NoticeBody} : (s.notify o b).unitTicks = s.unitTicks :=
  foldl_keeps State.unitTicks _ (fun _ _ => offerCopy_unitTicks) _ _
@[simp] theorem notify_slots {s : State} {o : Option SlotId} {b : NoticeBody} : (s.notify o b).slots = s.slots :=
  foldl_keeps State.slots _ (fun _ _ => offerCopy_slots) _ _
@[simp] theorem notify_units {s : State} {o : Option SlotId} {b : NoticeBody} : (s.notify o b).units = s.units :=
  foldl_keeps State.units _ (fun _ _ => offerCopy_units) _ _
@[simp] theorem notify_poolFree {s : State} {o : Option SlotId} {b : NoticeBody} : (s.notify o b).poolFree = s.poolFree :=
  foldl_keeps State.poolFree _ (fun _ _ => offerCopy_poolFree) _ _
@[simp] theorem notify_cache {s : State} {o : Option SlotId} {b : NoticeBody} : (s.notify o b).cache = s.cache :=
  foldl_keeps State.cache _ (fun _ _ => offerCopy_cache) _ _
@[simp] theorem notify_fetch {s : State} {o : Option SlotId} {b : NoticeBody} : (s.notify o b).fetch = s.fetch :=
  foldl_keeps State.fetch _ (fun _ _ => offerCopy_fetch) _ _
@[simp] theorem notify_inrush {s : State} {o : Option SlotId} {b : NoticeBody} : (s.notify o b).inrush = s.inrush :=
  foldl_keeps State.inrush _ (fun _ _ => offerCopy_inrush) _ _
@[simp] theorem notify_frameCounters {s : State} {o : Option SlotId} {b : NoticeBody} : (s.notify o b).frameCounters = s.frameCounters :=
  foldl_keeps State.frameCounters _ (fun _ _ => offerCopy_frameCounters) _ _
@[simp] theorem notify_tables {s : State} {o : Option SlotId} {b : NoticeBody} : (s.notify o b).tables = s.tables :=
  foldl_keeps State.tables _ (fun _ _ => offerCopy_tables) _ _
@[simp] theorem notify_lastPorts {s : State} {o : Option SlotId} {b : NoticeBody} : (s.notify o b).lastPorts = s.lastPorts :=
  foldl_keeps State.lastPorts _ (fun _ _ => offerCopy_lastPorts) _ _
@[simp] theorem notify_cursors {s : State} {o : Option SlotId} {b : NoticeBody} : (s.notify o b).cursors = s.cursors :=
  foldl_keeps State.cursors _ (fun _ _ => offerCopy_cursors) _ _
@[simp] theorem notify_restartCount {s : State} {o : Option SlotId} {b : NoticeBody} : (s.notify o b).restartCount = s.restartCount :=
  foldl_keeps State.restartCount _ (fun _ _ => offerCopy_restartCount) _ _
@[simp] theorem notify_restart {s : State} {o : Option SlotId} {b : NoticeBody} : (s.notify o b).restart = s.restart :=
  foldl_keeps State.restart _ (fun _ _ => offerCopy_restart) _ _
@[simp] theorem notify_save {s : State} {o : Option SlotId} {b : NoticeBody} : (s.notify o b).save = s.save :=
  foldl_keeps State.save _ (fun _ _ => offerCopy_save) _ _
@[simp] theorem notify_store {s : State} {o : Option SlotId} {b : NoticeBody} : (s.notify o b).store = s.store :=
  foldl_keeps State.store _ (fun _ _ => offerCopy_store) _ _
@[simp] theorem notify_storeValid {s : State} {o : Option SlotId} {b : NoticeBody} : (s.notify o b).storeValid = s.storeValid :=
  foldl_keeps State.storeValid _ (fun _ _ => offerCopy_storeValid) _ _
@[simp] theorem notify_pending {s : State} {o : Option SlotId} {b : NoticeBody} : (s.notify o b).pending = s.pending :=
  foldl_keeps State.pending _ (fun _ _ => offerCopy_pending) _ _

@[simp] theorem notify_noticeNumber {s : State} {o : Option SlotId} {b : NoticeBody} :
    (s.notify o b).noticeNumber = s.noticeNumber + 1 :=
  foldl_keeps State.noticeNumber _ (fun _ _ => offerCopy_noticeNumber) _ _

@[simp] theorem notify_slot {s : State} {o : Option SlotId} {b : NoticeBody} {i : SlotId} :
    (s.notify o b).slot i = s.slot i := congrArg (·[i]) notify_slots

@[simp] theorem notify_unit {s : State} {o : Option SlotId} {b : NoticeBody} {u : UnitId} :
    (s.notify o b).unit u = s.unit u := congrArg (·[u]) notify_units

@[simp] theorem post_now {s : State} {i : SlotId} {d : MarkerDetail} : (s.post i d).now = s.now := rfl
@[simp] theorem post_msInUnit {s : State} {i : SlotId} {d : MarkerDetail} : (s.post i d).msInUnit = s.msInUnit := rfl
@[simp] theorem post_unitTicks {s : State} {i : SlotId} {d : MarkerDetail} : (s.post i d).unitTicks = s.unitTicks :=
  rfl
@[simp] theorem post_units {s : State} {i : SlotId} {d : MarkerDetail} : (s.post i d).units = s.units := rfl
@[simp] theorem post_poolFree {s : State} {i : SlotId} {d : MarkerDetail} : (s.post i d).poolFree = s.poolFree := rfl
@[simp] theorem post_cache {s : State} {i : SlotId} {d : MarkerDetail} : (s.post i d).cache = s.cache := rfl
@[simp] theorem post_fetch {s : State} {i : SlotId} {d : MarkerDetail} : (s.post i d).fetch = s.fetch := rfl
@[simp] theorem post_inrush {s : State} {i : SlotId} {d : MarkerDetail} : (s.post i d).inrush = s.inrush := rfl
@[simp] theorem post_uplink {s : State} {i : SlotId} {d : MarkerDetail} : (s.post i d).uplink = s.uplink := rfl
@[simp] theorem post_chain {s : State} {i : SlotId} {d : MarkerDetail} : (s.post i d).chain = s.chain := rfl
@[simp] theorem post_frameCounters {s : State} {i : SlotId} {d : MarkerDetail} : (s.post i d).frameCounters = s.frameCounters :=
  rfl
@[simp] theorem post_tables {s : State} {i : SlotId} {d : MarkerDetail} : (s.post i d).tables = s.tables := rfl
@[simp] theorem post_lastPorts {s : State} {i : SlotId} {d : MarkerDetail} : (s.post i d).lastPorts = s.lastPorts :=
  rfl
@[simp] theorem post_cursors {s : State} {i : SlotId} {d : MarkerDetail} : (s.post i d).cursors = s.cursors := rfl
@[simp] theorem post_noticeNumber {s : State} {i : SlotId} {d : MarkerDetail} : (s.post i d).noticeNumber = s.noticeNumber :=
  rfl
@[simp] theorem post_restartCount {s : State} {i : SlotId} {d : MarkerDetail} : (s.post i d).restartCount = s.restartCount :=
  rfl
@[simp] theorem post_restart {s : State} {i : SlotId} {d : MarkerDetail} : (s.post i d).restart = s.restart := rfl
@[simp] theorem post_save {s : State} {i : SlotId} {d : MarkerDetail} : (s.post i d).save = s.save := rfl
@[simp] theorem post_store {s : State} {i : SlotId} {d : MarkerDetail} : (s.post i d).store = s.store := rfl
@[simp] theorem post_storeValid {s : State} {i : SlotId} {d : MarkerDetail} : (s.post i d).storeValid = s.storeValid :=
  rfl
@[simp] theorem post_pending {s : State} {i : SlotId} {d : MarkerDetail} : (s.post i d).pending = s.pending := rfl

/-! ## The sequencer -/

@[simp] theorem setSeqState_now {s : State} {i : SlotId} {st : SeqState} : (setSeqState i st s).now = s.now := rfl
@[simp] theorem setSeqState_msInUnit {s : State} {i : SlotId} {st : SeqState} : (setSeqState i st s).msInUnit = s.msInUnit :=
  rfl
@[simp] theorem setSeqState_unitTicks {s : State} {i : SlotId} {st : SeqState} : (setSeqState i st s).unitTicks = s.unitTicks :=
  rfl
@[simp] theorem setSeqState_units {s : State} {i : SlotId} {st : SeqState} : (setSeqState i st s).units = s.units :=
  rfl
@[simp] theorem setSeqState_poolFree {s : State} {i : SlotId} {st : SeqState} : (setSeqState i st s).poolFree = s.poolFree :=
  rfl
@[simp] theorem setSeqState_cache {s : State} {i : SlotId} {st : SeqState} : (setSeqState i st s).cache = s.cache :=
  rfl
@[simp] theorem setSeqState_fetch {s : State} {i : SlotId} {st : SeqState} : (setSeqState i st s).fetch = s.fetch :=
  rfl
@[simp] theorem setSeqState_inrush {s : State} {i : SlotId} {st : SeqState} : (setSeqState i st s).inrush = s.inrush :=
  rfl
@[simp] theorem setSeqState_uplink {s : State} {i : SlotId} {st : SeqState} : (setSeqState i st s).uplink = s.uplink :=
  rfl
@[simp] theorem setSeqState_chain {s : State} {i : SlotId} {st : SeqState} : (setSeqState i st s).chain = s.chain :=
  rfl
@[simp] theorem setSeqState_frameCounters {s : State} {i : SlotId} {st : SeqState} : (setSeqState i st s).frameCounters = s.frameCounters :=
  rfl
@[simp] theorem setSeqState_tables {s : State} {i : SlotId} {st : SeqState} : (setSeqState i st s).tables = s.tables :=
  rfl
@[simp] theorem setSeqState_lastPorts {s : State} {i : SlotId} {st : SeqState} : (setSeqState i st s).lastPorts = s.lastPorts :=
  rfl
@[simp] theorem setSeqState_cursors {s : State} {i : SlotId} {st : SeqState} : (setSeqState i st s).cursors = s.cursors :=
  rfl
@[simp] theorem setSeqState_noticeNumber {s : State} {i : SlotId} {st : SeqState} : (setSeqState i st s).noticeNumber = s.noticeNumber :=
  rfl
@[simp] theorem setSeqState_restartCount {s : State} {i : SlotId} {st : SeqState} : (setSeqState i st s).restartCount = s.restartCount :=
  rfl
@[simp] theorem setSeqState_restart {s : State} {i : SlotId} {st : SeqState} : (setSeqState i st s).restart = s.restart :=
  rfl
@[simp] theorem setSeqState_save {s : State} {i : SlotId} {st : SeqState} : (setSeqState i st s).save = s.save := rfl
@[simp] theorem setSeqState_store {s : State} {i : SlotId} {st : SeqState} : (setSeqState i st s).store = s.store :=
  rfl
@[simp] theorem setSeqState_storeValid {s : State} {i : SlotId} {st : SeqState} : (setSeqState i st s).storeValid = s.storeValid :=
  rfl
@[simp] theorem setSeqState_pending {s : State} {i : SlotId} {st : SeqState} : (setSeqState i st s).pending = s.pending :=
  rfl

@[simp] theorem modSeq_now {s : State} {i : SlotId} {f : Sequencer → Sequencer} : (modSeq i f s).now = s.now := rfl
@[simp] theorem modSeq_msInUnit {s : State} {i : SlotId} {f : Sequencer → Sequencer} : (modSeq i f s).msInUnit = s.msInUnit :=
  rfl
@[simp] theorem modSeq_unitTicks {s : State} {i : SlotId} {f : Sequencer → Sequencer} : (modSeq i f s).unitTicks = s.unitTicks :=
  rfl
@[simp] theorem modSeq_units {s : State} {i : SlotId} {f : Sequencer → Sequencer} : (modSeq i f s).units = s.units :=
  rfl
@[simp] theorem modSeq_poolFree {s : State} {i : SlotId} {f : Sequencer → Sequencer} : (modSeq i f s).poolFree = s.poolFree :=
  rfl
@[simp] theorem modSeq_cache {s : State} {i : SlotId} {f : Sequencer → Sequencer} : (modSeq i f s).cache = s.cache :=
  rfl
@[simp] theorem modSeq_fetch {s : State} {i : SlotId} {f : Sequencer → Sequencer} : (modSeq i f s).fetch = s.fetch :=
  rfl
@[simp] theorem modSeq_inrush {s : State} {i : SlotId} {f : Sequencer → Sequencer} : (modSeq i f s).inrush = s.inrush :=
  rfl
@[simp] theorem modSeq_uplink {s : State} {i : SlotId} {f : Sequencer → Sequencer} : (modSeq i f s).uplink = s.uplink :=
  rfl
@[simp] theorem modSeq_chain {s : State} {i : SlotId} {f : Sequencer → Sequencer} : (modSeq i f s).chain = s.chain :=
  rfl
@[simp] theorem modSeq_frameCounters {s : State} {i : SlotId} {f : Sequencer → Sequencer} : (modSeq i f s).frameCounters = s.frameCounters :=
  rfl
@[simp] theorem modSeq_tables {s : State} {i : SlotId} {f : Sequencer → Sequencer} : (modSeq i f s).tables = s.tables :=
  rfl
@[simp] theorem modSeq_lastPorts {s : State} {i : SlotId} {f : Sequencer → Sequencer} : (modSeq i f s).lastPorts = s.lastPorts :=
  rfl
@[simp] theorem modSeq_cursors {s : State} {i : SlotId} {f : Sequencer → Sequencer} : (modSeq i f s).cursors = s.cursors :=
  rfl
@[simp] theorem modSeq_noticeNumber {s : State} {i : SlotId} {f : Sequencer → Sequencer} : (modSeq i f s).noticeNumber = s.noticeNumber :=
  rfl
@[simp] theorem modSeq_restartCount {s : State} {i : SlotId} {f : Sequencer → Sequencer} : (modSeq i f s).restartCount = s.restartCount :=
  rfl
@[simp] theorem modSeq_restart {s : State} {i : SlotId} {f : Sequencer → Sequencer} : (modSeq i f s).restart = s.restart :=
  rfl
@[simp] theorem modSeq_save {s : State} {i : SlotId} {f : Sequencer → Sequencer} : (modSeq i f s).save = s.save := rfl
@[simp] theorem modSeq_store {s : State} {i : SlotId} {f : Sequencer → Sequencer} : (modSeq i f s).store = s.store :=
  rfl
@[simp] theorem modSeq_storeValid {s : State} {i : SlotId} {f : Sequencer → Sequencer} : (modSeq i f s).storeValid = s.storeValid :=
  rfl
@[simp] theorem modSeq_pending {s : State} {i : SlotId} {f : Sequencer → Sequencer} : (modSeq i f s).pending = s.pending :=
  rfl

@[simp] theorem modRecordOf_now {s : State} {i : SlotId} {f : SeqRecord → SeqRecord} : (modRecordOf i f s).now = s.now :=
  rfl
@[simp] theorem modRecordOf_msInUnit {s : State} {i : SlotId} {f : SeqRecord → SeqRecord} : (modRecordOf i f s).msInUnit = s.msInUnit :=
  rfl
@[simp] theorem modRecordOf_unitTicks {s : State} {i : SlotId} {f : SeqRecord → SeqRecord} : (modRecordOf i f s).unitTicks = s.unitTicks :=
  rfl
@[simp] theorem modRecordOf_units {s : State} {i : SlotId} {f : SeqRecord → SeqRecord} : (modRecordOf i f s).units = s.units :=
  rfl
@[simp] theorem modRecordOf_poolFree {s : State} {i : SlotId} {f : SeqRecord → SeqRecord} : (modRecordOf i f s).poolFree = s.poolFree :=
  rfl
@[simp] theorem modRecordOf_cache {s : State} {i : SlotId} {f : SeqRecord → SeqRecord} : (modRecordOf i f s).cache = s.cache :=
  rfl
@[simp] theorem modRecordOf_fetch {s : State} {i : SlotId} {f : SeqRecord → SeqRecord} : (modRecordOf i f s).fetch = s.fetch :=
  rfl
@[simp] theorem modRecordOf_inrush {s : State} {i : SlotId} {f : SeqRecord → SeqRecord} : (modRecordOf i f s).inrush = s.inrush :=
  rfl
@[simp] theorem modRecordOf_uplink {s : State} {i : SlotId} {f : SeqRecord → SeqRecord} : (modRecordOf i f s).uplink = s.uplink :=
  rfl
@[simp] theorem modRecordOf_chain {s : State} {i : SlotId} {f : SeqRecord → SeqRecord} : (modRecordOf i f s).chain = s.chain :=
  rfl
@[simp] theorem modRecordOf_frameCounters {s : State} {i : SlotId} {f : SeqRecord → SeqRecord} : (modRecordOf i f s).frameCounters = s.frameCounters :=
  rfl
@[simp] theorem modRecordOf_tables {s : State} {i : SlotId} {f : SeqRecord → SeqRecord} : (modRecordOf i f s).tables = s.tables :=
  rfl
@[simp] theorem modRecordOf_lastPorts {s : State} {i : SlotId} {f : SeqRecord → SeqRecord} : (modRecordOf i f s).lastPorts = s.lastPorts :=
  rfl
@[simp] theorem modRecordOf_cursors {s : State} {i : SlotId} {f : SeqRecord → SeqRecord} : (modRecordOf i f s).cursors = s.cursors :=
  rfl
@[simp] theorem modRecordOf_noticeNumber {s : State} {i : SlotId} {f : SeqRecord → SeqRecord} : (modRecordOf i f s).noticeNumber = s.noticeNumber :=
  rfl
@[simp] theorem modRecordOf_restartCount {s : State} {i : SlotId} {f : SeqRecord → SeqRecord} : (modRecordOf i f s).restartCount = s.restartCount :=
  rfl
@[simp] theorem modRecordOf_restart {s : State} {i : SlotId} {f : SeqRecord → SeqRecord} : (modRecordOf i f s).restart = s.restart :=
  rfl
@[simp] theorem modRecordOf_save {s : State} {i : SlotId} {f : SeqRecord → SeqRecord} : (modRecordOf i f s).save = s.save :=
  rfl
@[simp] theorem modRecordOf_store {s : State} {i : SlotId} {f : SeqRecord → SeqRecord} : (modRecordOf i f s).store = s.store :=
  rfl
@[simp] theorem modRecordOf_storeValid {s : State} {i : SlotId} {f : SeqRecord → SeqRecord} : (modRecordOf i f s).storeValid = s.storeValid :=
  rfl
@[simp] theorem modRecordOf_pending {s : State} {i : SlotId} {f : SeqRecord → SeqRecord} : (modRecordOf i f s).pending = s.pending :=
  rfl

@[simp] theorem armStep_now {s : State} {i : SlotId} {ms : Nat} : (armStep i ms s).now = s.now := rfl
@[simp] theorem armStep_msInUnit {s : State} {i : SlotId} {ms : Nat} : (armStep i ms s).msInUnit = s.msInUnit := rfl
@[simp] theorem armStep_unitTicks {s : State} {i : SlotId} {ms : Nat} : (armStep i ms s).unitTicks = s.unitTicks :=
  rfl
@[simp] theorem armStep_units {s : State} {i : SlotId} {ms : Nat} : (armStep i ms s).units = s.units := rfl
@[simp] theorem armStep_poolFree {s : State} {i : SlotId} {ms : Nat} : (armStep i ms s).poolFree = s.poolFree := rfl
@[simp] theorem armStep_cache {s : State} {i : SlotId} {ms : Nat} : (armStep i ms s).cache = s.cache := rfl
@[simp] theorem armStep_fetch {s : State} {i : SlotId} {ms : Nat} : (armStep i ms s).fetch = s.fetch := rfl
@[simp] theorem armStep_inrush {s : State} {i : SlotId} {ms : Nat} : (armStep i ms s).inrush = s.inrush := rfl
@[simp] theorem armStep_uplink {s : State} {i : SlotId} {ms : Nat} : (armStep i ms s).uplink = s.uplink := rfl
@[simp] theorem armStep_chain {s : State} {i : SlotId} {ms : Nat} : (armStep i ms s).chain = s.chain := rfl
@[simp] theorem armStep_frameCounters {s : State} {i : SlotId} {ms : Nat} : (armStep i ms s).frameCounters = s.frameCounters :=
  rfl
@[simp] theorem armStep_tables {s : State} {i : SlotId} {ms : Nat} : (armStep i ms s).tables = s.tables := rfl
@[simp] theorem armStep_lastPorts {s : State} {i : SlotId} {ms : Nat} : (armStep i ms s).lastPorts = s.lastPorts :=
  rfl
@[simp] theorem armStep_cursors {s : State} {i : SlotId} {ms : Nat} : (armStep i ms s).cursors = s.cursors := rfl
@[simp] theorem armStep_noticeNumber {s : State} {i : SlotId} {ms : Nat} : (armStep i ms s).noticeNumber = s.noticeNumber :=
  rfl
@[simp] theorem armStep_restartCount {s : State} {i : SlotId} {ms : Nat} : (armStep i ms s).restartCount = s.restartCount :=
  rfl
@[simp] theorem armStep_restart {s : State} {i : SlotId} {ms : Nat} : (armStep i ms s).restart = s.restart := rfl
@[simp] theorem armStep_save {s : State} {i : SlotId} {ms : Nat} : (armStep i ms s).save = s.save := rfl
@[simp] theorem armStep_store {s : State} {i : SlotId} {ms : Nat} : (armStep i ms s).store = s.store := rfl
@[simp] theorem armStep_storeValid {s : State} {i : SlotId} {ms : Nat} : (armStep i ms s).storeValid = s.storeValid :=
  rfl
@[simp] theorem armStep_pending {s : State} {i : SlotId} {ms : Nat} : (armStep i ms s).pending = s.pending := rfl

@[simp] theorem setGate_now {s : State} {i : SlotId} {g : GateOutcome} : (setGate i g s).now = s.now := rfl
@[simp] theorem setGate_msInUnit {s : State} {i : SlotId} {g : GateOutcome} : (setGate i g s).msInUnit = s.msInUnit :=
  rfl
@[simp] theorem setGate_unitTicks {s : State} {i : SlotId} {g : GateOutcome} : (setGate i g s).unitTicks = s.unitTicks :=
  rfl
@[simp] theorem setGate_units {s : State} {i : SlotId} {g : GateOutcome} : (setGate i g s).units = s.units := rfl
@[simp] theorem setGate_poolFree {s : State} {i : SlotId} {g : GateOutcome} : (setGate i g s).poolFree = s.poolFree :=
  rfl
@[simp] theorem setGate_cache {s : State} {i : SlotId} {g : GateOutcome} : (setGate i g s).cache = s.cache := rfl
@[simp] theorem setGate_fetch {s : State} {i : SlotId} {g : GateOutcome} : (setGate i g s).fetch = s.fetch := rfl
@[simp] theorem setGate_inrush {s : State} {i : SlotId} {g : GateOutcome} : (setGate i g s).inrush = s.inrush := rfl
@[simp] theorem setGate_uplink {s : State} {i : SlotId} {g : GateOutcome} : (setGate i g s).uplink = s.uplink := rfl
@[simp] theorem setGate_chain {s : State} {i : SlotId} {g : GateOutcome} : (setGate i g s).chain = s.chain := rfl
@[simp] theorem setGate_frameCounters {s : State} {i : SlotId} {g : GateOutcome} : (setGate i g s).frameCounters = s.frameCounters :=
  rfl
@[simp] theorem setGate_tables {s : State} {i : SlotId} {g : GateOutcome} : (setGate i g s).tables = s.tables := rfl
@[simp] theorem setGate_lastPorts {s : State} {i : SlotId} {g : GateOutcome} : (setGate i g s).lastPorts = s.lastPorts :=
  rfl
@[simp] theorem setGate_cursors {s : State} {i : SlotId} {g : GateOutcome} : (setGate i g s).cursors = s.cursors :=
  rfl
@[simp] theorem setGate_noticeNumber {s : State} {i : SlotId} {g : GateOutcome} : (setGate i g s).noticeNumber = s.noticeNumber :=
  rfl
@[simp] theorem setGate_restartCount {s : State} {i : SlotId} {g : GateOutcome} : (setGate i g s).restartCount = s.restartCount :=
  rfl
@[simp] theorem setGate_restart {s : State} {i : SlotId} {g : GateOutcome} : (setGate i g s).restart = s.restart :=
  rfl
@[simp] theorem setGate_save {s : State} {i : SlotId} {g : GateOutcome} : (setGate i g s).save = s.save := rfl
@[simp] theorem setGate_store {s : State} {i : SlotId} {g : GateOutcome} : (setGate i g s).store = s.store := rfl
@[simp] theorem setGate_storeValid {s : State} {i : SlotId} {g : GateOutcome} : (setGate i g s).storeValid = s.storeValid :=
  rfl
@[simp] theorem setGate_pending {s : State} {i : SlotId} {g : GateOutcome} : (setGate i g s).pending = s.pending :=
  rfl

@[simp] theorem beginStep_now {s : State} {i : SlotId} {st : Step} {r : List Step} : (beginStep i st r s).now = s.now :=
  rfl
@[simp] theorem beginStep_msInUnit {s : State} {i : SlotId} {st : Step} {r : List Step} : (beginStep i st r s).msInUnit = s.msInUnit :=
  rfl
@[simp] theorem beginStep_unitTicks {s : State} {i : SlotId} {st : Step} {r : List Step} : (beginStep i st r s).unitTicks = s.unitTicks :=
  rfl
@[simp] theorem beginStep_units {s : State} {i : SlotId} {st : Step} {r : List Step} : (beginStep i st r s).units = s.units :=
  rfl
@[simp] theorem beginStep_poolFree {s : State} {i : SlotId} {st : Step} {r : List Step} : (beginStep i st r s).poolFree = s.poolFree :=
  rfl
@[simp] theorem beginStep_cache {s : State} {i : SlotId} {st : Step} {r : List Step} : (beginStep i st r s).cache = s.cache :=
  rfl
@[simp] theorem beginStep_fetch {s : State} {i : SlotId} {st : Step} {r : List Step} : (beginStep i st r s).fetch = s.fetch :=
  rfl
@[simp] theorem beginStep_inrush {s : State} {i : SlotId} {st : Step} {r : List Step} : (beginStep i st r s).inrush = s.inrush :=
  rfl
@[simp] theorem beginStep_uplink {s : State} {i : SlotId} {st : Step} {r : List Step} : (beginStep i st r s).uplink = s.uplink :=
  rfl
@[simp] theorem beginStep_chain {s : State} {i : SlotId} {st : Step} {r : List Step} : (beginStep i st r s).chain = s.chain :=
  rfl
@[simp] theorem beginStep_frameCounters {s : State} {i : SlotId} {st : Step} {r : List Step} : (beginStep i st r s).frameCounters = s.frameCounters :=
  rfl
@[simp] theorem beginStep_tables {s : State} {i : SlotId} {st : Step} {r : List Step} : (beginStep i st r s).tables = s.tables :=
  rfl
@[simp] theorem beginStep_lastPorts {s : State} {i : SlotId} {st : Step} {r : List Step} : (beginStep i st r s).lastPorts = s.lastPorts :=
  rfl
@[simp] theorem beginStep_cursors {s : State} {i : SlotId} {st : Step} {r : List Step} : (beginStep i st r s).cursors = s.cursors :=
  rfl
@[simp] theorem beginStep_noticeNumber {s : State} {i : SlotId} {st : Step} {r : List Step} : (beginStep i st r s).noticeNumber = s.noticeNumber :=
  rfl
@[simp] theorem beginStep_restartCount {s : State} {i : SlotId} {st : Step} {r : List Step} : (beginStep i st r s).restartCount = s.restartCount :=
  rfl
@[simp] theorem beginStep_restart {s : State} {i : SlotId} {st : Step} {r : List Step} : (beginStep i st r s).restart = s.restart :=
  rfl
@[simp] theorem beginStep_save {s : State} {i : SlotId} {st : Step} {r : List Step} : (beginStep i st r s).save = s.save :=
  rfl
@[simp] theorem beginStep_store {s : State} {i : SlotId} {st : Step} {r : List Step} : (beginStep i st r s).store = s.store :=
  rfl
@[simp] theorem beginStep_storeValid {s : State} {i : SlotId} {st : Step} {r : List Step} : (beginStep i st r s).storeValid = s.storeValid :=
  rfl
@[simp] theorem beginStep_pending {s : State} {i : SlotId} {st : Step} {r : List Step} : (beginStep i st r s).pending = s.pending :=
  rfl

@[simp] theorem setPending_now {s : State} {i : SlotId} {c : PendingCause} : (setPending i c s).now = s.now := rfl
@[simp] theorem setPending_msInUnit {s : State} {i : SlotId} {c : PendingCause} : (setPending i c s).msInUnit = s.msInUnit :=
  rfl
@[simp] theorem setPending_unitTicks {s : State} {i : SlotId} {c : PendingCause} : (setPending i c s).unitTicks = s.unitTicks :=
  rfl
@[simp] theorem setPending_units {s : State} {i : SlotId} {c : PendingCause} : (setPending i c s).units = s.units :=
  rfl
@[simp] theorem setPending_poolFree {s : State} {i : SlotId} {c : PendingCause} : (setPending i c s).poolFree = s.poolFree :=
  rfl
@[simp] theorem setPending_cache {s : State} {i : SlotId} {c : PendingCause} : (setPending i c s).cache = s.cache :=
  rfl
@[simp] theorem setPending_fetch {s : State} {i : SlotId} {c : PendingCause} : (setPending i c s).fetch = s.fetch :=
  rfl
@[simp] theorem setPending_inrush {s : State} {i : SlotId} {c : PendingCause} : (setPending i c s).inrush = s.inrush :=
  rfl
@[simp] theorem setPending_uplink {s : State} {i : SlotId} {c : PendingCause} : (setPending i c s).uplink = s.uplink :=
  rfl
@[simp] theorem setPending_chain {s : State} {i : SlotId} {c : PendingCause} : (setPending i c s).chain = s.chain :=
  rfl
@[simp] theorem setPending_frameCounters {s : State} {i : SlotId} {c : PendingCause} : (setPending i c s).frameCounters = s.frameCounters :=
  rfl
@[simp] theorem setPending_tables {s : State} {i : SlotId} {c : PendingCause} : (setPending i c s).tables = s.tables :=
  rfl
@[simp] theorem setPending_lastPorts {s : State} {i : SlotId} {c : PendingCause} : (setPending i c s).lastPorts = s.lastPorts :=
  rfl
@[simp] theorem setPending_cursors {s : State} {i : SlotId} {c : PendingCause} : (setPending i c s).cursors = s.cursors :=
  rfl
@[simp] theorem setPending_noticeNumber {s : State} {i : SlotId} {c : PendingCause} : (setPending i c s).noticeNumber = s.noticeNumber :=
  rfl
@[simp] theorem setPending_restartCount {s : State} {i : SlotId} {c : PendingCause} : (setPending i c s).restartCount = s.restartCount :=
  rfl
@[simp] theorem setPending_restart {s : State} {i : SlotId} {c : PendingCause} : (setPending i c s).restart = s.restart :=
  rfl
@[simp] theorem setPending_save {s : State} {i : SlotId} {c : PendingCause} : (setPending i c s).save = s.save := rfl
@[simp] theorem setPending_store {s : State} {i : SlotId} {c : PendingCause} : (setPending i c s).store = s.store :=
  rfl
@[simp] theorem setPending_storeValid {s : State} {i : SlotId} {c : PendingCause} : (setPending i c s).storeValid = s.storeValid :=
  rfl
@[simp] theorem setPending_pending {s : State} {i : SlotId} {c : PendingCause} : (setPending i c s).pending = s.pending :=
  rfl

end Sys2Proof.Machine
end

