-- ==== Sys2Proof/Laws/Requests.lean ====
section
/-! SUPPORT. What the shared handling of a request and the generation of a notice can do. -/

namespace Sys2Proof.Machine

open Sys2Proof

/-! ## Growth of a port -/

theorem grows_refl (x : PortState) : Grows x x := ⟨[], by simp⟩

theorem grows_trans {x y z : PortState} (h : Grows x y) (k : Grows y z) : Grows x z := by
  obtain ⟨l, hl⟩ := h
  obtain ⟨m, hm⟩ := k
  refine ⟨l ++ m, ?_⟩
  rw [hm, hl]
  simp

theorem countPort_noticeDrop_grows {s : State} {p q : Port} {f : Counter → Counter} :
    Grows (s.port q) ((s.countPort p fun c => { c with noticeDrop := f c.noticeDrop }).port q) := by
  cases p <;> cases q <;> exact ⟨[], by simp [State.countPort, State.modPort, State.port]⟩

theorem ownAppend_grows {s : State} {p q : Port} {g : OwnFrame} : Grows (s.port q) ((s.ownAppend p g).port q) := by
  cases p <;> cases q
  · exact ⟨[g], by simp [State.ownAppend, State.modPort, State.port]⟩
  · exact grows_refl _
  · exact grows_refl _
  · exact ⟨[g], by simp [State.ownAppend, State.modPort, State.port]⟩

theorem offerCopy_grows {b : OwnBody} {o : Option SlotId} {s : State} {e : StationId} {q : Port} :
    Grows (s.port q) ((offerCopy b o s e).port q) := by
  unfold offerCopy
  dsimp only
  split_ifs
  · exact ownAppend_grows
  · exact countPort_noticeDrop_grows

/-- A notice only adds frames to the Own Queues, or counts the copies it drops. -/
theorem notify_grows {s : State} {o : Option SlotId} {b : NoticeBody} {q : Port} :
    Grows (s.port q) ((s.notify o b).port q) := by
  unfold State.notify
  dsimp only
  generalize State.recipients _ _ = l
  have h0 : s.port q = ({ s with noticeNumber := s.noticeNumber + 1 } : State).port q := by cases q <;> rfl
  rw [h0]
  generalize ({ s with noticeNumber := s.noticeNumber + 1 } : State) = t
  generalize OwnBody.notice _ _ _ _ = body
  induction l generalizing t with
  | nil => exact grows_refl _
  | cons e l ih => exact grows_trans offerCopy_grows (ih (offerCopy body o t e))

/-- A notice changes nothing but its number and what the ports gain. -/
theorem notify_frame {s : State} {o : Option SlotId} {b : NoticeBody} :
    s.notify o b = { s with
      noticeNumber := s.noticeNumber + 1
      uplink := (s.notify o b).uplink
      chain := (s.notify o b).chain } := by
  rw [State.mk.injEq]
  simp

/-! ## Requests -/

/-- The place of a reply, before the request is judged. -/
def placed (h : Header) (k : MsgKind) (s : State) : State :=
  s.ownAppend h.port (s.ownFrame h.src h.target h.tag (.reply k .ok .none))

@[simp] theorem placed_slot {h : Header} {k : MsgKind} {s : State} {i : SlotId} : (placed h k s).slot i = s.slot i :=
  modPort_slot

@[simp] theorem placed_unit {h : Header} {k : MsgKind} {s : State} {u : UnitId} : (placed h k s).unit u = s.unit u :=
  modPort_unit

/-- A request that is taken is judged by its kind's rule, and its reply enters its place. -/
theorem request_taken {h : Header} {e : StationId} {s : State} (t : Taken h e s) (k : MsgKind)
    (hk : isForeign k = false) (rule : StationId → State → Answer) :
    request h k rule s =
      fillReply h.port ((hear e h.port s).port h.port).own.length k (rule e (placed h k (hear e h.port s))) := by
  obtain ⟨known, room, version, fits, -⟩ := t
  simp [request, known, handle, room, judge, version, hk, fits, placed]

/-- Filling the place of a reply behind which nothing has entered. -/
theorem fillReply_placed {h : Header} {k : MsgKind} {s : State} {st : Status} {d : ReplyData} :
    fillReply h.port (s.port h.port).own.length k ((st, d), placed h k s) = replied h k st d s := by
  have : ∀ (l : List OwnFrame) (f : OwnFrame) (g : OwnFrame → OwnFrame),
      (l ++ [f]).modify l.length g = l ++ [g f] := by
    intro l f g
    induction l with
    | nil => rfl
    | cons a l ih => exact congrArg (a :: ·) ih
  unfold fillReply placed replied State.ownAppend
  rw [modPort_modPort]
  cases h.port <;> simp [State.modPort, State.port, this, replyFrame, State.ownFrame]

/-- A request whose rule only answers leaves its reply and nothing else. -/
theorem request_replied {h : Header} {e : StationId} {s : State} (t : Taken h e s) {k : MsgKind}
    (hk : isForeign k = false) {rule : StationId → State → Answer} {st : Status} {d : ReplyData}
    (hr : rule e (placed h k (hear e h.port s)) = ((st, d), placed h k (hear e h.port s))) :
    request h k rule s = replied h k st d (hear e h.port s) := by
  rw [request_taken t k hk rule, hr, fillReply_placed]

end Sys2Proof.Machine
end

