-- ==== Sys2Proof/Laws/Hear.lean ====
section
/-! SUPPORT. What offering a fetch, hearing a station and placing a reply leave unchanged. -/

namespace Sys2Proof.Machine

open Sys2Proof

/-! ## Fetches -/

/-- A fetch that is offered changes the ports, its record and a counter of its unit. -/
theorem offerFetch_frame {s : State} {r : FetchRecord} : offerFetch s r = { s with
    uplink := (offerFetch s r).uplink
    chain := (offerFetch s r).chain
    fetch := (offerFetch s r).fetch
    units := (offerFetch s r).units } := by
  unfold offerFetch
  split
  · rfl
  · dsimp only
    split_ifs
    · rw [State.mk.injEq]; simp
    · rfl

@[simp] theorem offerFetch_now {s : State} {r : FetchRecord} : (offerFetch s r).now = s.now :=
  by rw [offerFetch_frame]
@[simp] theorem offerFetch_msInUnit {s : State} {r : FetchRecord} : (offerFetch s r).msInUnit = s.msInUnit :=
  by rw [offerFetch_frame]
@[simp] theorem offerFetch_unitTicks {s : State} {r : FetchRecord} : (offerFetch s r).unitTicks = s.unitTicks :=
  by rw [offerFetch_frame]
@[simp] theorem offerFetch_slots {s : State} {r : FetchRecord} : (offerFetch s r).slots = s.slots :=
  by rw [offerFetch_frame]
@[simp] theorem offerFetch_poolFree {s : State} {r : FetchRecord} : (offerFetch s r).poolFree = s.poolFree :=
  by rw [offerFetch_frame]
@[simp] theorem offerFetch_cache {s : State} {r : FetchRecord} : (offerFetch s r).cache = s.cache :=
  by rw [offerFetch_frame]
@[simp] theorem offerFetch_inrush {s : State} {r : FetchRecord} : (offerFetch s r).inrush = s.inrush :=
  by rw [offerFetch_frame]
@[simp] theorem offerFetch_frameCounters {s : State} {r : FetchRecord} : (offerFetch s r).frameCounters = s.frameCounters :=
  by rw [offerFetch_frame]
@[simp] theorem offerFetch_tables {s : State} {r : FetchRecord} : (offerFetch s r).tables = s.tables :=
  by rw [offerFetch_frame]
@[simp] theorem offerFetch_lastPorts {s : State} {r : FetchRecord} : (offerFetch s r).lastPorts = s.lastPorts :=
  by rw [offerFetch_frame]
@[simp] theorem offerFetch_cursors {s : State} {r : FetchRecord} : (offerFetch s r).cursors = s.cursors :=
  by rw [offerFetch_frame]
@[simp] theorem offerFetch_noticeNumber {s : State} {r : FetchRecord} : (offerFetch s r).noticeNumber = s.noticeNumber :=
  by rw [offerFetch_frame]
@[simp] theorem offerFetch_restartCount {s : State} {r : FetchRecord} : (offerFetch s r).restartCount = s.restartCount :=
  by rw [offerFetch_frame]
@[simp] theorem offerFetch_restart {s : State} {r : FetchRecord} : (offerFetch s r).restart = s.restart :=
  by rw [offerFetch_frame]
@[simp] theorem offerFetch_save {s : State} {r : FetchRecord} : (offerFetch s r).save = s.save :=
  by rw [offerFetch_frame]
@[simp] theorem offerFetch_store {s : State} {r : FetchRecord} : (offerFetch s r).store = s.store :=
  by rw [offerFetch_frame]
@[simp] theorem offerFetch_storeValid {s : State} {r : FetchRecord} : (offerFetch s r).storeValid = s.storeValid :=
  by rw [offerFetch_frame]
@[simp] theorem offerFetch_pending {s : State} {r : FetchRecord} : (offerFetch s r).pending = s.pending :=
  by rw [offerFetch_frame]

@[simp] theorem offerHeld_now {s : State} {w : State → FetchRecord → Bool} : (offerHeld w s).now = s.now :=
  foldl_keeps State.now _ (fun b a => by split_ifs <;> simp) _ _
@[simp] theorem offerHeld_msInUnit {s : State} {w : State → FetchRecord → Bool} : (offerHeld w s).msInUnit = s.msInUnit :=
  foldl_keeps State.msInUnit _ (fun b a => by split_ifs <;> simp) _ _
@[simp] theorem offerHeld_unitTicks {s : State} {w : State → FetchRecord → Bool} : (offerHeld w s).unitTicks = s.unitTicks :=
  foldl_keeps State.unitTicks _ (fun b a => by split_ifs <;> simp) _ _
@[simp] theorem offerHeld_slots {s : State} {w : State → FetchRecord → Bool} : (offerHeld w s).slots = s.slots :=
  foldl_keeps State.slots _ (fun b a => by split_ifs <;> simp) _ _
@[simp] theorem offerHeld_poolFree {s : State} {w : State → FetchRecord → Bool} : (offerHeld w s).poolFree = s.poolFree :=
  foldl_keeps State.poolFree _ (fun b a => by split_ifs <;> simp) _ _
@[simp] theorem offerHeld_cache {s : State} {w : State → FetchRecord → Bool} : (offerHeld w s).cache = s.cache :=
  foldl_keeps State.cache _ (fun b a => by split_ifs <;> simp) _ _
@[simp] theorem offerHeld_inrush {s : State} {w : State → FetchRecord → Bool} : (offerHeld w s).inrush = s.inrush :=
  foldl_keeps State.inrush _ (fun b a => by split_ifs <;> simp) _ _
@[simp] theorem offerHeld_frameCounters {s : State} {w : State → FetchRecord → Bool} : (offerHeld w s).frameCounters = s.frameCounters :=
  foldl_keeps State.frameCounters _ (fun b a => by split_ifs <;> simp) _ _
@[simp] theorem offerHeld_tables {s : State} {w : State → FetchRecord → Bool} : (offerHeld w s).tables = s.tables :=
  foldl_keeps State.tables _ (fun b a => by split_ifs <;> simp) _ _
@[simp] theorem offerHeld_lastPorts {s : State} {w : State → FetchRecord → Bool} : (offerHeld w s).lastPorts = s.lastPorts :=
  foldl_keeps State.lastPorts _ (fun b a => by split_ifs <;> simp) _ _
@[simp] theorem offerHeld_cursors {s : State} {w : State → FetchRecord → Bool} : (offerHeld w s).cursors = s.cursors :=
  foldl_keeps State.cursors _ (fun b a => by split_ifs <;> simp) _ _
@[simp] theorem offerHeld_noticeNumber {s : State} {w : State → FetchRecord → Bool} : (offerHeld w s).noticeNumber = s.noticeNumber :=
  foldl_keeps State.noticeNumber _ (fun b a => by split_ifs <;> simp) _ _
@[simp] theorem offerHeld_restartCount {s : State} {w : State → FetchRecord → Bool} : (offerHeld w s).restartCount = s.restartCount :=
  foldl_keeps State.restartCount _ (fun b a => by split_ifs <;> simp) _ _
@[simp] theorem offerHeld_restart {s : State} {w : State → FetchRecord → Bool} : (offerHeld w s).restart = s.restart :=
  foldl_keeps State.restart _ (fun b a => by split_ifs <;> simp) _ _
@[simp] theorem offerHeld_save {s : State} {w : State → FetchRecord → Bool} : (offerHeld w s).save = s.save :=
  foldl_keeps State.save _ (fun b a => by split_ifs <;> simp) _ _
@[simp] theorem offerHeld_store {s : State} {w : State → FetchRecord → Bool} : (offerHeld w s).store = s.store :=
  foldl_keeps State.store _ (fun b a => by split_ifs <;> simp) _ _
@[simp] theorem offerHeld_storeValid {s : State} {w : State → FetchRecord → Bool} : (offerHeld w s).storeValid = s.storeValid :=
  foldl_keeps State.storeValid _ (fun b a => by split_ifs <;> simp) _ _
@[simp] theorem offerHeld_pending {s : State} {w : State → FetchRecord → Bool} : (offerHeld w s).pending = s.pending :=
  foldl_keeps State.pending _ (fun b a => by split_ifs <;> simp) _ _

/-- A fetch that is offered changes nothing of a unit but its counters. -/
theorem offerFetch_unit {s : State} {r : FetchRecord} {u : UnitId} :
    (offerFetch s r).unit u = { s.unit u with counters := ((offerFetch s r).unit u).counters } := by
  unfold offerFetch
  split
  · rfl
  · dsimp only
    split_ifs
    · rw [State.countUnit, modUnit_unit]
      split_ifs
      · simp [State.modRecord, State.ownAppend, State.unit]
      · simp [State.modRecord, State.ownAppend, State.unit]
    · rfl

theorem offerHeld_unit {s : State} {w : State → FetchRecord → Bool} {u : UnitId} :
    (offerHeld w s).unit u = { s.unit u with counters := ((offerHeld w s).unit u).counters } := by
  unfold offerHeld
  generalize List.filter _ _ = l
  induction l generalizing s with
  | nil => rfl
  | cons r l ih =>
    rw [List.foldl_cons, ih]
    split_ifs
    · rw [offerFetch_unit]
    · rfl

/-- A fetch that is offered at most enters a port. -/
theorem offerFetch_port {s : State} {r : FetchRecord} {p : Port} : Grows (s.port p) ((offerFetch s r).port p) := by
  unfold offerFetch
  split
  · exact grows_refl _
  · rename_i e a _
    dsimp only
    split_ifs
    · have h : ∀ (t : State) (n : BitVec 16) (f : FetchRecord → FetchRecord) (u : UnitId)
          (g : UnitCounters → UnitCounters), ((t.modRecord n f).countUnit u g).port p = t.port p := by
        intro t n f u g; cases p <;> rfl
      rw [h]
      exact ownAppend_grows
    · exact grows_refl _

theorem offerHeld_port {s : State} {w : State → FetchRecord → Bool} {p : Port} :
    Grows (s.port p) ((offerHeld w s).port p) := by
  unfold offerHeld
  generalize List.filter _ _ = l
  induction l generalizing s with
  | nil => exact grows_refl _
  | cons r l ih =>
    rw [List.foldl_cons]
    refine grows_trans ?_ ih
    split_ifs
    · exact offerFetch_port
    · exact grows_refl _

/-! ## A station that is heard -/

@[simp] theorem hear_now {e : StationId} {p : Port} {s : State} : (hear e p s).now = s.now :=
  by unfold hear; dsimp only; split_ifs <;> simp
@[simp] theorem hear_msInUnit {e : StationId} {p : Port} {s : State} : (hear e p s).msInUnit = s.msInUnit :=
  by unfold hear; dsimp only; split_ifs <;> simp
@[simp] theorem hear_unitTicks {e : StationId} {p : Port} {s : State} : (hear e p s).unitTicks = s.unitTicks :=
  by unfold hear; dsimp only; split_ifs <;> simp
@[simp] theorem hear_slots {e : StationId} {p : Port} {s : State} : (hear e p s).slots = s.slots :=
  by unfold hear; dsimp only; split_ifs <;> simp
@[simp] theorem hear_poolFree {e : StationId} {p : Port} {s : State} : (hear e p s).poolFree = s.poolFree :=
  by unfold hear; dsimp only; split_ifs <;> simp
@[simp] theorem hear_cache {e : StationId} {p : Port} {s : State} : (hear e p s).cache = s.cache :=
  by unfold hear; dsimp only; split_ifs <;> simp
@[simp] theorem hear_inrush {e : StationId} {p : Port} {s : State} : (hear e p s).inrush = s.inrush :=
  by unfold hear; dsimp only; split_ifs <;> simp
@[simp] theorem hear_frameCounters {e : StationId} {p : Port} {s : State} : (hear e p s).frameCounters = s.frameCounters :=
  by unfold hear; dsimp only; split_ifs <;> simp
@[simp] theorem hear_tables {e : StationId} {p : Port} {s : State} : (hear e p s).tables = s.tables :=
  by unfold hear; dsimp only; split_ifs <;> simp
@[simp] theorem hear_cursors {e : StationId} {p : Port} {s : State} : (hear e p s).cursors = s.cursors :=
  by unfold hear; dsimp only; split_ifs <;> simp
@[simp] theorem hear_noticeNumber {e : StationId} {p : Port} {s : State} : (hear e p s).noticeNumber = s.noticeNumber :=
  by unfold hear; dsimp only; split_ifs <;> simp
@[simp] theorem hear_restartCount {e : StationId} {p : Port} {s : State} : (hear e p s).restartCount = s.restartCount :=
  by unfold hear; dsimp only; split_ifs <;> simp
@[simp] theorem hear_restart {e : StationId} {p : Port} {s : State} : (hear e p s).restart = s.restart :=
  by unfold hear; dsimp only; split_ifs <;> simp
@[simp] theorem hear_save {e : StationId} {p : Port} {s : State} : (hear e p s).save = s.save :=
  by unfold hear; dsimp only; split_ifs <;> simp
@[simp] theorem hear_store {e : StationId} {p : Port} {s : State} : (hear e p s).store = s.store :=
  by unfold hear; dsimp only; split_ifs <;> simp
@[simp] theorem hear_storeValid {e : StationId} {p : Port} {s : State} : (hear e p s).storeValid = s.storeValid :=
  by unfold hear; dsimp only; split_ifs <;> simp
@[simp] theorem hear_pending {e : StationId} {p : Port} {s : State} : (hear e p s).pending = s.pending :=
  by unfold hear; dsimp only; split_ifs <;> simp

@[simp] theorem hear_lastPorts {e : StationId} {p : Port} {s : State} :
    (hear e p s).lastPorts = upd s.lastPorts e fun _ => some p := by
  unfold hear; dsimp only; split_ifs <;> simp

@[simp] theorem hear_slot {e : StationId} {p : Port} {s : State} {i : SlotId} : (hear e p s).slot i = s.slot i :=
  congrArg (·[i]) hear_slots

/-- A station that is heard changes nothing of a unit but its counters. -/
theorem hear_unit {e : StationId} {p : Port} {s : State} {u : UnitId} :
    (hear e p s).unit u = { s.unit u with counters := ((hear e p s).unit u).counters } := by
  unfold hear
  dsimp only
  split_ifs
  · rfl
  · exact offerHeld_unit

/-- The ports of the bridge at most gain fetches when a station is heard. -/
theorem hear_port {e : StationId} {p q : Port} {s : State} : Grows (s.port q) ((hear e p s).port q) := by
  unfold hear
  dsimp only
  have h : s.port q = ({ s with lastPorts := upd s.lastPorts e fun _ => some p } : State).port q := by cases q <;> rfl
  split_ifs
  · rw [h]; exact grows_refl _
  · rw [h]; exact offerHeld_port

/-- A station heard where it was heard last offers nothing. -/
theorem hear_again {e : StationId} {p : Port} {s : State} (h : s.lastPorts[e] = some p) : hear e p s = s := by
  have : upd s.lastPorts e (fun _ => some p) = s.lastPorts := by
    refine Vector.ext fun j hj => ?_
    by_cases k : (e : Nat) = j
    · subst k; simp only [upd, Vector.getElem_set_self]; exact h.symm
    · simp [upd, Vector.getElem_set_ne _ _ k]
  simp only [hear, h, if_true, this]

/-! ## The place of a reply -/

@[simp] theorem placed_now {h : Header} {k : MsgKind} {s : State} : (placed h k s).now = s.now := ownAppend_now
@[simp] theorem placed_msInUnit {h : Header} {k : MsgKind} {s : State} : (placed h k s).msInUnit = s.msInUnit :=
  ownAppend_msInUnit
@[simp] theorem placed_unitTicks {h : Header} {k : MsgKind} {s : State} : (placed h k s).unitTicks = s.unitTicks :=
  ownAppend_unitTicks
@[simp] theorem placed_slots {h : Header} {k : MsgKind} {s : State} : (placed h k s).slots = s.slots :=
  ownAppend_slots
@[simp] theorem placed_poolFree {h : Header} {k : MsgKind} {s : State} : (placed h k s).poolFree = s.poolFree :=
  ownAppend_poolFree
@[simp] theorem placed_cache {h : Header} {k : MsgKind} {s : State} : (placed h k s).cache = s.cache :=
  ownAppend_cache
@[simp] theorem placed_inrush {h : Header} {k : MsgKind} {s : State} : (placed h k s).inrush = s.inrush :=
  ownAppend_inrush
@[simp] theorem placed_frameCounters {h : Header} {k : MsgKind} {s : State} : (placed h k s).frameCounters = s.frameCounters :=
  ownAppend_frameCounters
@[simp] theorem placed_tables {h : Header} {k : MsgKind} {s : State} : (placed h k s).tables = s.tables :=
  ownAppend_tables
@[simp] theorem placed_lastPorts {h : Header} {k : MsgKind} {s : State} : (placed h k s).lastPorts = s.lastPorts :=
  ownAppend_lastPorts
@[simp] theorem placed_cursors {h : Header} {k : MsgKind} {s : State} : (placed h k s).cursors = s.cursors :=
  ownAppend_cursors
@[simp] theorem placed_noticeNumber {h : Header} {k : MsgKind} {s : State} : (placed h k s).noticeNumber = s.noticeNumber :=
  ownAppend_noticeNumber
@[simp] theorem placed_restartCount {h : Header} {k : MsgKind} {s : State} : (placed h k s).restartCount = s.restartCount :=
  ownAppend_restartCount
@[simp] theorem placed_restart {h : Header} {k : MsgKind} {s : State} : (placed h k s).restart = s.restart :=
  ownAppend_restart
@[simp] theorem placed_save {h : Header} {k : MsgKind} {s : State} : (placed h k s).save = s.save := ownAppend_save
@[simp] theorem placed_store {h : Header} {k : MsgKind} {s : State} : (placed h k s).store = s.store :=
  ownAppend_store
@[simp] theorem placed_storeValid {h : Header} {k : MsgKind} {s : State} : (placed h k s).storeValid = s.storeValid :=
  ownAppend_storeValid
@[simp] theorem placed_pending {h : Header} {k : MsgKind} {s : State} : (placed h k s).pending = s.pending :=
  ownAppend_pending
@[simp] theorem placed_fetch {h : Header} {k : MsgKind} {s : State} : (placed h k s).fetch = s.fetch :=
  ownAppend_fetch
@[simp] theorem placed_units {h : Header} {k : MsgKind} {s : State} : (placed h k s).units = s.units :=
  ownAppend_units

@[simp] theorem replied_now {h : Header} {k : MsgKind} {st : Status} {d : ReplyData} {s : State} : (replied h k st d s).now = s.now :=
  ownAppend_now
@[simp] theorem replied_msInUnit {h : Header} {k : MsgKind} {st : Status} {d : ReplyData} {s : State} : (replied h k st d s).msInUnit = s.msInUnit :=
  ownAppend_msInUnit
@[simp] theorem replied_unitTicks {h : Header} {k : MsgKind} {st : Status} {d : ReplyData} {s : State} : (replied h k st d s).unitTicks = s.unitTicks :=
  ownAppend_unitTicks
@[simp] theorem replied_slots {h : Header} {k : MsgKind} {st : Status} {d : ReplyData} {s : State} : (replied h k st d s).slots = s.slots :=
  ownAppend_slots
@[simp] theorem replied_poolFree {h : Header} {k : MsgKind} {st : Status} {d : ReplyData} {s : State} : (replied h k st d s).poolFree = s.poolFree :=
  ownAppend_poolFree
@[simp] theorem replied_cache {h : Header} {k : MsgKind} {st : Status} {d : ReplyData} {s : State} : (replied h k st d s).cache = s.cache :=
  ownAppend_cache
@[simp] theorem replied_inrush {h : Header} {k : MsgKind} {st : Status} {d : ReplyData} {s : State} : (replied h k st d s).inrush = s.inrush :=
  ownAppend_inrush
@[simp] theorem replied_frameCounters {h : Header} {k : MsgKind} {st : Status} {d : ReplyData} {s : State} : (replied h k st d s).frameCounters = s.frameCounters :=
  ownAppend_frameCounters
@[simp] theorem replied_tables {h : Header} {k : MsgKind} {st : Status} {d : ReplyData} {s : State} : (replied h k st d s).tables = s.tables :=
  ownAppend_tables
@[simp] theorem replied_lastPorts {h : Header} {k : MsgKind} {st : Status} {d : ReplyData} {s : State} : (replied h k st d s).lastPorts = s.lastPorts :=
  ownAppend_lastPorts
@[simp] theorem replied_cursors {h : Header} {k : MsgKind} {st : Status} {d : ReplyData} {s : State} : (replied h k st d s).cursors = s.cursors :=
  ownAppend_cursors
@[simp] theorem replied_noticeNumber {h : Header} {k : MsgKind} {st : Status} {d : ReplyData} {s : State} : (replied h k st d s).noticeNumber = s.noticeNumber :=
  ownAppend_noticeNumber
@[simp] theorem replied_restartCount {h : Header} {k : MsgKind} {st : Status} {d : ReplyData} {s : State} : (replied h k st d s).restartCount = s.restartCount :=
  ownAppend_restartCount
@[simp] theorem replied_restart {h : Header} {k : MsgKind} {st : Status} {d : ReplyData} {s : State} : (replied h k st d s).restart = s.restart :=
  ownAppend_restart
@[simp] theorem replied_save {h : Header} {k : MsgKind} {st : Status} {d : ReplyData} {s : State} : (replied h k st d s).save = s.save :=
  ownAppend_save
@[simp] theorem replied_store {h : Header} {k : MsgKind} {st : Status} {d : ReplyData} {s : State} : (replied h k st d s).store = s.store :=
  ownAppend_store
@[simp] theorem replied_storeValid {h : Header} {k : MsgKind} {st : Status} {d : ReplyData} {s : State} : (replied h k st d s).storeValid = s.storeValid :=
  ownAppend_storeValid
@[simp] theorem replied_pending {h : Header} {k : MsgKind} {st : Status} {d : ReplyData} {s : State} : (replied h k st d s).pending = s.pending :=
  ownAppend_pending
@[simp] theorem replied_fetch {h : Header} {k : MsgKind} {st : Status} {d : ReplyData} {s : State} : (replied h k st d s).fetch = s.fetch :=
  ownAppend_fetch
@[simp] theorem replied_units {h : Header} {k : MsgKind} {st : Status} {d : ReplyData} {s : State} : (replied h k st d s).units = s.units :=
  ownAppend_units

@[simp] theorem replied_slot {h : Header} {k : MsgKind} {st : Status} {d : ReplyData} {s : State} {i : SlotId} :
    (replied h k st d s).slot i = s.slot i := congrArg (·[i]) replied_slots

end Sys2Proof.Machine
end

