-- ==== Sys2Proof/Laws/Memory.lean ====
section
/-! SUPPORT. The laws of the sparse collections, of the history ring and of the Overlay Index: a read after
a write, and the canonical form that every write keeps. -/

namespace Sys2Proof.Machine

open Sys2Proof

/-! ## Sparse collections -/

section Sparse

variable {α : Type} [DecidableEq α] {d : α}

theorem sparseFrom_mono {lo hi : Nat} (h : lo ≤ hi) :
    ∀ {m : List (Nat × α)}, sparseFrom d hi m = true → sparseFrom d lo m = true
  | [], _ => rfl
  | (k, v) :: m, w => by
    simp only [sparseFrom, Bool.and_eq_true, decide_eq_true_eq] at w ⊢
    exact ⟨⟨h.trans w.1.1, w.1.2⟩, w.2⟩

/-- A key below the least listed one reads as the default. -/
theorem sparseGet_below {lo a : Nat} (h : a < lo) :
    ∀ {m : List (Nat × α)}, sparseFrom d lo m = true → sparseGet d m a = d
  | [], _ => rfl
  | (k, v) :: m, w => by
    simp only [sparseFrom, Bool.and_eq_true, decide_eq_true_eq] at w
    rw [sparseGet, if_neg (by omega)]
    exact sparseGet_below (by omega) w.2

theorem sparseFrom_set {lo a : Nat} {v : α} (h : lo ≤ a) :
    ∀ {m : List (Nat × α)}, sparseFrom d lo m = true → sparseFrom d lo (sparseSet d m a v) = true
  | [], _ => by
    by_cases e : v = d
    · simp [sparseSet, sparseFrom, e]
    · simp [sparseSet, sparseFrom, e, h]
  | (k, x) :: m, w => by
    have w' := w
    simp only [sparseFrom, Bool.and_eq_true, decide_eq_true_eq] at w
    obtain ⟨⟨wk, wx⟩, wm⟩ := w
    rcases lt_trichotomy a k with l | e | g
    · by_cases e : v = d
      · simpa [sparseSet, l, e] using w'
      · simp only [sparseSet, if_pos l, if_neg e, sparseFrom, Bool.and_eq_true, decide_eq_true_eq]
        exact ⟨⟨h, e⟩, ⟨by omega, wx⟩, wm⟩
    · subst e
      by_cases e : v = d
      · simpa [sparseSet, e] using sparseFrom_mono (by omega) wm
      · simp only [sparseSet, lt_irrefl, if_false, if_true, if_neg e, sparseFrom, Bool.and_eq_true,
          decide_eq_true_eq]
        exact ⟨⟨h, e⟩, wm⟩
    · simp only [sparseSet, if_neg (show ¬ a < k by omega), if_neg (show ¬ a = k by omega), sparseFrom,
        Bool.and_eq_true, decide_eq_true_eq]
      exact ⟨⟨wk, wx⟩, sparseFrom_set (by omega) wm⟩

/-- A write keeps the canonical form. -/
theorem sparseWf_set {m : List (Nat × α)} {a : Nat} {v : α} (w : sparseWf d m = true) :
    sparseWf d (sparseSet d m a v) = true := sparseFrom_set (Nat.zero_le a) w

theorem sparseGet_set_from {lo a : Nat} {v : α} :
    ∀ {m : List (Nat × α)}, sparseFrom d lo m = true → sparseGet d (sparseSet d m a v) a = v
  | [], _ => by
    by_cases e : v = d <;> simp [sparseSet, sparseGet, e]
  | (k, x) :: m, w => by
    simp only [sparseFrom, Bool.and_eq_true, decide_eq_true_eq] at w
    rcases lt_trichotomy a k with l | e | g
    · by_cases e : v = d
      · simp only [sparseSet, if_pos l, if_pos e, sparseGet, if_neg (show ¬ a = k by omega)]
        rw [e]; exact sparseGet_below (by omega) w.2
      · simp [sparseSet, l, e, sparseGet]
    · subst e
      by_cases e : v = d
      · simp only [sparseSet, lt_irrefl, if_false, if_true, if_pos e]
        rw [e]; exact sparseGet_below (by omega) w.2
      · simp [sparseSet, e, sparseGet]
    · simp only [sparseSet, if_neg (show ¬ a < k by omega), if_neg (show ¬ a = k by omega), sparseGet]
      exact sparseGet_set_from w.2

/-- What is written is read. -/
theorem sparseGet_set_same {m : List (Nat × α)} {a : Nat} {v : α} (w : sparseWf d m = true) :
    sparseGet d (sparseSet d m a v) a = v := sparseGet_set_from w

/-- Every other key reads as before. -/
theorem sparseGet_set_ne {a b : Nat} {v : α} (h : b ≠ a) :
    ∀ {m : List (Nat × α)}, sparseGet d (sparseSet d m a v) b = sparseGet d m b
  | [] => by by_cases e : v = d <;> simp [sparseSet, sparseGet, e, h]
  | (k, x) :: m => by
    rcases lt_trichotomy a k with l | e | g
    · by_cases e : v = d <;> simp [sparseSet, sparseGet, l, e, h]
    · subst e
      by_cases e : v = d <;> simp [sparseSet, sparseGet, e, h]
    · simp only [sparseSet, if_neg (show ¬ a < k by omega), if_neg (show ¬ a = k by omega), sparseGet,
        sparseGet_set_ne h]

end Sparse

/-! ## The history ring (R25, R26) -/

theorem storeByte_ringAt_same {h : History} {b : Byte} (w : sparseWf 0 h.ring = true) :
    ringAt (storeByte h b) h.next = b := sparseGet_set_same w

theorem storeByte_ringAt_ne {h : History} {b : Byte} {p : Pos} (n : ringPlace p ≠ ringPlace h.next) :
    ringAt (storeByte h b) p = ringAt h p := sparseGet_set_ne n

theorem storeByte_ring {h : History} {b : Byte} (w : sparseWf 0 h.ring = true) :
    sparseWf 0 (storeByte h b).ring = true := sparseWf_set w

@[simp] theorem storeByte_next {h : History} {b : Byte} : (storeByte h b).next = h.next + 1 := rfl

theorem storeByte_retained {h : History} {b : Byte} (w : h.retained ≤ 131072) :
    (storeByte h b).retained = min 131072 (h.retained + 1) := by
  show (if h.retained < 131072 then _ else _) = _
  split_ifs <;> omega

@[simp] theorem postTo_next {h : History} {t : Time} {d : MarkerDetail} : (postTo h t d).next = h.next := rfl
@[simp] theorem postTo_retained {h : History} {t : Time} {d : MarkerDetail} :
    (postTo h t d).retained = h.retained := rfl
@[simp] theorem postTo_ring {h : History} {t : Time} {d : MarkerDetail} : (postTo h t d).ring = h.ring := rfl

/-- A posting keeps the Marker List within 64 entries. -/
theorem postTo_length {h : History} {t : Time} {d : MarkerDetail} (w : h.markers.length ≤ 64) :
    (postTo h t d).markers.length ≤ 64 := by
  simp only [postTo]
  split_ifs <;> simp <;> omega

/-! ## The Overlay Index (R153, R154) -/

theorem indexGet_set_same {a : Nat} {v : Block} : ∀ {m : List (Nat × Block)}, indexGet (indexSet m a v) a = some v
  | [] => by simp [indexSet, indexGet]
  | (k, x) :: m => by
    rcases lt_trichotomy a k with l | e | g
    · simp [indexSet, l, indexGet]
    · subst e; simp [indexSet, indexGet]
    · simp only [indexSet, if_neg (show ¬ a < k by omega), if_neg (show ¬ a = k by omega), indexGet,
        indexGet_set_same]

theorem indexGet_set_ne {a b : Nat} {v : Block} (h : b ≠ a) :
    ∀ {m : List (Nat × Block)}, indexGet (indexSet m a v) b = indexGet m b
  | [] => by simp [indexSet, indexGet, h]
  | (k, x) :: m => by
    rcases lt_trichotomy a k with l | e | g
    · simp [indexSet, l, indexGet, h]
    · subst e; simp [indexSet, indexGet, h]
    · simp only [indexSet, if_neg (show ¬ a < k by omega), if_neg (show ¬ a = k by omega), indexGet,
        indexGet_set_ne h]

/-- A block put into the index takes one place more exactly where its LBA was not in it, in an index
whose keys rise. -/
theorem indexSet_length {a : Nat} {v : Block} :
    ∀ {m : List (Nat × Block)}, (m.map Prod.fst).Pairwise (· < ·) →
      (indexSet m a v).length = if (indexGet m a).isSome then m.length else m.length + 1
  | [], _ => by simp [indexSet, indexGet]
  | (k, x) :: m, w => by
    rw [List.map_cons, List.pairwise_cons] at w
    rcases lt_trichotomy a k with l | e | g
    · have below : ∀ {n : List (Nat × Block)}, (∀ y ∈ n.map Prod.fst, a < y) → indexGet n a = none := by
        intro n
        induction n with
        | nil => intro _; rfl
        | cons p n ih =>
          intro w
          rw [indexGet, if_neg (by have := w p.1 (by simp); omega)]
          exact ih fun y hy => w y (by simp [hy])
      have : indexGet m a = none := below fun y hy => by have := w.1 y hy; omega
      simp [indexSet, l, indexGet, show ¬ a = k by omega, this]
    · subst e; simp [indexSet, indexGet]
    · have ih := indexSet_length (a := a) (v := v) w.2
      simp only [indexSet, if_neg (show ¬ a < k by omega), if_neg (show ¬ a = k by omega), indexGet,
        List.length_cons, ih]
      split_ifs <;> rfl

end Sys2Proof.Machine
end

