-- ==== Sys2Proof/Laws/Operations.lean ====
section
/-! SUPPORT. What some shared operations can do: the use order of the cache, a break, and a frame from the
bridge's own address. -/

namespace Sys2Proof.Machine

open Sys2Proof

/-! ## The use order of the Block Cache (R160) -/

/-- Touching a line changes the order of the lines and nothing else. -/
theorem touch_frame {u : UnitId} {g : Nat} {s : State} : touch u g s = { s with cache := (touch u g s).cache } := rfl

/-- Touching a line keeps the lines. -/
theorem touch_perm {u : UnitId} {g : Nat} {s : State} : (touch u g s).cache.Perm s.cache := by
  simpa [touch] using (List.perm_append_comm.trans (List.filter_append_perm (isLine u g) s.cache))

/-- Touching lines in turn changes the order of the lines and nothing else. -/
theorem touchAll_frame {u : UnitId} : ∀ {gs : List Nat} {s : State},
    gs.foldl (fun s g => touch u g s) s = { s with cache := (gs.foldl (fun s g => touch u g s) s).cache } ∧
      (gs.foldl (fun s g => touch u g s) s).cache.Perm s.cache
  | [], _ => ⟨rfl, .rfl⟩
  | g :: gs, s => by
    have ⟨h, k⟩ := touchAll_frame (u := u) (gs := gs) (s := touch u g s)
    exact ⟨h, k.trans touch_perm⟩

/-- The lines of a read are put in another order, and nothing else changes. -/
theorem touchLines_frame {u : UnitId} {images : List Nat} {s : State} :
    touchLines u images s = { s with cache := (touchLines u images s).cache } := touchAll_frame.1

theorem touchLines_perm {u : UnitId} {images : List Nat} {s : State} :
    (touchLines u images s).cache.Perm s.cache := touchAll_frame.2

/-! ## A break (R23) -/

/-- A break posts its marker, is counted, and leaves the receiver waiting for a bit time of mark; the
positions of the history, the matcher and the Silence Timer stay. -/
theorem takeBreakIn_slot {i : SlotId} {s : State} : (takeBreakIn i s).slot i = { s.slot i with
    rx := .needMark false
    hist := postTo (s.slot i).hist s.now .breakIn
    counters := { (s.slot i).counters with breaks := bump (s.slot i).counters.breaks } } := by
  simp [takeBreakIn, setRx, State.post, State.count]

theorem takeBreakIn_other {i j : SlotId} {s : State} (h : j ≠ i) : (takeBreakIn i s).slot j = s.slot j := by
  simp [takeBreakIn, setRx, State.post, State.count, modSlot_slot_ne h]

/-! ## Frames (R179) -/

/-- A frame from the bridge's own address moves one counter. -/
@[simp] theorem dropSelf_selfSource {s : State} :
    (dropSelf s).frameCounters.selfSource = bump s.frameCounters.selfSource := rfl

@[simp] theorem dropSelf_wrongType {s : State} :
    (dropSelf s).frameCounters.wrongType = s.frameCounters.wrongType := rfl

@[simp] theorem dropSelf_unknownStation {s : State} :
    (dropSelf s).frameCounters.unknownStation = s.frameCounters.unknownStation := rfl

theorem dropSelf_frame {s : State} : dropSelf s = { s with frameCounters := (dropSelf s).frameCounters } := rfl

end Sys2Proof.Machine
end

