-- ==== Sys2Proof/Laws/Power.lean ====
section
/-! SUPPORT. What the line claims, FEED, the Inrush Scheduler and the Power Sequencer's shared operations
can do to a state. -/

namespace Sys2Proof.Machine

open Sys2Proof

/-! ## What touches one slot only -/

theorem onlySlot_refl {i : SlotId} {s : State} : OnlySlot i s s :=
  ⟨rfl, fun _ _ => rfl, grows_refl _, grows_refl _⟩

theorem onlySlot_trans {i : SlotId} {s t u : State} (h : OnlySlot i s t) (k : OnlySlot i t u) :
    OnlySlot i s u := by
  obtain ⟨h1, h2, h3, h4⟩ := h
  obtain ⟨k1, k2, k3, k4⟩ := k
  refine ⟨?_, fun j hj => (k2 j hj).trans (h2 j hj), grows_trans h3 k3, grows_trans h4 k4⟩
  rw [k1, h1]

theorem onlySlot_modSlot {i : SlotId} {s : State} {f : Slot → Slot} : OnlySlot i s (s.modSlot i f) :=
  ⟨rfl, fun _ hj => modSlot_slot_ne hj, grows_refl _, grows_refl _⟩

theorem onlySlot_count {i : SlotId} {s : State} {f : SlotCounters → SlotCounters} : OnlySlot i s (s.count i f) :=
  onlySlot_modSlot

theorem onlySlot_post {i : SlotId} {s : State} {d : MarkerDetail} : OnlySlot i s (s.post i d) :=
  onlySlot_modSlot

theorem onlySlot_notify {i : SlotId} {s : State} {o : Option SlotId} {b : NoticeBody} :
    OnlySlot i s (s.notify o b) :=
  ⟨notify_frame.trans (by rw [State.mk.injEq]; simp), fun _ _ => notify_slot, notify_grows (q := .uplink),
    notify_grows (q := .chain)⟩

/-! ## A reply behind what its request did -/

@[simp] theorem fillReply_slot {p : Port} {n : Nat} {k : MsgKind} {a : Answer} {i : SlotId} :
    (fillReply p n k a).slot i = a.2.slot i := modPort_slot

@[simp] theorem fillReply_noticeNumber {p : Port} {n : Nat} {k : MsgKind} {a : Answer} :
    (fillReply p n k a).noticeNumber = a.2.noticeNumber := modPort_noticeNumber

/-- A port that has grown behind a place keeps the frames up to that place. -/
theorem grows_filled {x y z : PortState} {f g : OwnFrame} {F : OwnFrame → OwnFrame} (hF : F f = g)
    (hy : y = { x with own := x.own ++ [f] }) (hz : Grows y z) :
    Grows x { z with own := z.own.modify x.own.length F } ∧
      (z.own.modify x.own.length F)[x.own.length]? = some g := by
  obtain ⟨l, hl⟩ := hz
  subst hy
  have e : ∀ (a b : List OwnFrame), (a ++ f :: b).modify a.length F = a ++ g :: b := by
    intro a b
    induction a with
    | nil => simp [hF]
    | cons c a ih => exact congrArg (c :: ·) ih
  constructor
  · refine ⟨g :: l, ?_⟩
    rw [hl]
    simpa using e x.own l
  · rw [hl]
    simp only [List.append_assoc, List.cons_append, List.nil_append]
    rw [e]
    simp

/-- What a rule does to one slot, behind the place of its reply, the request does with its reply in that
place. -/
theorem fillReply_only {h : Header} {k : MsgKind} {st : Status} {d : ReplyData} {i : SlotId} {s t : State}
    (o : OnlySlot i (placed h k s) t) :
    OnlySlot i s (fillReply h.port (s.port h.port).own.length k ((st, d), t)) ∧
      ReplyStands h k st d s (fillReply h.port (s.port h.port).own.length k ((st, d), t)) := by
  obtain ⟨o1, o2, o3, o4⟩ := o
  have place : (placed h k s).port h.port = { s.port h.port with
      own := (s.port h.port).own ++ [s.ownFrame h.src h.target h.tag (.reply k .ok .none)] } := by
    cases hp : h.port <;> simp [placed, State.ownAppend, State.modPort, State.port, hp]
  have grown : Grows ((placed h k s).port h.port) (t.port h.port) := by
    cases hp : h.port
    · exact o3
    · exact o4
  have hf := grows_filled (F := fun f => { f with body := .reply k st d }) (g := replyFrame h k st d s) rfl place
    grown
  refine ⟨⟨?_, ?_, ?_, ?_⟩, ?_⟩
  · have e : t = { s with
        slots := t.slots
        uplink := t.uplink
        chain := t.chain
        noticeNumber := t.noticeNumber } := by
      refine o1.trans ?_
      rw [State.mk.injEq]
      simp
    unfold fillReply
    rw [e]
    cases h.port <;> rfl
  · intro j hj
    rw [fillReply_slot, o2 j hj, placed_slot]
  · unfold fillReply
    cases hp : h.port
    · rw [hp] at hf; exact hf.1
    · have : (placed h k s).uplink = s.uplink := by simp [placed, State.ownAppend, State.modPort, hp]
      exact this ▸ o3
  · unfold fillReply
    cases hp : h.port
    · have : (placed h k s).chain = s.chain := by simp [placed, State.ownAppend, State.modPort, hp]
      exact this ▸ o4
    · rw [hp] at hf; exact hf.1
  · unfold ReplyStands fillReply
    rw [modPort_port_same]
    exact hf.2

/-! ## Claims on PWR_OUT (R79) -/

/-- A change of the claims that leaves RST_OUT's claims alone does nothing more. -/
theorem setClaims_pwr {boot : SlotId → Power → State → State} {f : Lines → Lines} {i : SlotId} {s : State}
    (h : rstAsserted (f (s.slot i).lines) = rstAsserted (s.slot i).lines) :
    setClaims boot f i s = s.modSlot i fun x => { x with lines := f x.lines } := by
  unfold setClaims
  simp only [modSlot_slot_same, h]
  cases rstAsserted (s.slot i).lines <;> rfl

@[simp] theorem setClaims_pwrSeq {boot : SlotId → Power → State → State} {v : Bool} {i : SlotId} {s : State} :
    setClaims boot (fun l => { l with pwrSeq := v }) i s =
      s.modSlot i fun x => { x with lines := { x.lines with pwrSeq := v } } := setClaims_pwr rfl

@[simp] theorem setClaims_pwrLocal {boot : SlotId → Power → State → State} {v : Bool} {i : SlotId} {s : State} :
    setClaims boot (fun l => { l with pwrLocal := v }) i s =
      s.modSlot i fun x => { x with lines := { x.lines with pwrLocal := v } } := setClaims_pwr rfl

/-- The claims of a sequence on both outputs, withdrawn while it holds none on RST_OUT. -/
theorem setClaims_halt {boot : SlotId → Power → State → State} {i : SlotId} {s : State}
    (h : (s.slot i).lines.rstSeq = false) :
    setClaims boot (fun l => { l with pwrSeq := false, rstSeq := false }) i s =
      s.modSlot i fun x => { x with lines := { x.lines with pwrSeq := false, rstSeq := false } } :=
  setClaims_pwr (by simp [rstAsserted, h])

/-! ## The Inrush Queue (R134) -/

/-- A slot that does not wait is not withdrawn. -/
theorem withdraw_absent {i : SlotId} {s : State} (h : i ∉ waitingSlots s) : withdraw i s = s := by
  unfold withdraw
  rw [if_neg]
  simpa [waitingSlots] using h

/-- A slot that waits leaves the queue and is counted. -/
theorem withdraw_waiting {i : SlotId} {s : State} (h : i ∈ waitingSlots s) :
    withdraw i s = s.modInrush fun x => { x with
      queue := x.queue.filter fun w => decide (w.slot ≠ i)
      counters := { x.counters with withdrawals := bump x.counters.withdrawals } } := by
  unfold withdraw
  rw [if_pos]
  simpa [waitingSlots] using h

/-- A withdrawal leaves every slot as it was. -/
@[simp] theorem withdraw_slots {i : SlotId} {s : State} : (withdraw i s).slots = s.slots := by
  unfold withdraw; split_ifs <;> rfl

end Sys2Proof.Machine
end

