-- ==== Sys2Proof/Laws/Wire.lean ====
section
/-! SUPPORT. The bytes of an own frame: where its fields stand, and that a body is never longer than the
1,482 bytes of R191. -/

namespace Sys2Proof.Machine

open Sys2Proof

/-! ## Lengths -/

@[simp] theorem wordBytes_length {n : Nat} {w : BitVec (8 * n)} : (wordBytes n w).length = n := by
  simp [wordBytes]

@[simp] theorem numberBytes_length {n : Fin 9} {v : Nat} : (numberBytes n v).length = n := by
  simp [numberBytes]

/-- The most bytes that fields take: 8 each, and raw bytes as many as they are. -/
def room : List Field → Nat
  | [] => 0
  | .raw bs :: fs => bs.length + room fs
  | _ :: fs => 8 + room fs

@[simp] theorem room_append {gs : List Field} : ∀ {fs : List Field}, room (fs ++ gs) = room fs + room gs
  | [] => by simp [room]
  | .raw _ :: fs => by simp [room, room_append (fs := fs), Nat.add_assoc]
  | .word _ _ :: fs => by simp [room, room_append (fs := fs), Nat.add_assoc]
  | .number _ _ :: fs => by simp [room, room_append (fs := fs), Nat.add_assoc]
  | .optional _ _ :: fs => by simp [room, room_append (fs := fs), Nat.add_assoc]

theorem bytes_le_room : ∀ {fs : List Field}, (fs.flatMap Field.bytes).length ≤ room fs
  | [] => by simp [room]
  | f :: fs => by
    have h := bytes_le_room (fs := fs)
    cases f <;> simp only [List.flatMap_cons, List.length_append, Field.bytes, numberBytes_length, room] <;> omega

/-- Items of at most `n` bytes each. -/
theorem room_flatMap {α : Type} {f : α → List Field} {n : Nat} (h : ∀ x, room (f x) ≤ n) :
    ∀ {xs : List α}, room (xs.flatMap f) ≤ n * xs.length
  | [] => by simp [room]
  | x :: xs => by
    have k := room_flatMap (xs := xs) h
    have := h x
    simp only [List.flatMap_cons, room_append, List.length_cons, Nat.mul_succ]
    omega

theorem room_map {α : Type} {f : α → Field} (h : ∀ x, room [f x] ≤ 8) : ∀ {xs : List α}, room (xs.map f) ≤ 8 * xs.length
  | [] => by simp [room]
  | x :: xs => by
    have k := room_map (xs := xs) h
    have := h x
    rw [List.map_cons, ← List.singleton_append, room_append, List.length_cons]
    omega

/-! ## The parts of a body -/

theorem room_seq {st : SeqState} : room (seqFields st) = 16 := rfl

theorem room_outcome {o : SequenceOutcome} : room (outcomeFields o) = 16 := rfl

theorem room_marker {m : Marker} : room (markerFields m) ≤ 56 := by
  unfold markerFields detailFields
  cases m.detail <;> simp [groups, room, room_outcome, Field.coded]

theorem room_slot {a : Option SlotReport} : room (slotAnswer a) ≤ 120 := by
  cases a <;> simp [slotAnswer, slotFields, groups, room, room_seq, Field.coded, Field.flag]

theorem room_power {o : PowerOutcome} : room (powerFields o) ≤ 24 := by
  cases o <;> simp [powerFields, room, room_seq, Field.coded]

theorem room_entry {e : TableEntry} (h : ∀ next, e = .automaton next → next.length ≤ 32) : room (entryFields e) ≤ 256 := by
  cases e with
  | automaton next =>
    have := h next rfl
    have := room_map (f := Field.number .matcherState) (fun _ => by simp [room]) (xs := next)
    simp only [entryFields]
    omega
  | imageMap e => cases e <;> simp [entryFields, regionFields, room, Field.coded, Field.flag]
  | _ => simp [entryFields, stationFields, slotSetupFields, outFields, consoleSetupFields, profileFields, watchFields,
      unitSetupFields, bridgeSetupFields, groups, room, Field.coded, Field.flag]

theorem room_counters {c : CounterReport}
    (h : ∀ k x, c = .inrush k x → x.queue.length ≤ 8 ∧ x.active.length ≤ 16) : room (countersFields c) ≤ 1120 := by
  cases c with
  | inrush k x =>
    have ⟨h1, h2⟩ := h k x rfl
    have q := room_flatMap (f := waitingFields) (n := 32) (fun _ => by simp [waitingFields, room, Field.coded])
      (xs := x.queue)
    have a := room_flatMap (f := chargeFields) (n := 48) (fun _ => by simp [chargeFields, room, Field.coded])
      (xs := x.active)
    simp only [countersFields, snapshotFields, groups, counterFields, List.flatten_cons, List.flatten_nil, room_append,
      List.map_cons, List.map_nil, room]
    omega
  | _ => simp [countersFields, counterFields, groups, room, Field.flag]

theorem room_notice {slot : Option SlotId} {b : NoticeBody} : room (noticeFields slot b) ≤ 120 := by
  cases b with
  | recoveryDeclined _ _ _ r => cases r <;> simp [noticeFields, declineFields, groups, room, Field.coded]
  | fetchFailed _ _ _ _ _ _ r _ => cases r <;> simp [noticeFields, slotField, groups, room, Field.coded]
  | _ => simp [noticeFields, slotField, endingFields, groups, room, room_outcome, Field.coded, Field.flag]

/-! ## The longest body (R191) -/

/-- The lists that a reply carries are no longer than their rules let them be: an outcome for each slot of a
mask (R15), the bytes of a read (R37), the Line Event Log (R93), a row of the AUTOMATON (R59), and the Inrush
Queue and Active Charge List (R123). -/
def ReplyData.Fits : ReplyData → Prop
  | .slotQuery _ xs => xs.length ≤ 8
  | .slotClear xs => xs.length ≤ 8
  | .power xs => xs.length ≤ 8
  | .read r => r.data.length ≤ 1024
  | .lines r => r.log.length ≤ 16
  | .table (.automaton next) => next.length ≤ 32
  | .counters (.inrush _ x) => x.queue.length ≤ 8 ∧ x.active.length ≤ 16
  | _ => True

theorem room_reply {d : ReplyData} (h : d.Fits) : room (replyFields d) ≤ 1440 := by
  cases d with
  | slotQuery _ xs =>
    have := room_flatMap (f := fun x : SlotId × Option SlotReport => slotAnswer x.2) (fun _ => room_slot) (xs := xs)
    simp only [ReplyData.Fits] at h
    simp only [replyFields, room]
    omega
  | slotClear xs =>
    have := room_map (f := fun x : SlotId × Status => Field.coded .status (.status x.2))
      (fun _ => by simp [room, Field.coded]) (xs := xs)
    simp only [ReplyData.Fits] at h
    simp only [replyFields]
    omega
  | power xs =>
    have := room_flatMap (f := fun x : SlotId × PowerOutcome => powerFields x.2) (fun _ => room_power) (xs := xs)
    simp only [ReplyData.Fits] at h
    simp only [replyFields]
    omega
  | read r =>
    simp only [ReplyData.Fits] at h
    have m : room (readMarkerFields r.marker) ≤ 56 := by
      cases r.marker with
      | none => simp [readMarkerFields, room]
      | some m => exact room_marker
    simp only [replyFields, readFields, groups, List.flatten_cons, List.flatten_nil, room_append, room, Field.flag]
    omega
  | lines r =>
    have := room_flatMap (f := lineEventFields) (n := 32)
      (fun _ => by simp [lineEventFields, room, Field.coded, Field.flag]) (xs := r.log)
    simp only [ReplyData.Fits] at h
    simp only [replyFields, linesFields, classFields, groups, List.flatten_cons, List.flatten_nil, room_append, room,
      Field.coded, Field.flag]
    omega
  | table e =>
    have := room_entry (e := e) (by rintro next rfl; exact h)
    simp only [replyFields]
    omega
  | counters c =>
    have := room_counters (c := c) (by rintro k x rfl; exact h)
    simp only [replyFields]
    omega
  | _ => simp [replyFields, discoverFields, mediaFields, room, Field.coded, Field.flag]

/-- A body is at most 1,482 bytes, whatever the widths that the manual does not give. -/
theorem bodyBytes_length {b : OwnBody} (h : ∀ k st d, b = .reply k st d → d.Fits) :
    (bodyBytes b).length ≤ bodyLimit := by
  refine Nat.le_trans bytes_le_room ?_
  cases b with
  | reply k st d =>
    have := room_reply (h k st d rfl)
    simp only [bodyFields, groups, List.flatten_cons, List.flatten_nil, room_append, room, Field.coded, bodyLimit]
    omega
  | notice number time slot body =>
    have := room_notice (slot := slot) (b := body)
    simp only [bodyFields, groups, List.flatten_cons, List.flatten_nil, room_append, room, Field.coded, bodyLimit]
    omega
  | blockFetch _ _ _ _ _ => simp [bodyFields, room, bodyLimit]

/-! ## Where the fields stand -/

/-- The body of an own frame starts at offset 21. -/
theorem bytes_body {f : OwnFrame} : f.bytes.drop 21 = bodyBytes f.body := by
  unfold OwnFrame.bytes
  rw [List.drop_append_of_le_length (by simp)]
  simp

/-- The version, kind and target of an own frame stand at offsets 14, 15 and 16. -/
theorem bytes_head {f : OwnFrame} :
    (f.bytes.drop versionAt).take 3 = [f.version, kindCode (ownKind f.body), f.target] := by
  have n : (wordBytes 6 f.dst ++ wordBytes 6 f.src ++ wordBytes 2 f.etype).length = versionAt := by
    simp [versionAt]
  unfold OwnFrame.bytes
  simp only [List.append_assoc] at *
  rw [← List.append_assoc, ← List.append_assoc, List.drop_left' (by simpa using n)]
  rfl

/-- A BLOCK_FETCH begins with its id, most significant byte first. -/
theorem blockFetch_id {u : UnitId} {id : BitVec 16} {first count reAsk : Nat} :
    (bodyBytes (.blockFetch u id first count reAsk)).take 2 = wordBytes 2 id := by
  rw [bodyBytes, bodyFields, List.flatMap_cons, List.take_left' (by simp [Field.bytes])]
  simp [Field.bytes, numberBytes]

end Sys2Proof.Machine
end

