-- ==== Sys2Proof/WellFormed.lean ====
section
/-! DEFINITION. Which commands can reach the 8240: the sizes of the message fields and of frames (R191),
and the numbers an event may carry. The manual gives no field its width but those of the header; the
widths that bound the other fields here are this model's. -/

namespace Sys2Proof

/-- A field of 32 bits holds the number. -/
def fits32 (n : Nat) : Bool := decide (n < 2 ^ 32)

/-- A body is at most 1,482 bytes (R191), so a list of items in it is no longer. -/
def inBody (n : Nat) : Bool := decide (n ≤ bodyLimit)

def SlotSetup.fits (e : SlotSetup) : Bool :=
  [e.profile, e.recoveryLimit, e.windowHours, e.startState, e.silenceLimit, e.silenceUnit, e.silenceAction,
    e.pgFilter].all fits32

def ConsoleSetup.fits (e : ConsoleSetup) : Bool := [e.baud, e.dataBits, e.stopBits, e.idleLimit].all fits32

def Profile.fits (e : Profile) : Bool :=
  [e.tapWidth, e.holdWidth, e.resetWidth, e.softGrace, e.offDwell, e.onDeadline, e.gateWait, e.feedCharge,
    e.startCharge, e.feedSettle, e.startSettle, e.holdUp].all fits32

def WatchAction.fits (e : WatchAction) : Bool := fits32 e.returnState && fits32 e.holdOff

def UnitSetup.fits (e : UnitSetup) : Bool :=
  [e.fetchDeadline, e.reAskLimit, e.overlayLimit, e.presentBoots].all fits32

def Region.fits (e : Region) : Bool := fits32 e.first && fits32 e.count && fits32 (e.base.getD 0)

def BridgeSetup.fits (e : BridgeSetup) : Bool :=
  [e.capacity, e.spacing, e.limits.glitch, e.limits.hold, e.limits.stuck, e.ownShare].all fits32

/-- The next states of an AUTOMATON write fit the body and their fields. -/
def rowFits (next : List Nat) : Bool := inBody next.length && next.all fits32

def TableWrite.fits : TableWrite → Bool
  | .station _ => true
  | .slotSetup e => e.fits
  | .consoleSetup e => e.fits
  | .profile e => e.fits
  | .classMap cls => fits32 cls
  | .automaton next => rowFits next
  | .stateAction a => fits32 a
  | .watchAction e => e.fits
  | .unitSetup e => e.fits
  | .imageMap e => (e.map Region.fits).getD true
  | .bridgeSetup e => e.fits
  | .unknownTable => true

/-- The profile index and the quotes of a POWER request fit the body. -/
def powerFits (profile : Option Nat) (quotes : List Quote) : Bool :=
  fits32 (profile.getD 0) && inBody quotes.length

def CounterGroup.fits : CounterGroup → Bool
  | .port n => fits32 n
  | .slot n => fits32 n
  | .unit n => fits32 n
  | .frame => true
  | .fetch => true
  | .inrush => true
  | .unknown => true

def ControlForm.fits : ControlForm → Bool
  | .counters g _ => g.fits
  | .save => true
  | .restart _ => true
  | .unknown => true

def Message.fits : Message → Bool
  | .consoleWrite _ _ bytes => inBody bytes.length
  | .power _ profile quotes => powerFits profile quotes
  | .blockAbsent _ _ count _ => fits32 count
  | .tableWrite w e => fits32 w.index && e.fits
  | .tableRead _ n => fits32 n
  | .bridgeControl form => form.fits
  | .discover => true
  | .slotQuery => true
  | .slotClear => true
  | .consoleRead _ _ => true
  | .historyClear => true
  | .consoleHold _ => true
  | .consoleBreak _ _ => true
  | .linesQuery => true
  | .mediaBind _ => true
  | .mediaUnbind => true
  | .mediaQuery => true
  | .blockData _ _ _ _ => true
  | .foreign _ => true

/-- What a frame carries stands in it after 14 bytes of addresses and type and before 4 of FCS; a
bridge message needs the 7 bytes of its header there (R191). -/
def Frame.fits (f : Frame) : Bool :=
  match f.payload with
  | .bridge _ _ _ _ _ m => decide (25 ≤ f.length) && m.fits
  | .other bs => decide (bs.length + 18 ≤ f.length)

/-- A message came in a frame that its port handed on (R177), and a body longer than 1,482 bytes is that of
no kind (R191). -/
def Header.fits (h : Header) : Bool :=
  decide (64 ≤ h.frameLength) && decide (h.frameLength ≤ 1522) && (!h.bodyExact || inBody h.bodyLength.toNat)

/-- The header of a message without body fields: the body is exact when its length is 0 (R191). -/
def Header.fitsBare (h : Header) : Bool := h.fits && (h.bodyExact == decide (h.bodyLength = 0))

/-- The command can reach the part. -/
def Instr.wellFormed : Instr → Bool
  | .holdOffExpiry _ a => decide (1 ≤ a) && decide (a ≤ 31)
  | .storageRead _ first count => fits32 first && fits32 count
  | .storageWrite _ first count => fits32 first && fits32 count
  | .fetchDeadline id => decide (id ≠ 0)
  | .frameReceived _ f => f.fits
  | .consoleWrite h _ _ bytes => h.fits && inBody bytes.length
  | .powerOn h p q => h.fits && powerFits p q
  | .powerOffSoft h p q => h.fits && powerFits p q
  | .powerOffHard h p q => h.fits && powerFits p q
  | .powerReset h p q => h.fits && powerFits p q
  | .powerCycleSoft h p q => h.fits && powerFits p q
  | .powerCycleFeed h p q => h.fits && powerFits p q
  | .powerFeedOff h p q => h.fits && powerFits p q
  | .powerFeedOn h p q => h.fits && powerFits p q
  | .powerAbort h p q => h.fits && powerFits p q
  | .blockAbsent h _ _ count _ => h.fits && fits32 count
  | .tableWriteStation h w _ => h.fits && fits32 w.index
  | .tableWriteSlotSetup h w e => h.fits && fits32 w.index && e.fits
  | .tableWriteConsoleSetup h w e => h.fits && fits32 w.index && e.fits
  | .tableWriteProfile h w e => h.fits && fits32 w.index && e.fits
  | .tableWriteClassMap h w cls => h.fits && fits32 w.index && fits32 cls
  | .tableWriteAutomaton h w next => h.fits && fits32 w.index && rowFits next
  | .tableWriteStateAction h w a => h.fits && fits32 w.index && fits32 a
  | .tableWriteWatchAction h w e => h.fits && fits32 w.index && e.fits
  | .tableWriteUnitSetup h w e => h.fits && fits32 w.index && e.fits
  | .tableWriteImageMap h w e => h.fits && fits32 w.index && (e.map Region.fits).getD true
  | .tableWriteBridgeSetup h w e => h.fits && fits32 w.index && e.fits
  | .tableRead h _ n => h.fits && fits32 n
  | .bridgeControlCounters h g _ => h.fits && g.fits
  | .powerUp => true
  | .bridgeRestart => true
  | .consoleCharacterReceived _ _ _ _ => true
  | .rxReturnToMark _ => true
  | .breakDetected _ => true
  | .silenceTick _ => true
  | .silenceTerminal _ => true
  | .recoveryRequestTaken _ => true
  | .recoveryWindowClose _ => true
  | .txByteFinished _ => true
  | .breakItemDeadline _ => true
  | .breakItemFinished _ => true
  | .holderIdleExpiry _ => true
  | .pgRawChange _ _ => true
  | .pgFilterExpiry _ => true
  | .buttonPressEdge _ _ => true
  | .buttonReleaseEdge _ _ => true
  | .glitchDeadline _ _ => true
  | .stuckDeadline _ _ => true
  | .lastAssertAgeOut _ => true
  | .pressDeadline _ => true
  | .dwellDeadline _ => true
  | .expectHighDeadline _ => true
  | .expectLowDeadline _ => true
  | .gateWaitDeadline _ => true
  | .inrushEvaluation => true
  | .inrushUnitUpkeep => true
  | .coldMarkSet _ => true
  | .storageCheck _ => true
  | .storageCapacity _ => true
  | .storageWriteDataBlock _ _ => true
  | .serverAbort _ => true
  | .linkUp _ => true
  | .linkDown _ => true
  | .messageUnknownKind h _ => h.fits
  | .egressChoice _ => true
  | .frameSent _ => true
  | .discover h _ => h.fitsBare
  | .slotQuery h => h.fitsBare
  | .slotClear h => h.fitsBare
  | .consoleReadAbsolute h _ _ => h.fits
  | .consoleReadCursor h _ => h.fits
  | .consoleReadMarker h _ _ _ => h.fits
  | .historyClear h => h.fitsBare
  | .consoleHoldTake h => h.fits
  | .consoleHoldForce h => h.fits
  | .consoleHoldRelease h => h.fits
  | .consoleHoldRenew h => h.fits
  | .consoleBreak h _ _ => h.fits
  | .linesQuery h => h.fitsBare
  | .mediaBind h _ => h.fits
  | .mediaUnbind h => h.fitsBare
  | .mediaQuery h => h.fitsBare
  | .blockData h _ _ _ _ => h.fits
  | .bridgeControlSave h => h.fits
  | .saveComplete => true
  | .bridgeControlRestart h _ => h.fits
  | .startBitDetected _ => true
  | .rxLineAtMark _ => true

end Sys2Proof
end

