-- ==== Sys2Proof/Tests/Slice0.lean ====
section
/-! SUPPORT. Tests of the model, and for each statement a state and operands that meet its hypotheses. -/

namespace Sys2Proof.Tests

open Sys2Proof Sys2Proof.Machine

/-! ## A small state -/

/-- The address of the station of entry 1. -/
def desk : Addr := 0x0200000000AA

def allRights : Rights :=
  { read := true, type := true, force := true, power := true, media := true, notice := true, admin := true }

/-- The bridge after power-up with UPLINK up, an address of its own, and one station in entry 1 with every
right on every slot, last heard on UPLINK. -/
def demo : State :=
  { State.reset with
    tables := { factoryTables with
      bridge := { address := 0x020000008240 }
      stations := upd (Vector.replicate 32 {}) 1 fun _ =>
        { valid := true, address := .mac desk, rights := allRights, mask := 0xFF } }
    uplink := { up := true }
    lastPorts := upd (Vector.replicate 32 none) 1 fun _ => some .uplink }

/-- A request of that station. -/
def hd (target : Byte) : Header := { port := .uplink, src := desk, target, tag := 7 }

/-- `demo` with slot 1 changed. -/
def slot1 (f : Slot → Slot) : State := demo.modSlot 1 f

/-- `demo` with the setup of slot 1 changed. -/
def setup1 (f : SlotSetup → SlotSetup) (s : State) : State :=
  { s with tables := { s.tables with slotSetup := upd s.tables.slotSetup 1 f } }

/-- `demo` with profile 0 changed. -/
def profile0 (f : Profile → Profile) (s : State) : State :=
  { s with tables := { s.tables with profiles := upd s.tables.profiles 0 f } }

/-- The next state of a command, or `s`. -/
def after (c : Instr) (s : State) : State :=
  match exec c s with
  | .next t => t
  | .fault _ => s
  | .refused _ => s

/-- The server of slot 1 is running. -/
def running (s : State) : State :=
  s.modSlot 1 fun x => { x with
    record := { x.record with observed := .on, bootCount := 41 }
    pg := { x.pg with pin := true, filtered := true } }

/-- Slot 1 at bridge time 100 with the lines as given. -/
def lines1 (f : Slot → Slot) : State := { slot1 f with now := 100 }

/-- A press at 50 whose glitch deadline is 100 and whose stuck deadline is 100 too. -/
def press : Press := { time := 50, limits := {}, glitchDue := 100, stuckDue := 100 }

/-- The record of a sequence in some step, due at 100. -/
def record (a : Action) (current : Step) (steps : List Step) : SeqRecord :=
  { action := a, origin := .operator, profile := 0, steps, current, deadline := some 100, accepted := 0 }

/-- Slot 1 in a state of its sequencer, at bridge time 100. -/
def inStep (st : SeqState) (r : SeqRecord) (obs : Power) : State :=
  { slot1 (fun x => { x with record := { x.record with observed := obs }
                             seq := { state := st, record := some r } }) with now := 100 }

/-! ## Hypotheses of the statements: the queue, the invariants, requests -/

theorem test_taken : Taken (hd 1) 1 demo := by
  unfold Taken; decide

theorem witness_IdleTakesWorkOrTicks :
    demo.pending = [] ∧ (∀ c, ¬ CalledFor { demo with msInUnit := 999 } c) ∧
      CalledFor { demo with restart := .due } .bridgeRestart ∧
      ComesDue { demo with now := 100, save := some { copy := demo.tables, taken := 0, due := 100 } }
        .saveComplete := by
  refine ⟨rfl, fun c h => ?_, rfl, ⟨_, rfl, by decide⟩⟩
  unfold CalledFor at h
  split at h
  · cases h
  · next i => exact h (by revert i; decide)
  · next p => revert h; cases p <;> decide
  · exact h

/-- Unit 0 presents to the server of slot 1: LBAs 0 to 7 REMOTE, 8 to 15 OVERLAY, 16 to 143 LOCAL, 144 and
145 ABSENT, and LBA 9 written. -/
def media : State :=
  { demo.modUnit 0 (fun _ => {
      state := .presenting, slot := some 1, station := some (1, desk), prime := .done
      overlay := [(9, zeroBlock)] }) with
    poolFree := 4095
    tables := { demo.tables with
      unitSetup := upd demo.tables.unitSetup 0 fun x => { x with width := .none }
      maps := upd (upd (upd (upd demo.tables.maps
        0 fun _ => some { first := 0, count := 8, kind := .remote, base := some 0 })
        1 fun _ => some { first := 8, count := 8, kind := .overlay, base := some 8 })
        2 fun _ => some { first := 16, count := 128, kind := .local_ })
        3 fun _ => some { first := 144, count := 2, kind := .absent } } }

theorem witness_BuffersStayBounded : BuffersBounded demo ∧ ∃ t, step demo = .next t := by
  refine ⟨?_, _, rfl⟩
  unfold BuffersBounded SlotBounded; decide

theorem witness_QueuesStayBounded : QueuesBounded demo ∧ ∃ t, step demo = .next t := by
  refine ⟨fun p => ?_, _, rfl⟩
  cases p <;> (unfold PortBounded; decide)

theorem witness_AdminAlwaysHeld : AdminHeld demo ∧ ∃ t, step demo = .next t :=
  ⟨⟨by decide, by simp [demo, State.reset], by simp [demo, State.reset]⟩, _, rfl⟩

theorem witness_SequencersStaySound : SequencersSound demo ∧ ∃ t, step demo = .next t := by
  refine ⟨?_, _, rfl⟩
  unfold SequencersSound; decide

theorem media_sound : BindingsSound media := by
  unfold BindingsSound UnitSound; decide

theorem witness_BindingsStaySound :
    BindingsSound media ∧ ∃ t, step (media.push (.storageCheck 1)) = .next t :=
  ⟨media_sound, _, rfl⟩

theorem witness_PoolConserved : PoolSound media ∧ ∃ t, step media = .next t := by
  refine ⟨⟨media_sound, ?_, by decide, by decide⟩, _, rfl⟩
  intro u
  refine ⟨by revert u; decide, ?_⟩
  match u with
  | 0 => rfl
  | 1 => trivial
  | 2 => trivial
  | 3 => trivial

theorem witness_CanonicalKept : Canonical demo ∧ ∃ t, step demo = .next t :=
  ⟨⟨by decide, by simp [demo, State.reset], by simp [demo, State.reset], by decide⟩, _, rfl⟩

/-- `demo` where the bridge has the address of the station of entry 1. -/
def asBridge : State :=
  { demo with tables := { demo.tables with bridge := { demo.tables.bridge with address := desk } } }

theorem witness_QueriesOnlyReply :
    Taken (hd 3) 1 demo ∧ Taken (hd 0) 1 demo ∧ finOf 8 (hd 3).target.toNat = some 3 ∧
      demo.holdsOn 1 (·.read) 3 = true ∧ finOf 4 (hd 3).target.toNat = some 3 ∧
      mayQueryMedia (demo.station 1) = true ∧ (demo.station 1).rights.admin = true ∧
      entryAt (hear 1 .uplink demo) .profile 7 = some (.profile {}) ∧
      entryAt (hear 1 .uplink demo) .automaton 511 = some (.automaton factoryRow) ∧ (hd 3).target ≠ 0 ∧
      (hd 0).target = 0 ∧ (hd 0).src ≠ demo.tables.bridge.address ∧
      Taken (hd 0) 1 asBridge ∧ (hd 0).src = asBridge.tables.bridge.address := by
  unfold Taken; decide

theorem witness_SlotClearClears : Taken (hd 0x81) 1 demo ∧ (hd 0x81).target ≠ 0 := by
  unfold Taken; decide

/-! ## Console -/

/-- A setup of 7 data bits and even parity. -/
def seven : ConsoleSetup := { dataBits := 7, parity := .even }

theorem witness_ReceiverMoves :
    ((slot1 fun x => { x with rx := .waiting }).slot 1).rx = .waiting ∧
      (demo.slot 1).rx = .needMark false ∧
      ((slot1 fun x => { x with rx := .needMark true }).slot 1).rx = .needMark true ∧
      ((slot1 fun x => { x with rx := .reception seven true }).slot 1).rx = .reception seven true ∧
      let s := slot1 fun x => { x with
        rx := .reception seven false
        hist := { x.hist with retained := 131072, ring := [(131071, 1)] } }
      (s.slot 1).hist.retained ≤ 131072 ∧ sparseWf 0 (s.slot 1).hist.ring = true ∧
        (s.slot 1).rx = .reception seven false ∧
        allSpace seven (byteOf seven 0x80) true false = false ∧
        allSpace seven (byteOf seven 0x01) false false = false := by
  decide

/-- Slot 1 with positions 6 to 9 retained, one marker, and the cursor of entry 1 at `c`. -/
def read1 (c : Option Pos) : State :=
  { slot1 (fun x => { x with hist := { x.hist with
      next := 10, retained := 4
      markers := [{ number := 3, position := 8, time := 0, detail := .breakIn }] } }) with
    cursors := upd demo.cursors 1 fun v => upd v 1 fun _ => c }

/-- The distances that the clauses of a read test, at the edges of their ranges. -/
theorem read1_distances :
    (((10 : Pos) - 10).toNat ≤ 4 ∧ ((10 : Pos) - 6).toNat ≤ 4) ∧
      (4 < ((10 : Pos) - 5).toNat ∧ ((10 : Pos) - 5).toNat ≤ 2 ^ 31) ∧
      (4 < ((10 : Pos) - 0x8000000A).toNat ∧ ((10 : Pos) - 0x8000000A).toNat ≤ 2 ^ 31) ∧
      2 ^ 31 < ((10 : Pos) - 0x80000009).toNat ∧ 2 ^ 31 < ((10 : Pos) - 11).toNat ∧
      (((6 : Pos) - 6).toNat ≤ ((10 : Pos) - 6).toNat ∧ ((10 : Pos) - 6).toNat ≤ ((10 : Pos) - 6).toNat) ∧
      ((10 : Pos) - 6).toNat < ((5 : Pos) - 6).toNat ∧ ((10 : Pos) - 6).toNat < ((11 : Pos) - 6).toNat := by
  simp

theorem witness_ReadsAnswered :
    Taken (hd 1) 1 (read1 none) ∧ finOf 8 (hd 1).target.toNat = some 1 ∧
      (read1 none).holdsOn 1 (·.read) 1 = true ∧
      let x := ((read1 none).slot 1).hist
      x.next = 10 ∧ x.retained = 4 ∧ oldest x = 6 ∧ (read1 none).cursor 1 1 = none ∧
      (∀ c : Pos, (read1 (some c)).cursor 1 1 = some c) ∧
      (chooseMarker x (.byNumber 3)).isSome = true ∧ chooseMarker x (.latest .boot) = none ∧
      chooseMarker x (.byNumber 4) = none := by
  refine ⟨by unfold Taken; decide, by decide, by decide, by decide, by decide, by decide, by decide,
    fun _ => rfl, by decide, by decide, by decide⟩

/-- `demo` where the station of entry 1 has no right but NOTICE. -/
def noRights : State :=
  { demo with tables := { demo.tables with
      stations := upd demo.tables.stations 1 fun e => { e with rights := { notice := true } } } }

theorem witness_HistoryCleared :
    Taken (hd 7) 1 demo ∧ Taken (hd 7) 1 noRights ∧ (7 : SlotId).val = (hd 7).target.toNat ∧
      Taken (hd 8) 1 demo ∧ 8 ≤ (hd 8).target.toNat ∧
      demo.holdsOn 1 (·.admin) 7 = true ∧ noRights.holdsOn 1 (·.admin) 7 = false := by
  unfold Taken; decide

/-- Chapter 4's tables for "panic" on slot 1, whose receiver takes a character. Its matcher is in state 4,
changed by `f`. -/
def walking (f : Matcher → Matcher) : State :=
  let s := setup1 (fun c => { c with matchEnable := true }) (slot1 fun x => { x with
    rx := .reception {} false, hist := { x.hist with next := 20006 }, matcher := f { state := 4 } })
  { s with tables := { s.tables with
      classMap := [(0x63, 5)], automaton := [(4, 0 :: 1 :: 0 :: 0 :: 0 :: 5 :: List.replicate 26 0)]
      stateAction := [(5, 1)], watch := [(1, { mark := true, holdOff := 300 })] } }

/-- The watch action of the state that a byte brings the matcher of slot 1 to. -/
def nextAction (s : State) (b : Byte) : Nat :=
  sparseGet factoryIndex s.tables.stateAction
    ((sparseGet factoryRow s.tables.automaton (s.slot 1).matcher.state).getD
      (sparseGet factoryIndex s.tables.classMap b.toNat) 0)

theorem witness_MatcherWalks :
    Completes 1 (.consoleCharacterReceived 1 0x63 true true) 0x63 (walking id) ∧
      Completes 1 (.rxReturnToMark 1) 0 (walking id) ∧
      (let s := setup1 (fun c => { c with matchEnable := false }) (walking id)
       Completes 1 (.rxReturnToMark 1) 0 s ∧ (s.setup 1).matchEnable = false) ∧
      ((walking id).setup 1).matchEnable = true ∧
      nextAction (walking fun m => { m with state := 3 }) 0x63 = 0 ∧ nextAction (walking id) 0x63 = 1 ∧
      sparseGet none ((walking fun m => { m with holdOffs := [(1, some 100)] }).slot 1).matcher.holdOffs 1 ≠ none ∧
      sparseGet none ((walking id).slot 1).matcher.holdOffs 1 = none := by
  refine ⟨.inl ⟨{}, 0x63, true, true, rfl, by decide, rfl, rfl⟩, .inr ⟨{}, false, rfl, rfl, rfl⟩,
    ⟨.inr ⟨{}, false, rfl, rfl, rfl⟩, by decide⟩, by decide, by decide, by decide, by decide, by decide⟩

/-! ## Watch patterns, silence, recovery -/

/-- Slot 1 is ON, its Silence Timer enabled with limit 10 and at `n`, and bridge time at `t`. -/
def silent (n : Nat) (t : Time) : State :=
  { setup1 (fun c => { c with silenceEnable := true }) ((running demo).modSlot 1 fun x => { x with
      silence := { count := n }
      matcher := { x.matcher with holdOffs := [(31, some 100)] }
      recovery := { x.recovery with window := some { start := 0, count := 1, closes := 100 } } }) with
    now := t }

theorem witness_WatchTimesPass :
    (Counts 1 (silent 8 0) ∧ ((silent 8 0).slot 1).silence.count + 1 < ((silent 8 0).setup 1).silenceLimit) ∧
      (Counts 1 (silent 9 0) ∧
        ((silent 9 0).setup 1).silenceLimit ≤ ((silent 9 0).slot 1).silence.count + 1) ∧
      sparseGet none ((silent 9 100).slot 1).matcher.holdOffs 31 = some (100 : Time) ∧
      ((silent 9 100).slot 1).recovery.window = some { start := 0, count := 1, closes := 100 } ∧
      reached 100 (silent 9 100).now = true ∧ reached 100 (silent 9 99).now = false := by
  unfold Counts; decide

/-- A recovery request of watch action 3. -/
def wanted (a : RecoveryAction) : RecoveryRequest := { action := a, source := .pattern, watch := 3, quote := 41 }

/-- Slot 1 is ON and armed, with a waiting request and a window that counts `n`. -/
def armed (a : RecoveryAction) (n : Nat) : State :=
  setup1 (fun c => { c with armed := true }) ((running demo).modSlot 1 fun x => { x with
    recovery := { window := some { start := 0, count := n, closes := 100 }, waiting := [wanted a] } })

theorem witness_RecoveryDecided :
    let s := armed .reset 1
    ((s.slot 1).recovery.waiting = wanted .reset :: [] ∧ (s.setup 1).armed = true ∧
      (s.setup 1).powerControl = true ∧ seqBusy (s.slot 1).seq.state = false ∧ s.localPassing 1 = false ∧
      windowCount (s.slot 1).recovery.window < (s.setup 1).recoveryLimit ∧
      (wanted .reset).quote = (s.slot 1).record.bootCount ∧
      linesEnabled (recoveryStep .reset) (s.setup 1) (s.profile (s.setup 1).profile) = true ∧
      (s.slot 1).record.observed = .on) ∧
    let t := armed .cycleFeed 2
    (t.slot 1).recovery.waiting = wanted .cycleFeed :: [] ∧
      (t.setup 1).recoveryLimit ≤ windowCount (t.slot 1).recovery.window := by
  decide

/-- Each test of R71 fails with all before it passing. -/
theorem witness_RecoveryDecided_declines :
    let ok := fun (s : State) (n : Nat) =>
      [(s.setup 1).armed && (s.setup 1).powerControl, !seqBusy (s.slot 1).seq.state, !s.localPassing 1,
        decide (windowCount (s.slot 1).recovery.window < (s.setup 1).recoveryLimit),
        decide ((wanted .reset).quote = (s.slot 1).record.bootCount)].take n |>.all id
    let change := fun (f : Slot → Slot) => (armed .reset 1).modSlot 1 f
    ((setup1 (fun c => { c with powerControl := false }) (armed .reset 1)).setup 1).powerControl = false ∧
      (let s := change fun x => { x with seq := { x.seq with state := .stepping } }
       ok s 1 = true ∧ seqBusy (s.slot 1).seq.state = true) ∧
      (let s := change fun x => { x with rstBtn := { x.rstBtn with state := .passing press } }
       ok s 2 = true ∧ s.localPassing 1 = true) ∧
      (ok (armed .reset 2) 3 = true ∧
        ((armed .reset 2).setup 1).recoveryLimit ≤ windowCount ((armed .reset 2).slot 1).recovery.window) ∧
      (let s := change fun x => { x with record := { x.record with bootCount := 42 } }
       ok s 4 = true ∧ (wanted .reset).quote ≠ (s.slot 1).record.bootCount) ∧
      let s := change fun x => { x with record := { x.record with observed := .standby } }
      ok s 5 = true ∧ (wanted .reset).action = .reset ∧ (s.slot 1).record.observed ≠ .on := by
  decide

/-! ## Console input -/

def input1 (q : InputQueue) : State := { slot1 (fun x => { x with input := q }) with now := 100 }

theorem witness_TransmitterMoves :
    ((input1 { tx := .byte 65 9600 [] }).slot 1).input.tx = .byte 65 9600 [] ∧
      ((input1 { tx := .breakMark 9600 }).slot 1).input.tx = .breakMark 9600 ∧
      ((input1 { tx := .breakSpace 100 }).slot 1).input.tx = .breakSpace 100 ∧
      reached 100 (input1 { tx := .breakSpace 100 }).now = true := by
  decide

/-- The hypotheses of a message that types on slot 1 hold whatever stands in its Input Queue. -/
theorem types_on (q : InputQueue) : Types (hd 1) 1 1 (input1 q) := by
  unfold Types Taken
  exact ⟨⟨rfl, rfl, rfl, rfl, rfl⟩, rfl, by show demo.holdsOn 1 (·.type) 1 = true; decide⟩

theorem witness_HoldDecided :
    Types (hd 1) 1 1 (input1 {}) ∧ ((input1 {}).slot 1).input.holder = none ∧
      ((input1 {}).station 1).rights.force = true ∧
      Types (hd 1) 1 1 (input1 { holder := some 1 }) ∧
      ((input1 { holder := some 1 }).slot 1).input.holder = some 1 ∧
      Types (hd 1) 1 1 (input1 { holder := some 31 }) ∧
      ((input1 { holder := some 31 }).slot 1).input.holder ≠ some 1 :=
  ⟨types_on _, by decide, by decide, types_on _, by decide, types_on _, by decide⟩

theorem witness_HoldEnded :
    Types (hd 1) 1 1 (input1 { holder := some 1 }) ∧
      ((input1 { holder := some 1 }).slot 1).input.holder = some 1 ∧
      ((input1 { holder := some 2, idleDue := some 100 }).slot 1).input.holder ≠ none ∧
      ((input1 { holder := some 2, idleDue := some 100 }).slot 1).input.idleDue = some 100 ∧
      reached 100 (input1 { holder := some 2, idleDue := some 100 }).now = true :=
  ⟨types_on _, by decide, by decide, by decide, by decide⟩

/-- Entry 1 holds the console of slot 1 with input count 5 and `n` items queued. -/
def queued (n : Nat) : InputQueue := { holder := some 1, count := 5, items := List.replicate n (.byte 65) }

theorem queued_length (n : Nat) : ((input1 (queued n)).slot 1).input.items.length = n := by
  have : (input1 (queued n)).slot 1 = { demo.slot 1 with input := queued n } := rfl
  rw [this]
  exact List.length_replicate

theorem witness_InputQueued :
    Taken (hd 1) 1 (input1 (queued 255)) ∧ finOf 8 (hd 1).target.toNat = some 1 ∧
      (input1 (queued 255)).holdsOn 1 (·.type) 1 = true ∧
      ((input1 (queued 255)).slot 1).input.holder = some 1 ∧ ((input1 (queued 255)).slot 1).input.count = 5 ∧
      (1 ≤ (512 : BitVec 16).toNat ∧ (512 : BitVec 16).toNat ≤ 512 ∧
        (512 : BitVec 16).toNat = (List.replicate 512 (65 : Byte)).length) ∧
      (1 ≤ (1 : BitVec 16).toNat ∧ (1 : BitVec 16).toNat = [(65 : Byte)].length) ∧
      512 < (513 : BitVec 16).toNat ∧ (2 : BitVec 16).toNat ≠ [(65 : Byte)].length ∧
      ((input1 {}).slot 1).input.holder ≠ some 1 ∧ Taken (hd 1) 1 noRights ∧
      noRights.holdsOn 1 (·.type) 1 = false ∧
      ((input1 (queued 255)).slot 1).input.items.length < 256 ∧
      256 ≤ ((input1 (queued 256)).slot 1).input.items.length := by
  refine ⟨(types_on _).1, rfl, (types_on _).2.2, rfl, rfl, ⟨by decide, by decide, ?_⟩, by decide, by decide,
    by decide, by decide, by unfold Taken; decide, by decide, ?_, ?_⟩
  · rw [List.length_replicate]; rfl
  · rw [queued_length]; decide
  · rw [queued_length]

/-! ## Front-panel lines -/

/-- The filter deadline of slot 1 is reached with the line active, or not active and the slot ON. -/
def rising (q : Sequencer) : State := lines1 fun x => { x with pg := { pin := true, due := some 100 }, seq := q }

def falling (q : Sequencer) : State := lines1 fun x => { x with
  record := { x.record with observed := .on }, pg := { filtered := true, due := some 100 }, seq := q }

/-- Unit 0 presents to slot 1 with boots left `n`, under a setup that counts boots. -/
def counting (n : Nat) : State :=
  { media.modUnit 0 (fun m => { m with bootsLeft := n }) with
    now := 100
    tables := { media.tables with
      unitSetup := upd media.tables.unitSetup 0 fun x => { x with presentBoots := 3 } } }

theorem witness_PgReported :
    let due := fun (s : State) => (s.slot 1).pg.due = some 100 ∧ reached 100 s.now = true ∧ (s.slot 1).lines.feed = true
    (due (rising {}) ∧ Quiet 1 (rising {}) ∧ (rising {}).pgRaw 1 = true ∧
      ((rising {}).slot 1).record.observed = .standby ∧ BootsFree 1 (rising {})) ∧
    (let r := record .powerOn .expectHigh []
     let s := rising { state := .stepping, record := some r }
     due s ∧ (s.slot 1).seq = { state := .stepping, record := some r } ∧ BootsFree 1 s) ∧
    (due (falling {}) ∧ Quiet 1 (falling {}) ∧ (falling {}).pgRaw 1 = false ∧
      ((falling {}).slot 1).record.observed = .on) ∧
    (∀ more ∈ [[], [Step.dwell .off, .powerOnTail]],
      let r := record .cycleSoft (.expectLow true) more
      let s := falling { state := .stepping, record := some r }
      due s ∧ (s.slot 1).seq = { state := .stepping, record := some r }) ∧
    let off := lines1 fun x => { x with
      lines := { x.lines with feed := false }, record := { observed := .feedOff }, pg := { due := some 100 } }
    (off.slot 1).pg.due = some 100 ∧ (off.slot 1).lines.feed = false ∧ (off.slot 1).record.observed = .feedOff := by
  unfold Quiet BootsFree; decide

theorem witness_PgReported_boots :
    ∀ n ∈ [0, 2],
      let s := (counting n).modSlot 1 fun x => { x with pg := { pin := true, due := some 100 } }
      (s.slot 1).pg.due = some 100 ∧ reached 100 s.now = true ∧ (s.slot 1).lines.feed = true ∧ Quiet 1 s ∧
        s.pgRaw 1 = true ∧ (s.slot 1).record.observed = .standby ∧ s.unitOf 1 = some 0 ∧
        (s.unit 0).state = .presenting ∧ (s.unitSetup 0).presentBoots ≠ 0 ∧ (s.unit 0).bootsLeft = n ∧
        s.fetch.issue = [] ∧ (s.slot 1).port.inFlight = none := by
  unfold Quiet; decide

theorem witness_EdgesTaken :
    let arms := (demo.slot 1).pg
    let disarms := ((lines1 fun x => { x with pg := { pin := true, due := some 101 } }).slot 1).pg
    (arms.pin ≠ true ∧ (true == (demo.setup 1).pgHigh) ≠ arms.filtered ∧ arms.due = none) ∧
      (disarms.pin ≠ false ∧ (false == (demo.setup 1).pgHigh) = disarms.filtered ∧ disarms.due ≠ none) ∧
      arms.pin = false ∧
      ((btnOf (demo.slot 1) .pwr).pressed = false ∧ (btnOf (demo.slot 1) .pwr).seen = true ∧
        (btnOf (demo.slot 1) .pwr).state = .released) ∧
      (let c := btnOf ((lines1 fun x =>
        { x with rstBtn := { pressed := true, state := .pending press } }).slot 1) .rst
      c.pressed = true ∧ c.state = .pending press) ∧
      let c := btnOf ((lines1 fun x => { x with rstBtn := { pressed := true, seen := false } }).slot 1) .rst
      c.pressed = true ∧ c.state = .released := by
  decide

/-- Slot 1 with a PENDING press of both buttons, under a setup. -/
def pressing (f : SlotSetup → SlotSetup) : State :=
  setup1 f (lines1 fun x => { x with
    pwrBtn := { pressed := true, state := .pending press }
    rstBtn := { pressed := true, state := .pending press } })

theorem witness_PressDecided :
    let s := pressing id
    let x := s.slot 1
    reached press.glitchDue s.now = true ∧ (∀ b, (btnOf x b).state = .pending press) ∧
      (s.setup 1).panel = .pass ∧ seqBusy x.seq.state = false ∧ (s.setup 1).pwrOut.enable = true ∧
      (s.setup 1).rstOut.enable = true ∧ rstAsserted x.lines = false ∧
      let t := pressing fun c => { c with panel := .block }
      let u := pressing fun c => { c with
        pwrOut := { c.pwrOut with enable := false }, rstOut := { c.rstOut with enable := false } }
      let v := s.modSlot 1 fun x => { x with seq := { x.seq with state := .stepping } }
      (t.setup 1).panel = .block ∧ (u.setup 1).pwrOut.enable = false ∧ (u.setup 1).rstOut.enable = false ∧
        seqBusy (v.slot 1).seq.state = true := by
  refine ⟨by decide, fun b => by cases b <;> decide, by decide⟩

/-- Slot 1 is ON with one button held down, its classifier in a state. -/
def pressed (b : Button) (st : ClassState) (resetWhileOn : Bool) : State :=
  running (lines1 fun x => { x with
    lines := { x.lines with pwrLocal := true, rstLocal := true }
    pwrBtn := if b = .pwr then { pressed := true, state := st } else x.pwrBtn
    rstBtn := if b = .rst then { pressed := true, state := st } else x.rstBtn
    record := { x.record with resetWhileOn } })

theorem witness_PressesEnd :
    (∀ b, let s := pressed b (.passing press) true
      (btnOf (s.slot 1) b).state = .passing press ∧ (btnOf (s.slot 1) b).pressed = true ∧
        reached press.stuckDue s.now = true ∧ Quiet 1 s ∧ BootsFree 1 s) ∧
      (let s := pressed .rst (.passing press) true
       (s.slot 1).lines.rstLocal = true ∧ (s.slot 1).lines.rstSeq = false ∧ (s.slot 1).record.observed = .on ∧
         (s.slot 1).record.resetWhileOn = true) ∧
      ((pressed .rst (.passing press) false).slot 1).record.resetWhileOn = false ∧
      (∀ b, (btnOf ((pressed b (.blocked press .mode) false).slot 1) b).state = .blocked press .mode) ∧
      (∀ b, (btnOf ((pressed b (.stuck press none) false).slot 1) b).state = .stuck press none) := by
  unfold Quiet BootsFree
  refine ⟨fun b => by cases b <;> decide, by decide, by decide, fun b => by cases b <;> decide,
    fun b => by cases b <;> decide⟩

theorem witness_UnitTickUpkeep :
    let s := fun (t : Time) => { slot1 (fun x =>
      { x with record := { x.record with feedDropped := some 1 } }) with now := t }
    (((s 60001).slot 1).record.feedDropped = some 1 ∧ 60000 ≤ ((s 60001).now - 1).toNat) ∧
      ((s 60000).slot 1).record.feedDropped = some 1 ∧ ((s 60000).now - 1).toNat < 60000 ∧
      (demo.slot 1).record.feedDropped = none := by
  decide

/-! ## Power sequences and the inrush budget -/

/-- The tests of a POWER request pass on a slot when its quote is the boot count. -/
theorem passes {a : Action} {profile : Option Nat} {n : BitVec 16} {i : SlotId} {s : State}
    (h : (s.setup i).powerControl = true ∧
      linesEnabled a (s.setup i) (s.profile (usedProfile profile i s)) = true ∧
      seqBusy (s.slot i).seq.state = false ∧ s.localPassing i = false ∧ n = (s.slot i).record.bootCount ∧
      (a = .reset → (s.slot i).record.observed = .on)) : PowerPasses a profile (some n) i s :=
  ⟨h.1, h.2.1, h.2.2.1, h.2.2.2.1, by simp, by simpa using h.2.2.2.2.1.symm ▸ rfl, h.2.2.2.2.2⟩

/-- The servers of slots 0 and 1 are running. -/
def twoOn : State :=
  (running demo).modSlot 0 fun x => { x with
    record := { x.record with observed := .on, bootCount := 9 }
    pg := { x.pg with pin := true, filtered := true } }

/-- `running demo` where slot 0 is not in the mask of entry 1. -/
def lesser : State :=
  { running demo with tables := { demo.tables with
      stations := upd demo.tables.stations 1 fun e => { e with mask := 0xFE } } }

theorem witness_PressesBegin :
    Taken (hd 3) 1 twoOn ∧ (hd 3).target ≠ 0 ∧ [some 9, some 41].length = (slotsOf (hd 3).target).length ∧
      slotsOf (hd 3).target = [0, 1] ∧ (none.getD 0 ≤ 7 ∧ (some 7).getD 0 ≤ 7) ∧
      (∀ i ∈ slotsOf (hd 3).target, twoOn.holdsOn 1 (·.power) i = true) ∧
      (∀ a ∈ [Action.powerOffSoft, .cycleSoft, .powerOffHard, .reset], ∀ profile ∈ [none, some 7],
        ∀ i ∈ slotsOf (hd 3).target,
          PowerPasses a profile (quoteAt (hd 3).target [some 9, some 41] i) i twoOn ∧
            (twoOn.slot i).record.observed = .on ∧ rstAsserted (twoOn.slot i).lines = false) ∧
      (Taken (hd 3) 1 lesser ∧ lesser.holdsOn 1 (·.power) 0 = false ∧ lesser.holdsOn 1 (·.power) 1 = true ∧
        PowerPasses .reset none (quoteAt (hd 3).target [none, some 41] 1) 1 lesser) := by
  refine ⟨by unfold Taken; decide, by decide, by decide, by decide, by decide, by decide, ?_,
    by unfold Taken; decide, by decide, by decide, passes (by decide)⟩
  intro a ha p hp i hi
  have h : i = 0 ∨ i = 1 := by revert hi; revert i; decide
  obtain rfl | rfl := h <;> refine ⟨passes ?_, by decide, by decide⟩ <;> (revert a p; decide)

/-- Slot 1 with FEED dropped, and profile 0 without charges. -/
def dropped : State :=
  profile0 (fun p => { p with feedCharge := 0, startCharge := 0 })
    (slot1 fun x => { x with lines := { x.lines with feed := false }, record := { observed := .feedOff } })

/-- `dropped` under a profile that charges the restore, behind the waiting starts `queue`. -/
def charged (queue : List Waiting) : State :=
  { profile0 (fun p => { p with feedCharge := 120 }) dropped with inrush := { queue } }

/-- POWER_ON of the slot of `charged` goes on to a start press without a charge. -/
theorem witness_FeedSwitched_powerOn :
    let s := charged []
    let t := s.modSlot 1 fun x => { x with pg := { x.pg with pin := true, filtered := true } }
    let u := profile0 (fun p => { p with feedCharge := 0 }) t
    (PowerTaken (hd 2) 1 1 none s ∧ PowerPasses .powerOn none (some 0) 1 s ∧ (s.slot 1).pg.filtered = false ∧
      (s.profile 0).autoPress = true ∧ GatePasses .notApplied (s.profile 0) 1 s ∧ (s.profile 0).startCharge = 0) ∧
    (PowerTaken (hd 2) 1 1 none u ∧ PowerPasses .powerOn none (some 0) 1 u ∧ (u.slot 1).pg.filtered = true ∧
      (u.slot 1).lines.feed = false ∧ (u.slot 1).record.observed = .feedOff ∧ (u.profile 0).feedCharge = 0 ∧
      (u.profile 0).autoPress = true ∧ GatePasses .notApplied (u.profile 0) 1 u) ∧ BootsFree 1 u := by
  refine ⟨⟨by unfold PowerTaken Taken; decide, passes (by decide), by decide, by decide, ?_, by decide⟩,
    ⟨by unfold PowerTaken Taken; decide, passes (by decide), by decide, by decide, by decide, by decide, by decide,
      ?_⟩, by unfold BootsFree; decide⟩
  · exact Or.inl (by decide)
  · exact Or.inl (by decide)

theorem witness_FeedSwitched :
    (PowerTaken (hd 2) 1 1 none dropped ∧ PowerPasses .feedOn none (some 0) 1 dropped ∧
      (dropped.slot 1).lines.feed = false ∧ (dropped.slot 1).record.observed = .feedOff ∧
      (dropped.slot 1).pg.filtered = false ∧
      (dropped.profile (usedProfile none 1 dropped)).feedCharge = 0) ∧
    (let s := charged [{ slot := 5, kind := .startPress, charge := 40, settle := 800 }]
     PowerTaken (hd 2) 1 1 none s ∧ PowerPasses .feedOn none (some 0) 1 s ∧
      ((s.slot 1).lines.feed = false ∧ (s.slot 1).record.observed = .feedOff ∧ (s.slot 1).pg.filtered = false ∧
        (s.profile (usedProfile none 1 s)).feedCharge ≠ 0) ∧ s.inrush.queue ≠ []) ∧
    (let s := charged []
     PowerTaken (hd 2) 1 1 none s ∧ PowerPasses .feedOn none (some 0) 1 s ∧
      ((s.slot 1).lines.feed = false ∧ (s.slot 1).record.observed = .feedOff ∧ (s.slot 1).pg.filtered = false ∧
        (s.profile (usedProfile none 1 s)).feedCharge ≠ 0) ∧
      s.inrush.queue = [] ∧ s.inrush.active = [] ∧ s.inrush.last = none) ∧
    PowerTaken (hd 2) 1 1 none (running demo) ∧ ((running demo).slot 1).lines.feed = true ∧
      ((running demo).slot 1).record.observed ≠ .feedOff ∧
      PowerPasses .feedOff none (some 41) 1 (running demo) ∧
      PowerPasses .cycleFeed none (some 41) 1 (running demo) :=
  ⟨⟨by unfold PowerTaken Taken; decide, passes (by decide), by decide, by decide, by decide, by decide⟩,
    ⟨by unfold PowerTaken Taken; decide, passes (by decide), by decide, by decide⟩,
    ⟨by unfold PowerTaken Taken; decide, passes (by decide), by decide, by decide⟩,
    by unfold PowerTaken Taken; decide, by decide, by decide, passes (by decide), passes (by decide)⟩

theorem witness_FinishedAtOnce :
    (PowerTaken (hd 2) 1 1 none (running demo) ∧ PowerPasses .powerOn none (some 41) 1 (running demo) ∧
      ((running demo).slot 1).record.observed = .on ∧
      PowerPasses .feedOn none (some 41) 1 (running demo) ∧ ((running demo).slot 1).lines.feed = true) ∧
    PowerTaken (hd 2) 1 1 none dropped ∧ PowerPasses .feedOff none (some 0) 1 dropped ∧
      (dropped.slot 1).lines.feed = false ∧ PowerPasses .powerOffSoft none (some 0) 1 dropped ∧
      PowerPasses .powerOffHard none (some 0) 1 dropped ∧ (dropped.slot 1).record.observed ≠ .on ∧
      PowerPasses .cycleSoft none (some 0) 1 dropped ∧ PowerPasses .cycleFeed none (some 0) 1 dropped :=
  ⟨⟨by unfold PowerTaken Taken; decide, passes (by decide), by decide, passes (by decide), by decide⟩,
    by unfold PowerTaken Taken; decide, passes (by decide), by decide, passes (by decide), passes (by decide),
    by decide, passes (by decide), passes (by decide)⟩

/-- Slot 5 waits for the budget. -/
def behind : State :=
  { demo with inrush := { queue := [{ slot := 5, kind := .startPress, charge := 40, settle := 800 }] } }

theorem witness_StartPressBudgeted :
    let free := profile0 (fun p => { p with startCharge := 0 }) demo
    (PowerTaken (hd 2) 1 1 none free ∧ PowerPasses .powerOn none (some 0) 1 free ∧
      (free.slot 1).record.observed = .standby ∧ (free.profile (usedProfile none 1 free)).gate = .none ∧
      (free.profile (usedProfile none 1 free)).startCharge = 0) ∧
    (PowerTaken (hd 2) 1 1 none behind ∧ PowerPasses .powerOn none (some 0) 1 behind ∧
      (behind.slot 1).record.observed = .standby ∧
      (behind.profile (usedProfile none 1 behind)).startCharge ≠ 0 ∧ behind.inrush.queue ≠ []) ∧
    PowerTaken (hd 2) 1 1 none demo ∧ PowerPasses .powerOn none (some 0) 1 demo ∧
      (demo.slot 1).record.observed = .standby ∧ (demo.profile (usedProfile none 1 demo)).gate = .none ∧
      (demo.profile (usedProfile none 1 demo)).startCharge ≠ 0 ∧ demo.inrush.queue = [] ∧
      demo.inrush.active = [] ∧ demo.inrush.last = none :=
  ⟨⟨by unfold PowerTaken Taken; decide, passes (by decide), by decide, by decide, by decide⟩,
    ⟨by unfold PowerTaken Taken; decide, passes (by decide), by decide, by decide, by decide⟩,
    by unfold PowerTaken Taken; decide, passes (by decide), by decide, by decide, by decide, by decide,
    by decide, by decide⟩

/-- `media` with a media gate in profile 0, and its unit in a state of its prime. -/
def gating (gate : MediaGate) (prime : PrimeState) : State :=
  profile0 (fun p => { p with gate }) (media.modUnit 0 fun m => { m with prime })

/-- The GATE of slot 1 fails, waits, passes as waived and passes with its unit primed. -/
theorem gating_gates :
    let p := fun g q => (gating g q).profile (usedProfile none 1 (gating g q))
    GateFails (p .require .failed) 1 (gating .require .failed) ∧
      GateWaits (p .require .running) 1 (gating .require .running) ∧
      GatePasses .waived (p .wait .none) 1 (gating .wait .none) ∧
      GatePasses .primed (p .wait .done) 1 (gating .wait .done) := by
  simp only [GatePasses]
  unfold GateFails GateWaits
  decide

theorem witness_StartPressBudgeted_gate :
    ∀ g ∈ [(MediaGate.require, PrimeState.failed), (.require, .running), (.wait, .none), (.wait, .done)],
      let s := gating g.1 g.2
      PowerTaken (hd 2) 1 1 none s ∧ PowerPasses .powerOn none (some 0) 1 s ∧
        (s.slot 1).record.observed = .standby ∧ (s.slot 1).lines.rstSeq = false ∧ 1 ∉ waitingSlots s := by
  intro g h
  refine ⟨?_, passes ?_, ?_, ?_, ?_⟩ <;> revert g <;> (try unfold PowerTaken Taken) <;> decide

theorem witness_StartPressBudgeted_two :
    Taken (hd 6) 1 demo ∧ slotsOf (hd 6).target = [1, 2] ∧ demo.holdsOn 1 (·.power) 1 = true ∧
      demo.holdsOn 1 (·.power) 2 = true ∧ PowerPasses .powerOn none (some 0) 1 demo ∧
      PowerPasses .powerOn none none 2 demo ∧
      (∀ i ∈ [(1 : SlotId), 2], (demo.slot i).record.observed = .standby ∧
        (demo.profile (usedProfile none i demo)).gate = .none ∧
        (demo.profile (usedProfile none i demo)).startCharge ≠ 0 ∧
        (demo.profile (usedProfile none i demo)).startSettle ≠ 0) ∧
      demo.inrush.queue = [] ∧ demo.inrush.active = [] ∧ demo.inrush.last = none ∧
      demo.tables.bridge.spacing ≠ 0 := by
  refine ⟨by unfold Taken; decide, by decide, by decide, by decide, passes (by decide), ?_, by decide, by decide,
    by decide, by decide, by decide⟩
  exact ⟨by decide, by decide, by decide, by decide, fun _ => rfl, (fun _ h => nomatch h), (fun h => nomatch h)⟩

/-- Slot 1 waits for the budget, at the head of the Inrush Queue, with some charges active. -/
def budgeted (active : List Charge) : State :=
  { inStep .waitBudget (record .powerOn (.press .start) [.expectHigh]) .standby with
    inrush := { queue := [{ slot := 1, kind := .startPress, charge := 40, settle := 800 }], active } }

theorem witness_AbortHalts :
    PowerTaken (hd 2) 1 1 none demo ∧ Quiet 1 demo ∧
      (∀ st ∈ [SeqState.stepping, .waitGate],
        let s := inStep st (record .powerOn .gate []) .standby
        PowerTaken (hd 2) 1 1 none s ∧ (s.slot 1).seq.record = some (record .powerOn .gate []) ∧
          (s.slot 1).lines.rstSeq = false ∧ (s.slot 1).seq.state = st ∧ 1 ∉ waitingSlots s) ∧
      PowerTaken (hd 2) 1 1 none (budgeted []) ∧ ((budgeted []).slot 1).seq.record.isSome = true ∧
      ((budgeted []).slot 1).lines.rstSeq = false ∧ ((budgeted []).slot 1).seq.state = .waitBudget ∧
      1 ∈ waitingSlots (budgeted []) := by
  unfold PowerTaken Taken Quiet; decide

/-- The first `n` tests of R102 pass on slot 1 of a request that names no profile. -/
def passing (s : State) (a : Action) (n : Nat) : Bool :=
  [s.holdsOn 1 (·.power) 1, (s.setup 1).powerControl, linesEnabled a (s.setup 1) (s.profile 0),
    !seqBusy (s.slot 1).seq.state, !s.localPassing 1].take n |>.all id

/-- Each test of R102 fails with all before it passing; the last line has a mask of two slots. -/
theorem witness_PowerRefused :
    Taken (hd 2) 1 noRights ∧ slotsOf (hd 2).target = [1] ∧ noRights.holdsOn 1 (·.power) 1 = false ∧
      (let s := setup1 (fun c => { c with powerControl := false }) demo
       passing s .reset 1 = true ∧ (s.setup 1).powerControl = false) ∧
      (let s := setup1 (fun c => { c with rstOut := { c.rstOut with enable := false } }) demo
       passing s .reset 2 = true ∧ linesEnabled .reset (s.setup 1) (s.profile 0) = false) ∧
      (let s := inStep .stepping (record .powerOn .gate []) .on
       Taken (hd 2) 1 s ∧ passing s .reset 3 = true ∧ seqBusy (s.slot 1).seq.state = true) ∧
      (let s := lines1 fun x => { x with rstBtn := { pressed := true, state := .passing press } }
       passing s .reset 4 = true ∧ s.localPassing 1 = true) ∧
      (passing demo .reset 5 = true ∧ needsQuote .reset = true) ∧ (1 : BitVec 16) ≠ (demo.slot 1).record.bootCount ∧
      (demo.slot 1).record.observed ≠ .on ∧
      (Taken (hd 3) 1 noRights ∧ [(none : Quote), none].length = (slotsOf (hd 3).target).length ∧
        ∀ i ∈ slotsOf (hd 3).target, noRights.holdsOn 1 (·.power) i = false) := by
  unfold Taken; decide

theorem witness_StepDeadlines :
    let due := fun (s : State) r =>
      (s.slot 1).seq = { state := .stepping, record := some r } ∧ r.deadline = some 100 ∧ reached 100 s.now = true
    (let r := record .powerOn (.press .start) [.expectHigh]
     let s := inStep .stepping r .standby
     due s r ∧ isPress r.current = true ∧ (s.slot 1).record.observed ≠ .on) ∧
    (let r := record .powerOffHard .hold [.expectLow false]
     let s := inStep .stepping r .on
     due s r ∧ isPress r.current = true ∧ (s.slot 1).record.observed = .on) ∧
    (let r := record .powerOn (.press .start) [.expectHigh]
     due (inStep .stepping r .on) r ∧ ((inStep .stepping r .on).slot 1).record.observed = .on) ∧
    (let r := record .cycleSoft (.press .stop) [.expectLow true, .dwell .off, .powerOnTail]
     due (inStep .stepping r .standby) r ∧ ((inStep .stepping r .standby).slot 1).record.observed ≠ .on) ∧
    (let r := record .cycleFeed (.dwell .one) []
     due (inStep .stepping r .standby) r ∧ isDwell r.current = true) ∧
    (let r := record .cycleSoft (.dwell .off) [.powerOnTail]
     due (inStep .stepping r .on) r ∧ ((inStep .stepping r .on).slot 1).record.observed = .on ∧
     let s := profile0 (fun p => { p with startCharge := 0 }) (inStep .stepping r .standby)
     due s r ∧ (s.slot 1).record.observed = .standby ∧ (s.profile 0).gate = .none ∧ (s.profile 0).startCharge = 0) ∧
    ∀ more ∈ [[], [Step.dwell .one, .powerOnTail]],
      let r := record .cycleFeed (.dwell .off) (.feedRestore :: more)
      let s := profile0 (fun p => { p with feedCharge := 0 }) ((inStep .stepping r .feedOff).modSlot 1 fun x =>
        { x with lines := { x.lines with feed := false } })
      due s r ∧ (s.slot 1).lines.feed = false ∧ (s.slot 1).record.observed = .feedOff ∧
        (s.slot 1).pg.filtered = false ∧ (s.profile 0).feedCharge = 0 := by
  decide

/-- Slot 1 is ON in a RESET that holds RST_OUT, with a media gate and unit 0 presenting. -/
def resetting (st : SeqState) (r : SeqRecord) (gate : MediaGate) (prime : PrimeState) : State :=
  profile0 (fun p => { p with gate }) { ((media.modUnit 0 fun m => { m with prime }).modSlot 1 fun x => { x with
      lines := { x.lines with rstSeq := true }
      seq := { state := st, record := some r }
      record := { x.record with observed := .on, resetWhileOn := true } }) with
    now := 100 }

/-- The sequence of slot 1, whose record is `r`, alone holds RST_OUT, and its deadline is reached. -/
def RstHeld (s : State) (r : SeqRecord) : Prop :=
  (s.slot 1).seq.record = some r ∧ (s.slot 1).lines.rstSeq = true ∧ (s.slot 1).lines.rstLocal = false ∧
    r.deadline = some 100 ∧ reached 100 s.now = true

theorem witness_ResetReleases :
    let r := record .reset (.dwell .reset) [.gate, .releaseRst]
    let s := resetting .stepping r .none .none
    let t := resetting .stepping r .wait .done
    RstHeld s r ∧ BootsFree 1 s ∧ (s.slot 1).seq.state = .stepping ∧ (s.profile 0).gate = .none ∧
      RstHeld t r ∧ BootsFree 1 t ∧ (t.profile 0).gate ≠ .none ∧ t.unitOf 1 = some 0 ∧
      (t.unit 0).state = .presenting ∧ (t.unit 0).prime = .done ∧
      ((resetting .stepping r .wait .running).unit 0).prime = .running ∧
      (let v := resetting .stepping r .require .failed
       RstHeld v r ∧ BootsFree 1 v ∧ v.unitOf 1 = some 0 ∧ (v.unit 0).prime = .failed ∧ 1 ∉ waitingSlots v) := by
  unfold RstHeld BootsFree; decide

theorem witness_ResetReleases_gate :
    let r := record .reset .gate [.releaseRst]
    (∀ g ∈ [MediaGate.wait, .require],
      let s := resetting .waitGate r g .running
      RstHeld s r ∧ (s.slot 1).seq.state = .waitGate ∧ (s.profile 0).gate = g ∧ 1 ∉ waitingSlots s) ∧
    (∀ g ∈ [MediaGate.wait, .require], BootsFree 1 (resetting .waitGate r g .running)) ∧
    PowerTaken (hd 2) 1 1 none (resetting .waitGate r .wait .running) := by
  unfold RstHeld BootsFree PowerTaken Taken
  refine ⟨by decide, by decide, by decide⟩

theorem witness_ExpectationsExpire :
    let due := fun (st : SeqState) (r : SeqRecord) (s : State) =>
      (s.slot 1).seq.record = some r ∧ r.deadline = some 100 ∧ reached 100 s.now = true ∧
        (s.slot 1).lines.rstSeq = false ∧ 1 ∉ waitingSlots s ∧ (s.slot 1).seq.state = st
    (let r := record .powerOn .expectHigh []
     due .stepping r (inStep .stepping r .standby)) ∧
    (let r := record .powerOffSoft (.expectLow true) []
     let s := inStep .stepping r .on
     due .stepping r s ∧ (s.profile r.profile).escalate = true ∧ (s.slot 1).record.observed = .on) ∧
    (let r := record .powerOffHard (.expectLow false) []
     due .stepping r (inStep .stepping r .on)) ∧
    (let r := record .powerOn .gate []
     let s := profile0 (fun p => { p with gate := .require }) (inStep .waitGate r .standby)
     due .waitGate r s ∧ (s.profile r.profile).gate = .require) ∧
    let r := record .powerOn .gate [.press .start, .expectHigh]
    let s := profile0 (fun p => { p with gate := .wait, startCharge := 0 }) (inStep .waitGate r .standby)
    due .waitGate r s ∧ (s.profile r.profile).gate = .wait ∧ (s.profile r.profile).startCharge = 0 ∧
      (s.slot 1).record.observed = .standby := by
  decide

/-- A charge of 180 that decays over 2000 ms from time 0. -/
def feed180 (slot : SlotId) : Charge :=
  { slot, kind := .feedRestore, charge := 180, settle := 2000, start := 0 }

/-- Slot 1, its FEED dropped, waits for the budget of its restore, before the steps `rest`. -/
def restoring (rest : List Step) : State :=
  { (inStep .waitBudget (record .feedOn .feedRestore rest) .feedOff).modSlot 1
      (fun x => { x with lines := { x.lines with feed := false } }) with
    inrush := { queue := [{ slot := 1, kind := .feedRestore, charge := 120, settle := 2000 }] } }

theorem witness_InrushEvaluated :
    demo.inrush.queue = [] ∧
      (let s := budgeted []
       s.inrush.queue = { slot := 1, kind := .startPress, charge := 40, settle := 800 } :: [] ∧
       (s.slot 1).seq = { state := .waitBudget, record := some (record .powerOn (.press .start) [.expectHigh]) } ∧
       (s.slot 1).record.observed ≠ .on) ∧
      (let s := (budgeted []).modSlot 1 fun x => { x with record := { x.record with observed := .on } }
       (s.slot 1).seq = { state := .waitBudget, record := some (record .powerOn (.press .start) [.expectHigh]) } ∧
         (s.slot 1).record.observed = .on) ∧
      (∀ rest ∈ [[], [Step.dwell .one, .powerOnTail], [.gate, .press .start, .expectHigh]],
       let s := restoring rest
       s.inrush.queue = { slot := 1, kind := .feedRestore, charge := 120, settle := 2000 } :: [] ∧
       (s.slot 1).seq = { state := .waitBudget, record := some (record .feedOn .feedRestore rest) } ∧
       (s.slot 1).lines.feed = false ∧ (s.slot 1).record.observed = .feedOff ∧ (s.slot 1).pg.filtered = false) ∧
      (let s := budgeted [feed180 2]
       s.tables.bridge.capacity = 160 ∧
         (180 * (2000 - (s.now - (feed180 2).start).toNat) + 2000 - 1) / 2000 = 171) := by
  decide

/-! ## Storage ports and media units -/

/-- `media` with a request in flight on the port of slot 1. -/
def withRequest (r : PortRequest) : State :=
  media.modSlot 1 fun x => { x with port := { x.port with inFlight := some r } }

theorem witness_PortRequestsAnswered :
    Presents 1 0 media ∧
      (RequestKind.check, Instr.storageCheck 1) ∈ [(RequestKind.check, Instr.storageCheck 1)] ∧
      ((demo.slot 1).port.inFlight = none ∧ demo.unitOf 1 = none) ∧
      (let s := media.modUnit 0 fun m => { m with state := .ejecting }
       s.unitOf 1 = some 0 ∧ (s.unit 0).state ≠ .presenting) ∧
      (let s := media.modUnit 0 fun m => { m with mediumChanged := true }
       (s.slot 1).port.inFlight = none ∧ s.unitOf 1 = some 0 ∧ (s.unit 0).state = .presenting ∧
         (s.unit 0).mediumChanged = true) ∧
      ((withRequest (.write 8 1)).slot 1).port.inFlight ≠ none := by
  unfold Presents; decide

theorem witness_ReadsDelivered :
    Presents 1 0 media ∧ media.capacity 0 = 146 ∧ 16 + 128 ≤ media.capacity 0 ∧
      media.resolveAll 0 16 128 = some (List.replicate 128 .zeros) ∧
      (List.replicate 128 Source.zeros).map (media.ready 0) = (List.replicate 128 zeroBlock).map some ∧
      media.resolveAll 0 9 1 = some [.overlay 9] ∧ [Source.overlay 9].map (media.ready 0) = [zeroBlock].map some ∧
      (144 + 2 ≤ media.capacity 0 ∧ media.resolveAll 0 144 2 = none) ∧ media.capacity 0 < 145 + 2 := by
  refine ⟨by unfold Presents; decide, by decide, by decide, by decide +kernel, ?_, by decide, rfl, by decide,
    by decide⟩
  rw [List.map_replicate, List.map_replicate]; rfl

theorem witness_WritesReserve :
    Presents 1 0 media ∧
      (8 + 8 ≤ media.capacity 0 ∧ (media.unitSetup 0).writeProtect = false ∧
        (∀ k ∈ (lbas 8 8).map (media.kindAt 0), k = .overlay ∨ k = .local_) ∧
        newBlocks (media.unit 0) 8 8 = 7 ∧ 7 ≤ media.poolFree ∧ heldCount (media.unit 0) = 1) ∧
      (¬ 145 + 2 ≤ media.capacity 0 ∧ ¬ 1 ≤ 0 ∧ ¬ 129 ≤ 128) ∧
      (let s := { media with tables := { media.tables with
         unitSetup := upd media.tables.unitSetup 0 fun x => { x with overlayLimit := 8 } } }
       Presents 1 0 s ∧ heldCount (s.unit 0) + 7 ≤ (s.unitSetup 0).overlayLimit) ∧
      (let s := { media with tables := { media.tables with
         unitSetup := upd media.tables.unitSetup 0 fun x => { x with overlayLimit := 7 } } }
       Presents 1 0 s ∧ ¬ heldCount (s.unit 0) + 7 ≤ (s.unitSetup 0).overlayLimit) ∧
      RegionKind.absent ∈ (lbas 143 2).map (media.kindAt 0) ∧
      (RegionKind.absent ∉ (lbas 7 2).map (media.kindAt 0) ∧ RegionKind.remote ∈ (lbas 7 2).map (media.kindAt 0)) ∧
      let s := { media with tables := { media.tables with
        unitSetup := upd media.tables.unitSetup 0 fun x => { x with writeProtect := true } } }
      Presents 1 0 s ∧ (s.unitSetup 0).writeProtect = true := by
  unfold Presents; decide

theorem witness_WriteDataAndAborts :
    (∀ r ∈ [PortRequest.write 8 1, .write 9 2, .read 0 [] []],
      (withRequest r).unitOf 1 = some 0 ∧ ((withRequest r).unit 0).state = .presenting ∧
        ((withRequest r).slot 1).port.inFlight = some r ∧
        let s := (withRequest r).modUnit 0 fun m => { m with state := .ejecting, ejectReason := some .unbind }
        s.unitOf 1 = some 0 ∧ (s.unit 0).state = .ejecting ∧ (s.slot 1).port.inFlight = some r) := by
  decide

/-- The map of unit 3 is one block, its last of 8, of a kind. -/
def lastBlock (kind : RegionKind) : State :=
  { demo with tables := { demo.tables with
      maps := upd demo.tables.maps 48 fun _ => some { first := 7, count := 1, kind, base := some 0 } } }

theorem witness_BindPresents :
    Taken (hd 3) 1 demo ∧ finOf 4 (hd 3).target.toNat = some 3 ∧ finOf 8 (7 : Byte).toNat = some 7 ∧
      demo.holdsOn 1 (·.media) 7 = true ∧ (demo.unit 3).state = .detached ∧ demo.unitOf 7 = none ∧
      (demo.slot 7).seq.state ≠ .waitGate ∧ demo.resolveAll 3 0 (min 8 (demo.capacity 3)) = some [] ∧
      (∀ k ∈ [RegionKind.absent, .remote],
        let s := lastBlock k
        Taken (hd 3) 1 s ∧ (s.unit 3).state = .detached ∧ s.unitOf 7 = none) ∧
      (lastBlock .absent).resolveAll 3 0 (min 8 ((lastBlock .absent).capacity 3)) = none ∧
      (lastBlock .remote).resolveAll 3 0 (min 8 ((lastBlock .remote).capacity 3)) =
        some (List.replicate 7 .zeros ++ [.image 0]) ∧
      (lastBlock .remote).ready 3 (.image 0) = none := by
  unfold Taken; decide

/-- Slot 1 waits in the GATE of a RESET or of a POWER_ON, under a media gate. -/
def atGate (rst : Bool) (gate : MediaGate) (s : State) : State :=
  profile0 (fun p => { p with gate, startCharge := 0 }) (s.modSlot 1 fun x => { x with
    lines := { x.lines with rstSeq := rst }
    seq := { state := .waitGate
             record := some (if rst then record .reset .gate [.releaseRst]
               else record .powerOn .gate [.press .start, .expectHigh]) } })

theorem witness_UnbindEjects_gate :
    ∀ rst, ∀ g ∈ [MediaGate.wait, .require], GateKnown 0 1 (atGate rst g media) ∧
      ((atGate rst g media).slot 1).seq.state = .waitGate ∧ Taken (hd 0) 1 (atGate rst g media) := by
  intro rst g h
  refine ⟨fun _ => ⟨?_, ((atGate rst g media).slot 1).seq.record.getD (record .reset .gate []), ?_⟩, ?_, ?_⟩ <;>
    revert g <;> revert rst <;> (try unfold WaitsAtGate) <;> (try unfold Taken) <;> decide

theorem witness_UnbindEjects :
    Taken (hd 0) 1 media ∧ finOf 4 (hd 0).target.toNat = some 0 ∧ (media.unit 0).state = .presenting ∧
      (media.unit 0).slot = some 1 ∧ isMediaStation (media.unit 0) 1 = true ∧
      (media.station 1).rights.admin = true ∧ (media.slot 1).seq.state ≠ .waitGate ∧
      (media.slot 1).port.inFlight = none ∧
      Taken (hd 0) 1 (withRequest (.write 8 1)) ∧ ((withRequest (.write 8 1)).slot 1).port.inFlight ≠ none := by
  unfold Taken; decide

/-! ## Answers of media stations -/

/-- A record of unit 0 that awaits blocks 0 and 7 of group 0. -/
def awaited (reAsk : Nat) : FetchRecord :=
  { id := 5, unit := 0, first := 0, count := 8, phase := .out 100, reAsk, waiting := [0, 7] }

/-- `media` at time 100 with that record, its cache line, and a read of LBAs 0 and 7 in flight. -/
def fetching (reAsk : Nat) : State :=
  { withRequest (.read 0 [.image 0, .image 7] [0, 7]) with
    now := 100
    fetch := { records := [awaited reAsk], lastId := 5 }
    cache := [{ unit := 0, group := 0, blocks := Vector.replicate 8 .pending, pins := 1 }] }

/-- `fetching` with check width 32, all else of its check zero but the final xor. -/
def checking : State :=
  { fetching 0 with tables := { media.tables with
      unitSetup := upd media.tables.unitSetup 0 fun x =>
        { x with width := .w32, poly := 0, init := 0, finalXor := 1, reflected := false } } }

theorem witness_AnswersDropped :
    let s := fetching 0
    (s.lookup (hd 0).src = some 1 ∧ finOf 4 (hd 4).target.toNat = none ∧ ({ hd 0 with version := 0 } : Header).version ≠ 1 ∧
      ({ hd 0 with bodyLength := 40 } : Header).bodyFits = false) ∧
      AnswerHeard (hd 0) 1 0 s ∧
      (let t := s.modUnit 0 fun m => { m with station := some (2, desk) }
       AnswerHeard (hd 0) 1 0 t ∧ (t.unit 0).state ≠ .detached ∧ (t.unit 0).station ≠ some (1, (hd 0).src)) ∧
      ((demo.unit 0).state = .detached ∧ (hear 1 .uplink demo).recordOf 0 5 = none) ∧
      ((s.unit 0).station = some (1, (hd 0).src) ∧ (hear 1 .uplink s).recordOf 0 6 = none ∧
        (hear 1 .uplink s).recordOf 0 5 = some (awaited 0) ∧ (1 : BitVec 32).toNat ∉ (awaited 0).waiting ∧
        (∀ b ∈ (awaited 0).waiting, b < (1 : BitVec 32).toNat ∨ (1 : BitVec 32).toNat + 6 ≤ b)) := by
  unfold AnswerHeard; decide

/-- A register of zeros without a polynomial stays zero. -/
theorem zero_bits (bits : List Bool) : bits.foldl (crcBit (0 : BitVec 32)) 0 = 0 := by
  induction bits with
  | nil => rfl
  | cons b bits ih => rw [List.foldl_cons, show crcBit (0 : BitVec 32) 0 b = 0 by cases b <;> rfl, ih]

theorem zero_crc (data : List Byte) : crc (0 : BitVec 32) 0 false 1 data = 1 := by
  have : data.foldl (fun r b => (byteBits false b).foldl (crcBit (0 : BitVec 32)) r) 0 = 0 := by
    induction data with
    | nil => rfl
    | cons b data ih => rw [List.foldl_cons, zero_bits, ih]
  simp only [crc, this]
  rfl

theorem witness_AnswersDropped_check :
    AnswerHeard (hd 0) 1 0 checking ∧ (hear 1 .uplink checking).recordOf 0 5 = some (awaited 0) ∧
      (7 : BitVec 32).toNat ∈ (awaited 0).waiting ∧ checkGood (checking.unitSetup 0) zeroBlock 0 = false :=
  by
  refine ⟨by unfold AnswerHeard; decide, by decide, by decide, ?_⟩
  show (crc (0 : BitVec 32) 0 false 1 zeroBlock.toList == 0) = false
  rw [zero_crc]
  rfl

theorem witness_BlockAccepted :
    let s := fetching 0
    AnswerHeard (hd 0) 1 0 s ∧ (s.unit 0).state = .presenting ∧ (s.unit 0).station = some (1, (hd 0).src) ∧
      (hear 1 .uplink s).recordOf 0 5 = some (awaited 0) ∧
      (∀ r' ∈ (hear 1 .uplink s).fetch.records, r'.id = 5 → r' = awaited 0) ∧
      (7 : BitVec 32).toNat ∈ (awaited 0).waiting ∧ checkGood (s.unitSetup 0) zeroBlock 0 = true ∧
      (s.line 0 ((7 : BitVec 32).toNat / 8)).isSome = true ∧ (s.unit 0).prime ≠ .running ∧
      (∃ k ∈ (awaited 0).waiting, k ≠ (7 : BitVec 32).toNat) ∧ (s.unit 0).slot = some 1 ∧
      (s.slot 1).port.inFlight = some (.read 0 ([] ++ [.image 0, .image 7]) [0, 7]) ∧ s.ready 0 (.image 0) = none ∧
      (s.unit 0).station = some (1, desk) := by
  unfold AnswerHeard; decide

/-- `fetching` once block 0 has been delivered, with what waits in the Issue Queue: a read on the port of
slot 2 that unit 1 serves. -/
def lastAwaited (issue : List IssueEntry) : State :=
  let s := (fetching 0).modSlot 2 fun x => { x with port := { inFlight := some (.read 0 [.image 16] [16]) } }
  { s.modSlot 1 (fun x => { x with port := { inFlight := some (.read 1 [.image 7] [0, 7]) } }) with
    units := upd s.units 1 fun m => { m with state := .presenting, slot := some 2, station := some (1, desk) }
    fetch := { records := [{ awaited 0 with waiting := [7] }], lastId := 5, issue } }

/-- The last block of a record, with and without a waiting group. -/
theorem witness_BlockAccepted_last :
    (∀ issue ∈ [[], [{ unit := 1, group := 2, prime := false }]],
      let s := lastAwaited issue
      AnswerHeard (hd 0) 1 0 s ∧ (hear 1 .uplink s).recordOf 0 5 = some { awaited 0 with waiting := [7] } ∧
        (s.unit 0).state = .presenting ∧ ¬ (∃ k ∈ [7], k ≠ (7 : BitVec 32).toNat) ∧ s.fetch.issue = issue) ∧
      (let s := lastAwaited [{ unit := 1, group := 2, prime := false }]
       s.blockAt 0 7 = .pending ∧ s.emptyIn 1 2 (s.imagesOf 1 false) ≠ [] ∧
         ((hear 1 .uplink s).fetch.records.filter fun x => decide (x.id ≠ 5)) = []) ∧
      (let s := lastAwaited []
       (s.slot 1).port.inFlight = some (.read 1 ([.image 7] ++ []) [0, 7])) := by
  unfold AnswerHeard; decide

/-- `lastAwaited` with a prime of unit 0 that waits for block 7, and slot 1 in a state of its sequencer. -/
def priming (st : SeqState) : State :=
  profile0 (fun p => { p with startCharge := 0 }) (((lastAwaited []).modUnit 0 fun m =>
    { m with prime := .running, primeImages := [7] }).modSlot 1 fun x => { x with
      port := {}
      seq := { state := st, record := some (record .powerOn .gate [.press .start, .expectHigh]) } })

/-- The last block that a running prime waits for, with and without a GATE. -/
theorem witness_BlockAccepted_prime :
    (∀ st ∈ [SeqState.idle, .waitGate],
      let s := priming st
      AnswerHeard (hd 0) 1 0 s ∧ (s.unit 0).state = .presenting ∧ (s.unit 0).prime = .running ∧
        (∀ k ∈ (s.unit 0).primeImages, k = 7 ∨ isValid (s.blockAt 0 k) = true) ∧ (s.unit 0).slot = some 1 ∧
        (s.slot 1).seq.state = st) ∧
      (let s := (priming .idle).modUnit 0 fun m => { m with primeImages := [6, 7] }
       (s.unit 0).prime = .running ∧ ¬ ∀ k ∈ (s.unit 0).primeImages, k = 7 ∨ isValid (s.blockAt 0 k) = true) ∧
      (let s := priming .waitGate
       (s.slot 1).seq = { state := .waitGate, record := some (record .powerOn .gate [.press .start, .expectHigh]) } ∧
         (s.profile 0).startCharge = 0 ∧ (s.slot 1).record.observed = .standby) ∧
      ∀ rst, let s := atGate rst .wait (priming .idle)
       (∃ q, WaitsAtGate 1 q s) ∧ BootsFree 1 s ∧ (s.unit 0).prime = .running := by
  refine ⟨by unfold AnswerHeard; decide, by decide, by decide, fun rst => ⟨⟨((atGate rst .wait
    (priming .idle)).slot 1).seq.record.getD (record .reset .gate []), ?_⟩, ?_, ?_⟩⟩ <;> revert rst <;>
    (try unfold WaitsAtGate) <;> (try unfold BootsFree) <;> decide

/-- The read on port 1 of an EJECTING unit is complete with block 7, or fails with it. -/
theorem witness_WriteDataAndAborts_read :
    let s := (lastAwaited []).modUnit 0 fun m => { m with state := .ejecting, ejectReason := some .unbind }
    AnswerHeard (hd 0) 1 0 s ∧ s.unitOf 1 = some 0 ∧ (s.unit 0).station = some (1, (hd 0).src) ∧
      (hear 1 .uplink s).recordOf 0 5 = some { awaited 0 with waiting := [7] } ∧
      (s.line 0 ((7 : BitVec 32).toNat / 8)).isSome = true ∧ checkGood (s.unitSetup 0) zeroBlock 0 = true ∧
      (s.slot 1).port.inFlight = some (.read 1 [.image 7] [0, 7]) ∧
      [Source.image 7].map (fun x => if x = .image (7 : BitVec 32).toNat then some zeroBlock else s.ready 0 x) =
        [zeroBlock].map some := by
  refine ⟨by unfold AnswerHeard; decide, by decide, by decide, by decide, by decide, by decide, by decide, rfl⟩

/-- A failed block that a running prime waits for, and the GATE that waits for the prime. -/
theorem witness_BlocksFail_prime :
    ∀ rst, let s := atGate rst .require ((fetching 3).modUnit 0 fun m =>
        { m with prime := .running, primeImages := [7] })
      (s.unit 0).state = .presenting ∧ (s.unit 0).prime = .running ∧ GateKnown 0 1 s ∧ BootsFree 1 s ∧
        AnswerHeard (hd 0) 1 0 s := by
  intro rst
  refine ⟨?_, ?_, fun _ => ⟨?_, ((atGate rst .require ((fetching 3).modUnit 0 fun m =>
    { m with prime := .running, primeImages := [7] })).slot 1).seq.record.getD (record .reset .gate []), ?_⟩, ?_, ?_⟩ <;>
    revert rst <;> (try unfold WaitsAtGate) <;> (try unfold BootsFree) <;> (try unfold AnswerHeard) <;> decide

theorem witness_BlocksFail :
    let s := fetching 3
    (s.unit 0).state = .presenting ∧ (s.unit 0).slot = some 1 ∧ (s.unit 0).prime ≠ .running ∧
      s.fetch.issue = [] ∧ (awaited 3).unit = 0 ∧
      (s.slot 1).port.inFlight = some (.read 0 [.image 0, .image 7] [0, 7]) ∧
      AnswerHeard (hd 0) 1 0 s ∧ (s.unit 0).station = some (1, (hd 0).src) ∧
      (hear 1 .uplink s).recordOf 0 (awaited 3).id = some (awaited 3) ∧
      ((awaited 3).waiting.filter fun b => decide ((7 : BitVec 32).toNat ≤ b) &&
        decide (b < (7 : BitVec 32).toNat + 1)) ≠ [] ∧
      (∀ r' ∈ (hear 1 .uplink s).fetch.records, r'.id = (awaited 3).id → r' = awaited 3) ∧
      s.fetch.records.find? (fun x => decide (x.id = (awaited 3).id)) = some (awaited 3) ∧
      (awaited 3).phase = .out 100 ∧ reached 100 s.now = true ∧ (awaited 3).waiting ≠ [] ∧
      (s.unitSetup 0).reAskLimit ≤ (awaited 3).reAsk := by
  unfold AnswerHeard; decide

theorem witness_FetchesAsked :
    (Presents 1 0 media ∧ 0 + 8 ≤ media.capacity 0 ∧
      media.resolveAll 0 0 8 = some ([0, 1, 2, 3, 4, 5, 6, 7].map .image) ∧
      (∀ b ∈ [0, 1, 2, 3, 4, 5, 6, 7], b / 8 = 0) ∧ isValid (media.blockAt 0 0) = false ∧
      nextId media.fetch.lastId ∉ media.fetch.records.map (·.id) ∧ media.cache.filter (isLine 0 0) = [] ∧
      media.cache.length < 256) ∧
    (let l : CacheLine := { unit := 0, group := 0 }
     let s := { media with cache := [l] }
     Presents 1 0 s ∧ s.resolveAll 0 0 1 = some [.image 0] ∧ s.cache.filter (isLine 0 0) = [l]) ∧
    (let s := fetching 2
     s.fetch.records.find? (fun x => decide (x.id = (awaited 2).id)) = some (awaited 2) ∧
      (awaited 2).phase = .out 100 ∧ reached 100 s.now = true ∧
      (awaited 2).reAsk < (s.unitSetup (awaited 2).unit).reAskLimit ∧
      0 ∈ (awaited 2).waiting ∧ 7 ∈ (awaited 2).waiting ∧ (∀ b ∈ (awaited 2).waiting, 0 ≤ b ∧ b ≤ 7) ∧
      nextId s.fetch.lastId ∉ (s.fetch.records.filter fun x => decide (x.id ≠ (awaited 2).id)).map (·.id)) ∧
    (fetching 0).lastPorts[(1 : StationId)] ≠ some .chain ∧ ((fetching 0).fetch.records.map (·.id)).Nodup := by
  unfold Presents; decide

/-- `media` with `n` lines of another unit in the cache. -/
def crowded (n : Nat) : State := { media with cache := List.replicate n { unit := 1, group := 9 } }

theorem crowded_facts (n : Nat) (h : 1 ≤ n) :
    Presents 1 0 (crowded n) ∧ (crowded n).resolveAll 0 0 1 = some [.image 0] ∧
      isValid ((crowded n).blockAt 0 0) = false ∧ (crowded n).cache.filter (isLine 0 0) = [] ∧
      (crowded n).cache.length = n ∧ (crowded n).cache.find? replaceable = some { unit := 1, group := 9 } := by
  have e : (crowded n).cache = List.replicate n { unit := 1, group := 9 } := rfl
  have f : List.filter (isLine 0 0) (List.replicate n ({ unit := 1, group := 9 } : CacheLine)) = [] := by
    simp [isLine]
  refine ⟨by unfold Presents; exact ⟨rfl, rfl, rfl, rfl⟩, rfl, ?_, by rw [e, f], by rw [e, List.length_replicate], ?_⟩
  · have : (crowded n).line 0 (0 / 8) = none := by
      rw [State.line, e]
      simp [isLine]
    simp [State.blockAt, this, isValid]
  · obtain ⟨m, rfl⟩ : ∃ m, n = m + 1 := ⟨n - 1, by omega⟩
    rw [e, List.replicate_succ, List.find?_cons_of_pos (by decide)]

/-- A full cache whose least recent line may be replaced. -/
theorem witness_FetchesAsked_full :
    Presents 1 0 (crowded 256) ∧ isValid ((crowded 256).blockAt 0 0) = false ∧
      (crowded 256).cache.filter (isLine 0 0) = [] ∧ 256 ≤ (crowded 256).cache.length ∧
      (crowded 256).cache.find? replaceable = some { unit := 1, group := 9 } :=
  have f := crowded_facts 256 (by decide)
  ⟨f.1, f.2.2.1, f.2.2.2.1, f.2.2.2.2.1.ge, f.2.2.2.2.2⟩

/-! ## Ports and frames -/

/-- A frame of a length, with a bridge message to the bridge's own address. -/
def frame (dst src : Addr) (etype : BitVec 16) (length : Nat) (msg : Message) : Frame :=
  { dst, src, etype, length, payload := .bridge 1 0 0 0 true msg }

/-- A frame of others, of some length. -/
def through (length : Nat) : Frame :=
  { dst := 0x0200000000CC, src := 0x0200000000BB, etype := 0x0800, length, payload := .other [] }

/-- Both ports are UP and the Pass Queue of CHAIN holds `n` frames of 1,024 bytes. -/
def fullChain (n : Nat) : State :=
  { demo with chain := { up := true, pass := List.replicate n (through 1024) } }

theorem witness_FramesSorted :
    let s := fullChain 31
    let own := s.tables.bridge.address
    let good := fun (f : Frame) => f.fcsGood = true ∧ 64 ≤ f.length ∧ f.length ≤ 1522
    ((demo.port .chain).up = false ∧ (s.port .uplink).up = true) ∧
      ({ through 64 with fcsGood := false } : Frame).fcsGood = false ∧
      ((through 63).length < 64 ∧ 1522 < (through 1523).length) ∧
      (good (through 64) ∧ good (through 1522)) ∧
      ((through 64).src ≠ own ∧ (through 64).dst ≠ own ∧ (through 64).dst ≠ s.tables.bridge.group ∧
        (through 64).dst ≠ broadcast) ∧
      (frame 0 own 0 64 .discover).src = own ∧
      (let f := frame own desk 0x0800 64 .discover
       f.src ≠ own ∧ f.dst = own ∧ f.etype ≠ s.tables.bridge.frameType) ∧
      (let f := frame own desk 0x88B5 64 .slotQuery
       good f ∧ f.src ≠ own ∧ f.dst = own ∧ f.etype = s.tables.bridge.frameType ∧
         ({ f with payload := .other [1, 200] } : Frame).payload = .other [1, 200]) := by
  decide

theorem witness_FramesSorted_group :
    let b := demo.tables.bridge
    let sorted := fun dst =>
      let f := frame dst desk 0x88B5 64 .discover
      f.fcsGood = true ∧ 64 ≤ f.length ∧ f.length ≤ 1522 ∧ f.src ≠ b.address ∧ f.dst ≠ b.address ∧
        f.etype = b.frameType ∧ isDiscover f = true
    sorted b.group ∧ sorted (BitVec.allOnes 48) ∧ demo.lookup 0x0200000000BB = none ∧ Taken (hd 0) 1 demo := by
  unfold Taken; decide

theorem witness_RequestsRefused :
    requestOf (.linesQuery (hd 1)) = some (.linesQuery, hd 1) ∧
      requestOf (.messageUnknownKind (hd 1) (.code 0)) = some (.foreign (.code 0), hd 1) ∧
      (requestOf (.discover (hd 1) .bridge) = some (.discover, hd 1) ∧ (hd 1).src ≠ demo.tables.bridge.address) ∧
      demo.lookup 0x0200000000BB = none ∧ demo.lookup (hd 1).src = some 1 ∧
      (let s := { demo with uplink := { demo.uplink with own := List.replicate 24 (demo.ownFrame 0 0 0
         (.notice 0 0 none (.saveDone 0))) } }
       (hear 1 .uplink s).ownRoom .uplink = false) ∧
      (hear 1 .uplink demo).ownRoom .uplink = true ∧ ({ hd 1 with version := 2 } : Header).version ≠ 1 ∧
      isForeign (.foreign .reply) = true ∧
      (64 < 21 + ({ hd 1 with bodyLength := 40 } : Header).bodyLength.toNat + 4 ∧
        ({ hd 1 with bodyLength := 39 } : Header).bodyFits = true) ∧
      (Taken (hd 1) 1 noRights ∧ (noRights.station 1).rights.admin = false) ∧
      (Taken (hd 1) 1 demo ∧ (demo.station 1).rights.admin = true ∧
        0 < (indexRange (.watchAction {})).1 ∧ (indexRange (.watchAction {})).2 ≤ 32) ∧
      let s := { demo with save := some { copy := demo.tables, taken := 0, due := 1500 } }
      Taken (hd 1) 1 s ∧ s.save.isSome = true ∧ entryLength (.profile {}) = true := by
  unfold Taken; decide

/-- The reply that a pending restart waits for. -/
def lastReply : OwnFrame := demo.ownFrame desk 0 7 (.reply .bridgeControl .ok .restartAccepted)

theorem witness_EgressServed :
    let both := { fetching 0 with uplink := { demo.uplink with pass := [through 64], own := [lastReply], share := 4 } }
    let s := { demo with restart := .pending, uplink := { demo.uplink with sending := some (.own lastReply) } }
    (both.uplink.up = true ∧ both.uplink.sending = none ∧ both.tables.bridge.ownShare ≤ both.uplink.share ∧
      (both.fetch.records.map (·.id)).Nodup) ∧
      (3 < both.tables.bridge.ownShare) ∧ (s.uplink.sending = some (.own lastReply) ∧
        sendsRestart s.uplink.sending = true ∧ s.restart = .pending) ∧
      sendsRestart (some (.pass (through 64))) = false := by
  decide

theorem witness_LinksFollowed :
    let s := { demo with restart := .pending, uplink := { demo.uplink with own := [lastReply] } }
    (demo.port .uplink).up = true ∧ (demo.port .chain).up = false ∧ ((fetching 0).port .chain).up = false ∧
      ((fetching 0).fetch.records.map (·.id)).Nodup ∧
      (sendsRestart (demo.port .uplink).sending || (demo.port .uplink).own.any isRestartReply) = false ∧
      (s.port .uplink).up = true ∧ (sendsRestart (s.port .uplink).sending || (s.port .uplink).own.any isRestartReply) = true ∧
      s.restart = .pending := by
  decide

/-! ## Tables -/

theorem witness_EntriesInRange :
    (judgeSlotSetup true {}).isSome = true ∧ (judgeConsole true {}).isSome = true ∧
      (judgeProfile true { tapWidth := 0, holdUp := 60001 }).isSome = true ∧ (judgeWatch true {}).isSome = true ∧
      (judgeUnit true { width := .w16, poly := 0xFFFF, init := 0, finalXor := 0 }).isSome = true ∧
      (judgeRegion true { first := 0x7FFFFFFF, count := 1, kind := .zero }).isSome = true ∧
      (judgeBridge true { address := 0x020000008240, capacity := 5000 }).isSome = true := by
  decide

theorem witness_StationWritten :
    let entry : StationEntry := { valid := true, address := .mac desk, rights := allRights, mask := 1 }
    WriteTaken (hd 0) 1 { index := 1 } (.station entry none) demo ∧ goodStationAddr entry.address = true ∧
      addressTaken demo.tables.stations 1 entry = false ∧
      hasAdmin (upd demo.tables.stations 1 fun _ => entry) = true ∧
      WriteTaken (hd 0) 1 { index := 31 } (.station entry none) demo ∧
      addressTaken demo.tables.stations 31 entry = true ∧
      hasAdmin (upd demo.tables.stations 1 fun _ => {}) = false := by
  unfold WriteTaken Taken; decide

/-- Slot 1 leaves the mask of the entry: its holding ends, or the unit presented for the entry is ejected. -/
theorem witness_StationWritten_ends :
    let entry : StationEntry := { valid := true, address := .mac desk, rights := allRights, mask := 1 }
    (let s := input1 { holder := some 1, count := 5 }
     WriteTaken (hd 0) 1 { index := 1 } (.station entry none) s ∧ (s.slot 1).input.holder = some 1 ∧
       (entry.valid && entry.rights.type && maskHas entry.mask 1) = false ∧
       (∀ j, (s.slot j).input.holder = some 1 → j = 1) ∧ ∀ u, isMediaStation (s.unit u) 1 = false) ∧
    (WriteTaken (hd 0) 1 { index := 1 } (.station entry none) media ∧ addressTaken media.tables.stations 1 entry = false ∧
      isMediaStation (media.unit 0) 1 = true ∧ (media.unit 0).state = .presenting ∧
      (media.unit 0).slot = some 1 ∧ maskHas entry.mask 1 = false ∧ (∀ j, (media.slot j).input.holder ≠ some 1) ∧
      (∀ v, isMediaStation (media.unit v) 1 = true → v = 0) ∧ (media.slot 1).seq.state ≠ .waitGate) := by
  unfold WriteTaken Taken; decide

theorem witness_SlotSetupWritten :
    let off : SlotSetup := { feed := { high := true, enable := false } }
    let low : SlotSetup := { feed := { high := false } }
    let watching : SlotSetup := { matchEnable := true, startState := 511, silenceLimit := 63, pgHigh := false }
    WriteTaken (hd 0) 1 { index := 7 } (.slotSetup off) demo ∧ judgeSlotSetup true off = some off ∧
      (demo.slot 7).lines.feed = true ∧ (demo.setup 7).feed.enable = true ∧ setupForbidden demo 7 off = false ∧
      (demo.slot 7).record.observed ≠ .feedOff ∧
      WriteTaken (hd 0) 1 { index := 7 } (.slotSetup low) demo ∧ judgeSlotSetup true low = some low ∧
      setupForbidden demo 7 low = true ∧
      WriteTaken (hd 0) 1 { index := 7 } (.slotSetup watching) demo ∧
      judgeSlotSetup true watching = some watching ∧ setupForbidden demo 7 watching = false := by
  unfold WriteTaken Taken; decide

theorem witness_EntriesStored :
    let busy := inStep .stepping (record .powerOn .gate []) .standby
    (WriteTaken (hd 0) 1 { index := 7 } (.consoleSetup {}) demo ∧ judgeConsole true {} = some {}) ∧
      (WriteTaken (hd 0) 1 { index := 7 } (.profile {}) demo ∧ judgeProfile true {} = some {} ∧
        profileInUse demo 7 = false) ∧
      (WriteTaken (hd 0) 1 { index := 0 } (.profile {}) busy ∧ profileInUse busy 0 = true) ∧
      WriteTaken (hd 0) 1 { index := 255 } (.classMap 31) demo ∧
      (WriteTaken (hd 0) 1 { index := 511 } (.automaton (List.replicate 32 511)) demo ∧
        ∀ y ∈ List.replicate 32 511, y ≤ 511) := by
  unfold WriteTaken Taken; decide

theorem witness_EntriesStored_media :
    let local7 : Region := { first := 16, count := 1, kind := .local_ }
    WriteTaken (hd 0) 1 { index := 511 } (.stateAction 31) demo ∧
      (WriteTaken (hd 0) 1 { index := 31 } (.watchAction {}) demo ∧ judgeWatch true {} = some {}) ∧
      (WriteTaken (hd 0) 1 { index := 3 } (.unitSetup {}) demo ∧ judgeUnit true {} = some {} ∧
        (demo.unit 3).state = .detached) ∧
      (WriteTaken (hd 0) 1 { index := 0 } (.unitSetup {}) media ∧ (media.unit 0).state ≠ .detached) ∧
      (WriteTaken (hd 0) 1 { index := 63 } (.imageMap (some local7)) demo ∧
        judgeRegion true local7 = some local7 ∧ mapOverlap demo.tables.maps 63 local7 = false ∧
        mapOverlap media.tables.maps 15 local7 = true) ∧
      (WriteTaken (hd 0) 1 { index := 63 } (.imageMap none) demo ∧ (demo.unit (mapUnit 63)).state = .detached) ∧
      (WriteTaken (hd 0) 1 { index := 0 } (.imageMap none) media ∧ (media.unit (mapUnit 0)).state ≠ .detached) ∧
      WriteTaken (hd 0) 1 { index := 0 } (.bridgeSetup demo.tables.bridge) demo ∧
      judgeBridge true demo.tables.bridge = some demo.tables.bridge := by
  refine ⟨?_, ⟨?_, by decide⟩, ⟨?_, by decide, by decide⟩, ⟨?_, by decide⟩, ⟨?_, by decide, by decide, by decide⟩,
    ⟨?_, by decide⟩, ⟨?_, by decide⟩, ?_, by decide⟩ <;> (unfold WriteTaken Taken; decide)

/-! ## Bridge control -/

theorem witness_ControlsTaken :
    (Taken (hd 0) 1 demo ∧ (demo.station 1).rights.admin = true ∧ demo.save = none ∧ demo.restart = .none ∧
      (0 : BitVec 16) = demo.restartCount ∧ (1 : BitVec 16) ≠ demo.restartCount) ∧
    (let s := { demo with restart := .pending }
     Taken (hd 0) 1 s ∧ ¬ (s.save = none ∧ s.restart = .none)) ∧
    (Taken (hd 0) 1 noRights ∧ (noRights.station 1).rights.admin = false) ∧
    let j : SaveJob := { copy := demo.tables, taken := 0, due := 1500 }
    ({ demo with save := some j } : State).save = some j := by
  refine ⟨by unfold Taken; decide, ?_, by unfold Taken; decide, rfl⟩
  exact ⟨by unfold Taken; decide, by decide⟩

theorem witness_RestartTaken :
    let s := { demo with restart := .due, uplink := { up := true } }
    s.restart = .due ∧ rstAsserted (s.slot 1).lines = false := by
  decide

/-! ## Ill-formed commands -/

theorem test_fits : fits32 (2 ^ 32 - 1) = true ∧ fits32 (2 ^ 32) = false ∧ inBody 1482 = true ∧ inBody 1483 = false := by
  decide

theorem test_wellFormed_events :
    Instr.wellFormed (.holdOffExpiry 0 31) = true ∧ Instr.wellFormed (.holdOffExpiry 0 0) = false ∧
      Instr.wellFormed (.holdOffExpiry 0 32) = false ∧ Instr.wellFormed (.fetchDeadline 0) = false ∧
      Instr.wellFormed (.storageRead 0 (2 ^ 32) 1) = false ∧ Instr.wellFormed (.storageRead 0 1 (2 ^ 32)) = false ∧
      Instr.wellFormed (.storageWrite 0 (2 ^ 32) 1) = false ∧ Instr.wellFormed (.storageWrite 0 1 (2 ^ 32)) = false := by
  decide

theorem test_wellFormed_messages :
    inBody (List.replicate 1483 (0 : Byte)).length = false ∧
      Instr.wellFormed (.powerOn (hd 1) (some (2 ^ 32)) []) = false ∧
      Instr.wellFormed (.blockAbsent (hd 1) 1 0 (2 ^ 32) 0) = false ∧
      Instr.wellFormed (.tableRead (hd 1) none (2 ^ 32)) = false ∧
      Instr.wellFormed (.bridgeControlCounters (hd 1) (.port (2 ^ 32)) false) = false ∧
      Instr.wellFormed (.bridgeControlCounters (hd 1) (.slot (2 ^ 32)) false) = false ∧
      Instr.wellFormed (.bridgeControlCounters (hd 1) (.unit (2 ^ 32)) false) = false := by
  refine ⟨by rw [List.length_replicate]; decide, ?_⟩
  decide

theorem test_wellFormed_writes :
    Instr.wellFormed (.tableWriteStation (hd 1) { index := 2 ^ 32 } {}) = false ∧
      Instr.wellFormed (.tableWriteSlotSetup (hd 1) { index := 0 } { pgFilter := 2 ^ 32 }) = false ∧
      Instr.wellFormed (.tableWriteConsoleSetup (hd 1) { index := 0 } { baud := 2 ^ 32 }) = false ∧
      Instr.wellFormed (.tableWriteProfile (hd 1) { index := 0 } { holdUp := 2 ^ 32 }) = false ∧
      Instr.wellFormed (.tableWriteClassMap (hd 1) { index := 0 } (2 ^ 32)) = false ∧
      Instr.wellFormed (.tableWriteAutomaton (hd 1) { index := 0 } [2 ^ 32]) = false ∧
      Instr.wellFormed (.tableWriteStateAction (hd 1) { index := 0 } (2 ^ 32)) = false ∧
      Instr.wellFormed (.tableWriteWatchAction (hd 1) { index := 0 } { holdOff := 2 ^ 32 }) = false ∧
      Instr.wellFormed (.tableWriteUnitSetup (hd 1) { index := 0 } { overlayLimit := 2 ^ 32 }) = false ∧
      Instr.wellFormed (.tableWriteImageMap (hd 1) { index := 0 }
        (some { first := 2 ^ 32, count := 1, kind := .zero })) = false ∧
      Instr.wellFormed (.tableWriteBridgeSetup (hd 1) { index := 0 } { address := 0, spacing := 2 ^ 32 }) = false := by
  decide

theorem test_wellFormed_frames :
    (frame 0 0 0 24 .discover).fits = false ∧ (frame 0 0 0 25 .discover).fits = true ∧
      (frame 0 0 0 64 (.tableRead none (2 ^ 32))).fits = false ∧
      (frame 0 0 0 64 (.bridgeControl (.counters (.slot (2 ^ 32)) true))).fits = false ∧
      Instr.wellFormed (.frameReceived .chain { through 18 with payload := .other [0] }) = false ∧
      (through 18).fits = true ∧ (hd 1).fits = true ∧ ({ hd 1 with frameLength := 24 } : Header).fits = false ∧
      ({ hd 1 with bodyLength := 1 } : Header).fitsBare = false := by
  decide

/-- No row of the table gives bits. -/
theorem test_decode : decodeTableWord 32 1 = none ∧ decodeTableWord 0 0 = none := by decide

theorem test_withFetchWord : (demo.withFetchWord 8 1).pending = [] := by decide

/-! ## The bridge's arithmetic, against the figures of the manual -/

/-- The bytes of "123456789". -/
def digits : List Byte := [0x31, 0x32, 0x33, 0x34, 0x35, 0x36, 0x37, 0x38, 0x39]

/-- The two results that R173 gives. -/
theorem test_crc :
    crc (0x04C11DB7 : BitVec 32) 0xFFFFFFFF true 0xFFFFFFFF digits = 0xCBF43926 ∧
      crc (0x1021 : BitVec 16) 0xFFFF false 0 digits = 0x29B1 := by
  decide +kernel

/-- Chapter 7's two feed restores: the contributions at 666, 667, 1000 and 1667. -/
theorem test_contribution :
    contribution (feed180 2) 666 = 121 ∧ contribution (feed180 2) 667 = 120 ∧
      contribution (feed180 2) 1000 = 90 ∧ contribution { feed180 5 with start := 667 } 1000 = 151 ∧
      contribution { feed180 2 with charge := 40, settle := 800, start := 1000 } 1667 = 7 ∧
      contribution (feed180 2) 2000 = 0 := by
  decide

/-- Chapter 2's reading across the wrap: the window, and positions from before the wrap. -/
theorem test_window :
    let h : History := { next := 200204, retained := 131072 }
    oldest h = 69132 ∧ oldest { h with next := 204 } = 4294836428 ∧
      inInterval (oldest h) h.next 204 = false ∧ oldest h - 4294967000 = 69428 ∧
      offsetStart h 150000 (-200) = 149800 ∧ ringPlace 4294967200 = 130976 := by
  decide +kernel

theorem test_clamp : clamp 10 2000 5 = 10 ∧ clamp 10 2000 2001 = 2000 ∧ bump 0xFFFFFFFF = 0xFFFFFFFF ∧
    bumpBy 3 0xFFFFFFFE = 0xFFFFFFFF := by decide

/-! ## Commands, each one step from a small state -/

theorem test_powerUp : (after .powerUp media).poolFree = 4096 ∧ (after .powerUp media).noticeNumber = 1 ∧
    (after .powerUp media).uplink.up = false := by decide

/-- Chapter 11: the restart loads the saved tables and counts from 3 to 4. -/
theorem test_bridgeRestart :
    let s := { demo with restart := .due, restartCount := 3, noticeNumber := 41, store := some demo.tables }
    (after .bridgeRestart s).restartCount = 4 ∧ (after .bridgeRestart s).noticeNumber = 1 ∧
      (after .bridgeRestart s).lastPorts[1] = none := by decide +kernel

/-- A sequence that a restart ends is HALTED BRIDGE_RESTART (R100). -/
theorem test_bridgeRestart_halts :
    let s := inStep .stepping (record .powerOn .expectHigh []) .standby
    ((after .bridgeRestart { s with restart := .due }).slot 1).seq.state = .halted .bridgeRestart := by
  decide +kernel

/-- Even parity over 7 data bits: 41 hexadecimal has two marks, so a parity bit at mark is an error. -/
theorem test_character_parity :
    let s := slot1 fun x => { x with rx := .reception seven false }
    ((after (.consoleCharacterReceived 1 0x41 true true) s).slot 1).counters.parityErrors = 1 ∧
      ((after (.consoleCharacterReceived 1 0x41 false true) s).slot 1).counters.parityErrors = 0 ∧
      ((after (.consoleCharacterReceived 1 0x41 true true) s).slot 1).hist.ring = [(0, 0x41)] := by
  decide +kernel

/-- Chapter 4: the seventh byte of "papanic" brings state 4 to 5, whose action 1 fires. -/
theorem test_character_match :
    let t := walking fun m => { m with state := 4 }
    ((after (.consoleCharacterReceived 1 0x63 true true) t).slot 1).matcher.state = 0 ∧
      ((after (.consoleCharacterReceived 1 0x63 true true) t).slot 1).matcher.holdOffs = [(1, some 300000)] ∧
      (((after (.consoleCharacterReceived 1 0x63 true true) t).slot 1).hist.markers.map (·.position)) = [20007] := by
  decide +kernel

theorem test_returnToMark :
    let s := slot1 fun x => { x with rx := .reception {} true }
    ((after (.rxReturnToMark 1) s).slot 1).counters.framingErrors = 1 ∧
      ((after (.rxReturnToMark 1) s).slot 1).hist.next = 1 := by decide

/-- R23: a line that stays at space after a framing error is a break too, and one break is taken once. -/
theorem test_breakDetected :
    let s := slot1 fun x => { x with rx := .reception {} true }
    let t := slot1 fun x => { x with rx := .needMark true }
    ((after (.breakDetected 1) s).slot 1).hist.next = 0 ∧ ((after (.breakDetected 1) s).slot 1).counters.breaks = 1 ∧
      ((after (.breakDetected 1) t).slot 1).counters.breaks = 1 ∧
      ((after (.breakDetected 1) (after (.breakDetected 1) t)).slot 1).counters.breaks = 1 := by
  decide

/-- Chapter 6: the tenth silent tick makes the timer terminal. -/
theorem test_silenceTick :
    ((after (.silenceTick 1) (silent 9 0)).slot 1).silence = { count := 10, terminal := true } ∧
      ((after (.silenceTick 1) (silent 8 0)).slot 1).silence = { count := 9 } := by decide

theorem test_silenceTerminal :
    ((after (.silenceTerminal 1) (silent 8 0)).slot 1).silence = { count := 8 } ∧
      ((after (.silenceTerminal 1) (silent 9 0)).slot 1).counters.silences = 1 := by decide

theorem test_holdOffExpiry :
    ((after (.holdOffExpiry 1 31) (silent 0 99)).slot 1).matcher.holdOffs = [(31, some 100)] ∧
      ((after (.holdOffExpiry 1 31) (silent 0 100)).slot 1).matcher.holdOffs = [] := by decide

/-- Chapter 4: a second start in the window counts 2, and a third request is declined. -/
theorem test_recoveryRequestTaken :
    ((after (.recoveryRequestTaken 1) (armed .reset 1)).slot 1).recovery.window =
        some { start := 0, count := 2, closes := 100 } ∧
      ((after (.recoveryRequestTaken 1) (armed .reset 2)).slot 1).counters.recoveriesDeclined = 1 ∧
      ((after (.recoveryRequestTaken 1) (armed .reset 2)).slot 1).record.pendingCause = none := by decide

theorem test_recoveryWindowClose :
    ((after (.recoveryWindowClose 1) (silent 0 100)).slot 1).recovery.window = none := by decide

theorem test_txByteFinished :
    let s := input1 { tx := .byte 65 9600 [], items := [.brk 500, .byte 66] }
    ((after (.txByteFinished 1) s).slot 1).input.tx = .breakSpace 600 ∧
      ((after (.txByteFinished 1) s).slot 1).input.items = [.byte 66] := by decide

theorem test_breakItemDeadline :
    ((after (.breakItemDeadline 1) (input1 { tx := .breakSpace 100 })).slot 1).input.tx = .breakMark 115200 ∧
      ((after (.breakItemDeadline 1) (input1 { tx := .breakSpace 101 })).slot 1).input.tx = .breakSpace 101 := by
  decide

theorem test_breakItemFinished :
    ((after (.breakItemFinished 1) (input1 { tx := .breakMark 9600 })).slot 1).input.tx = .idle := by decide

/-- Chapter 3: the idle deadline clears the holder and leaves the input count. -/
theorem test_holderIdleExpiry :
    let s := input1 { holder := some 7, count := 9, idleDue := some 100 }
    ((after (.holderIdleExpiry 1) s).slot 1).input = { count := 9 } := by decide

theorem test_pgRawChange :
    ((after (.pgRawChange 1 true) (lines1 id)).slot 1).pg = { pin := true, due := some 105 } := by decide

/-- Chapter 1: a PG rise is a boot, attributed to the pending cause. -/
theorem test_pgFilterExpiry :
    let s := lines1 fun x => { x with
      pg := { pin := true, due := some 100 }
      record := { x.record with bootCount := 24, pendingCause := some .recoverySilence } }
    ((after (.pgFilterExpiry 1) s).slot 1).record =
      { observed := .on, bootCount := 25, lastCause := .recoverySilence, causeSet := { recoverySilence := true } } := by
  decide

/-- Chapter 5: a press at 0 has its deadlines at 50 and 10,000. -/
theorem test_buttonPressEdge :
    ((after (.buttonPressEdge 2 .pwr) demo).slot 2).pwrBtn.state =
      .pending { time := 0, limits := {}, glitchDue := 50, stuckDue := 10000 } := by decide

/-- A press of exactly the hold threshold is a HOLD (R88). -/
theorem test_buttonReleaseEdge :
    let s := { lines1 (fun x => { x with pwrBtn := { pressed := true, state := .passing press } }) with now := 3050 }
    (((after (.buttonReleaseEdge 1 .pwr) s).slot 1).hist.markers.map (·.detail)) = [.localPress .pwr .hold] := by
  decide

theorem test_glitchDeadline :
    ((after (.glitchDeadline 1 .rst) (running (pressing id))).slot 1).record.resetWhileOn = true ∧
      ((after (.glitchDeadline 1 .rst) (running (pressing id))).slot 1).lines.rstLocal = true := by decide

/-- Chapter 5: a stuck RST_IN press on a running server is a boot, and the output is released. -/
theorem test_stuckDeadline :
    let s := running (lines1 fun x => { x with
      lines := { x.lines with rstLocal := true }
      rstBtn := { pressed := true, state := .passing press } })
    let t := s.modSlot 1 fun x => { x with
      record := { x.record with resetWhileOn := true, pendingCause := some .localButton } }
    ((after (.stuckDeadline 1 .rst) t).slot 1).record.bootCount = 42 ∧
      ((after (.stuckDeadline 1 .rst) t).slot 1).record.lastCause = .localButton ∧
      ((after (.stuckDeadline 1 .rst) t).slot 1).rstBtn.state = .stuck press none := by decide

theorem test_lastAssertAgeOut :
    let s := { slot1 (fun x => { x with log := { x.log with lastPg := some 0, lastPwrIn := some 1 } }) with
      now := 0x80000000 }
    ((after (.lastAssertAgeOut 1) s).slot 1).log = { lastPwrIn := some 1 } := by decide

/-- Chapter 5: the tap ends and EXPECT_HIGH waits 15 s. -/
theorem test_pressDeadline :
    let s := inStep .stepping (record .powerOn (.press .start) [.expectHigh]) .standby
    (((after (.pressDeadline 1) s).slot 1).seq.record.map fun r => (r.current, r.deadline)) =
      some (.expectHigh, some 15100) := by decide

/-- Chapter 1: the end of the reset width releases RST_OUT on a running server, which is a boot. -/
theorem test_dwellDeadline :
    let s := (inStep .stepping (record .reset (.dwell .reset) [.gate, .releaseRst]) .on).modSlot 1 fun x => { x with
      lines := { x.lines with rstSeq := true }
      record := { x.record with bootCount := 41, resetWhileOn := true, pendingCause := some .operator } }
    ((after (.dwellDeadline 1) s).slot 1).record.bootCount = 42 ∧
      ((after (.dwellDeadline 1) s).slot 1).record.lastCause = .operator ∧
      ((after (.dwellDeadline 1) s).slot 1).seq = {} := by decide

theorem test_expectHighDeadline :
    let s := inStep .stepping (record .powerOn .expectHigh []) .standby
    ((after (.expectHighDeadline 1) s).slot 1).seq.state = .halted .pgTimeout := by decide

/-- Chapter 6: a soft off that escalates holds the button for the hold width. -/
theorem test_expectLowDeadline :
    let s := inStep .stepping (record .cycleSoft (.expectLow true) [.dwell .off, .powerOnTail]) .on
    (((after (.expectLowDeadline 1) s).slot 1).seq.record.map fun r => (r.current, r.deadline, r.escalated)) =
      some (.hold, some 6100, true) := by decide

theorem test_gateWaitDeadline :
    let s := profile0 (fun p => { p with gate := .wait, startCharge := 0 })
      (inStep .waitGate (record .powerOn .gate [.press .start, .expectHigh]) .standby)
    (((after (.gateWaitDeadline 1) s).slot 1).seq.record.map (·.gate)) = some (some .waived) := by decide

/-- Chapter 7: with capacity 300 the second feed of 180 starts at 667, not at 666. -/
theorem test_inrushEvaluation :
    let w : Waiting := { slot := 1, kind := .feedRestore, charge := 180, settle := 2000 }
    let s := { inStep .waitBudget (record .cycleFeed .feedRestore []) .feedOff with
      inrush := { last := some 0, queue := [w], active := [feed180 2] }
      tables := { demo.tables with bridge := { demo.tables.bridge with capacity := 300 } } }
    (after .inrushEvaluation { s with now := 666 }).inrush.queue = [w] ∧
      (after .inrushEvaluation { s with now := 667 }).inrush.queue = [] ∧
      (after .inrushEvaluation { s with now := 667 }).inrush.last = some 667 := by decide

theorem test_inrushUnitUpkeep :
    let s := { demo with now := 5000, inrush := { last := some 0, active := [feed180 2] } }
    (after .inrushUnitUpkeep s).inrush = {} := by decide

theorem test_coldMarkSet :
    let s := { slot1 (fun x => { x with record := { x.record with feedDropped := some 0 } }) with now := 60000 }
    ((after (.coldMarkSet 1) s).slot 1).coldMark = true := by decide

/-- What the port of slot 1 has told its server of completed requests. -/
def told (s : State) : List ServerOut := (s.slot 1).port.out

theorem test_storageCheck :
    told (after (.storageCheck 1) media) = [.done .check .good] ∧
      told (after (.storageCheck 1) demo) = [.done .check .notPresent] := by decide

theorem test_storageCapacity :
    told (after (.storageCapacity 1) media) = [.capacity 146 512, .done .capacity .good] := by decide

/-- A read of an EMPTY image block asks for it and waits. -/
theorem test_storageRead :
    ((after (.storageRead 1 2 1) media).fetch.records.map fun r => (r.first, r.count, r.waiting)) = [(2, 1, [2])] ∧
      told (after (.storageRead 1 0 129) media) = [.done .read .range] ∧
      told (after (.storageRead 1 145 1) media) = [.done .read .mediumError] := by decide

/-- Chapter 8: a write over a new and a written LBA reserves for the new one only. -/
theorem test_storageWrite :
    (after (.storageWrite 1 9 2) media).poolFree = 4094 ∧
      told (after (.storageWrite 1 7 2) media) = [.done .write .protected_] := by decide

theorem test_storageWriteData :
    let s := (withRequest (.write 10 1)).modUnit 0 fun m => { m with reserved := 1 }
    told (after (.storageWriteDataBlock 1 zeroBlock) s) = [.done .write .good] ∧
      ((after (.storageWriteDataBlock 1 zeroBlock) s).unit 0).overlay.map (·.1) = [9, 10] := by decide

theorem test_serverAbort :
    let s := (withRequest (.write 10 3)).modUnit 0 fun m => { m with reserved := 3 }
    (after (.serverAbort 1) s).poolFree = 4098 ∧ told (after (.serverAbort 1) s) = [] := by decide

/-- Chapter 9: at its limit a record fails, below it the next id asks again. -/
theorem test_fetchDeadline :
    ((after (.fetchDeadline 5) (fetching 2)).fetch.records.map fun r => (r.id, r.reAsk)) = [(6, 3)] ∧
      (after (.fetchDeadline 5) (fetching 3)).fetch.records = [] ∧
      told (after (.fetchDeadline 5) (fetching 3)) = [.done .read .mediumError] := by decide

theorem test_linkUp : (after (.linkUp .chain) demo).chain.up = true := by decide

theorem test_linkDown :
    let s := { demo with uplink := { demo.uplink with own := [lastReply], pass := [through 64] } }
    (after (.linkDown .uplink) s).uplink.counters.flushed = 2 ∧ (after (.linkDown .uplink) s).uplink.own = [] := by decide

theorem test_frameReceived :
    ((after (.frameReceived .uplink (through 1024)) (fullChain 31)).chain.pass.length = 32) ∧
      ((after (.frameReceived .uplink (through 1025)) (fullChain 31)).chain.counters.passDrop = 1) := by decide

/-- The bodies in the Own Queue of UPLINK. -/
def bodies (s : State) : List OwnBody := s.uplink.own.map (·.body)

theorem test_unknownKind :
    bodies (after (.messageUnknownKind (hd 0) .notice) demo) = [.reply (.foreign .notice) .unsupported .none] := by
  decide

theorem test_egressChoice :
    let s := { demo with uplink := { demo.uplink with pass := [through 64], own := [lastReply], share := 4 } }
    (after (.egressChoice .uplink) s).uplink.pass = [] ∧ (after (.egressChoice .uplink) s).uplink.share = 5 := by decide

theorem test_frameSent :
    let s := { demo with restart := .pending, uplink := { demo.uplink with sending := some (.own lastReply) } }
    (after (.frameSent .uplink) s).restart = .due ∧ (after (.frameSent .uplink) s).uplink.counters.sent = 1 := by decide

theorem test_discover :
    bodies (after (.discover (hd 0) .bridge) demo) = [.reply .discover .ok (.discover (discoverReport demo 1))] ∧
      (after (.discover (hd 0) .group) { demo with chain := { up := true } }).chain.pass.length = 1 ∧
      (after (.discover (hd 0) .group) asBridge).frameCounters.selfSource = 1 := by decide

theorem test_slotQuery :
    bodies (after (.slotQuery (hd 0)) demo) = [.reply .slotQuery .range .none] ∧
      bodies (after (.slotQuery (hd 0x80)) demo) =
        [.reply .slotQuery .ok (.slotQuery 0 [(7, some (slotReport demo 7))])] := by decide

theorem test_slotClear :
    bodies (after (.slotClear (hd 2)) noRights) = [.reply .slotClear .ok (.slotClear [(1, .denied)])] ∧
      bodies (after (.slotClear (hd 2)) demo) = [.reply .slotClear .ok (.slotClear [(1, .ok)])] := by decide

/-- What a CONSOLE_READ answers: the start, GAP, the lost count and how many bytes. -/
def readOut (s : State) : List (Pos × Bool × BitVec 32 × Nat) :=
  (bodies s).filterMap fun b => match b with
    | .reply _ .ok (.read r) => some (r.start, r.gap, r.lost, r.data.length)
    | _ => none

theorem test_readAbsolute :
    readOut (after (.consoleReadAbsolute (hd 1) 8 1) (read1 none)) = [(8, false, 0, 1)] ∧
      readOut (after (.consoleReadAbsolute (hd 1) 5 1024) (read1 none)) = [(6, true, 1, 4)] := by decide +kernel

theorem test_readCursor :
    readOut (after (.consoleReadCursor (hd 1) 3) (read1 (some 4))) = [(6, true, 2, 3)] ∧
      (after (.consoleReadCursor (hd 1) 3) (read1 (some 4))).cursor 1 1 = some 9 ∧
      (after (.consoleReadCursor (hd 1) 0) (read1 (some 4))).cursor 1 1 = some 4 := by decide +kernel

theorem test_readMarker :
    readOut (after (.consoleReadMarker (hd 1) (.byNumber 3) 0xFFFF 2) (read1 none)) = [(7, false, 0, 2)] ∧
      readOut (after (.consoleReadMarker (hd 1) (.latest .breakIn) 9 2) (read1 none)) = [(10, false, 0, 0)] := by
  decide +kernel

theorem test_historyClear :
    ((after (.historyClear (hd 1)) (read1 none)).slot 1).hist.retained = 0 ∧
      ((after (.historyClear (hd 1)) (read1 none)).slot 1).hist.next = 10 := by decide

theorem test_holdTake :
    ((after (.consoleHoldTake (hd 1)) (input1 {})).slot 1).input = { holder := some 1, idleDue := some 600100 } ∧
      ((after (.consoleHoldTake (hd 1)) (input1 { holder := some 2 })).slot 1).input.holder = some 2 := by decide

theorem test_holdForce :
    ((after (.consoleHoldForce (hd 1)) (input1 { holder := some 2, count := 300 })).slot 1).input =
      { holder := some 1, count := 0, idleDue := some 600100 } := by decide

theorem test_holdRelease :
    ((after (.consoleHoldRelease (hd 1)) (input1 (queued 0))).slot 1).input = { count := 5 } := by decide

theorem test_holdRenew :
    ((after (.consoleHoldRenew (hd 1)) (input1 (queued 0))).slot 1).input.idleDue = some 600100 := by decide

/-- The transmitter takes the first byte at once; a stale quote queues nothing. -/
theorem test_consoleWrite :
    ((after (.consoleWrite (hd 1) 5 2 [65, 66]) (input1 (queued 0))).slot 1).input.items = [.byte 66] ∧
      ((after (.consoleWrite (hd 1) 5 2 [65, 66]) (input1 (queued 0))).slot 1).input.count = 7 ∧
      ((after (.consoleWrite (hd 1) 4 2 [65, 66]) (input1 (queued 0))).slot 1).input.count = 5 ∧
      bodies (after (.consoleWrite (hd 1) 5 3 [65, 66]) (input1 (queued 0))) =
        [.reply .consoleWrite .malformed (.write 0 5 256)] := by decide

theorem test_consoleBreak :
    ((after (.consoleBreak (hd 1) 5 3000) (input1 (queued 0))).slot 1).input.tx = .breakSpace 2100 := by decide

theorem test_linesQuery :
    bodies (after (.linesQuery (hd 8)) demo) = [.reply .linesQuery .range .none] ∧
      bodies (after (.linesQuery (hd 7)) demo) = [.reply .linesQuery .ok (.lines (linesReport demo 7))] := by decide

/-- The outcomes of a POWER request. -/
def outcomes (s : State) : List (SlotId × PowerOutcome) :=
  (bodies s).flatMap fun b => match b with
    | .reply _ .ok (.power l) => l
    | _ => []

theorem test_powerOn :
    outcomes (after (.powerOn (hd 2) none [none]) demo) = [(1, .ok .stepping)] ∧
      (after (.powerOn (hd 2) none [none]) demo).inrush.active.map (·.charge) = [40] := by decide

theorem test_powerOffSoft :
    ((after (.powerOffSoft (hd 2) none [none]) (running demo)).slot 1).lines.pwrSeq = true := by decide

theorem test_powerOffHard :
    (((after (.powerOffHard (hd 2) none [none]) (running demo)).slot 1).seq.record.map (·.deadline)) =
      some (some 6000) := by decide

/-- Chapter 1: RESET with a quote of the boot count; a stale quote is answered with the count. -/
theorem test_powerReset :
    outcomes (after (.powerReset (hd 2) none [some 41]) (running demo)) = [(1, .ok .stepping)] ∧
      outcomes (after (.powerReset (hd 2) none [some 40]) (running demo)) = [(1, .stale 41)] ∧
      ((after (.powerReset (hd 2) none [some 41]) (running demo)).slot 1).record.resetWhileOn = true := by decide

theorem test_powerCycleSoft :
    outcomes (after (.powerCycleSoft (hd 2) none [none]) (running demo)) = [(1, .stateQuoteRequired)] := by decide

theorem test_powerCycleFeed :
    ((after (.powerCycleFeed (hd 2) none [some 41]) (running demo)).slot 1).lines.feed = false ∧
      ((after (.powerCycleFeed (hd 2) none [some 41]) (running demo)).slot 1).record.observed = .feedOff := by decide

theorem test_powerFeedOff :
    ((after (.powerFeedOff (hd 2) none [none]) demo).slot 1).record.feedDropped = some 0 := by decide

/-- A warm restore charges half: 120 becomes 60 (R125). -/
theorem test_powerFeedOn :
    let s := slot1 fun x => { x with
      lines := { x.lines with feed := false }, record := { observed := .feedOff, feedDropped := some 0 } }
    ((after (.powerFeedOn (hd 2) none [none]) s).inrush.active.map (·.charge)) = [60] ∧
      ((after (.powerFeedOn (hd 2) none [none]) s).slot 1).record.observed = .standby := by decide

theorem test_powerAbort :
    ((after (.powerAbort (hd 2) none [none]) (budgeted [])).slot 1).seq.state = .halted .aborted ∧
      (after (.powerAbort (hd 2) none [none]) (budgeted [])).inrush.queue = [] := by decide

theorem test_mediaBind :
    ((after (.mediaBind (hd 3) 7) demo).unit 3).slot = some 7 ∧
      ((after (.mediaBind (hd 3) 7) demo).unit 3).prime = .done := by decide

/-- Chapter 8: an unbind without a request in flight detaches, and the overlay blocks return; boots left is
not among what R142 changes. -/
theorem test_mediaUnbind :
    let s := media.modUnit 0 fun m => { m with bootsLeft := 3 }
    ((after (.mediaUnbind (hd 0)) s).unit 0).state = .detached ∧
      ((after (.mediaUnbind (hd 0)) s).unit 0).bootsLeft = 3 ∧
      (after (.mediaUnbind (hd 0)) s).poolFree = 4096 := by decide

/-- R191: the header's version at offset 14, and the two bytes of the tag, the most significant first. -/
theorem test_ownFrame_bytes :
    let f := demo.ownFrame desk 2 0x0107 (.reply .discover .ok .none)
    f.bytes[14]? = some 1 ∧ f.bytes[16]? = some 2 ∧ f.bytes[17]? = some 1 ∧ f.bytes[18]? = some 7 := by
  exact ⟨rfl, rfl, rfl, rfl⟩

/-- R160: one event that delivers from group 10 and then from group 0 leaves group 10 the more recent. -/
theorem test_touch_order :
    let s := { media with cache := [{ unit := 0, group := 0 }, { unit := 0, group := 10 }, { unit := 0, group := 3 }] }
    (touchLines 0 [80, 0] s).cache.map (·.group) = [3, 0, 10] := by decide

theorem test_mediaQuery :
    bodies (after (.mediaQuery (hd 4)) media) = [.reply .mediaQuery .range .none] ∧
      bodies (after (.mediaQuery (hd 0)) media) = [.reply .mediaQuery .ok (.media (mediaReport media 0))] := by decide

theorem test_blockData :
    ((after (.blockData (hd 0) 5 0 0 zeroBlock) (fetching 0)).fetch.records.map (·.waiting)) = [[7]] ∧
      ((after (.blockData (hd 0) 5 0 0 zeroBlock) (fetching 0)).unit 0).counters.delivered = 1 ∧
      (after (.blockData (hd 0) 6 0 0 zeroBlock) (fetching 0)).fetch.counters.stale = 1 := by decide

theorem test_blockAbsent :
    told (after (.blockAbsent (hd 0) 5 7 1 3) (fetching 0)) = [.done .read .mediumError] ∧
      ((after (.blockAbsent (hd 0) 5 7 1 3) (fetching 0)).fetch.records.map (·.waiting)) = [[0]] := by decide

/-- The last entry with ADMIN cannot go (R183). -/
theorem test_writeStation :
    (bodies (after (.tableWriteStation (hd 0) { index := 1 } {}) demo)).length = 1 ∧
      (after (.tableWriteStation (hd 0) { index := 1 } {}) demo).tables.stations[1].valid = true := by decide

theorem test_writeSlotSetup :
    ((after (.tableWriteSlotSetup (hd 0) { index := 1 } { pgFilter := 99, windowHours := 0 }) demo).setup 1).pgFilter = 50 ∧
      ((after (.tableWriteSlotSetup (hd 0) { index := 1 } { pgFilter := 99, windowHours := 0 }) demo).setup 1).windowHours = 1 := by
  decide

theorem test_writeConsoleSetup :
    ((after (.tableWriteConsoleSetup (hd 0) { index := 1 } { baud := 9600 }) demo).console 1).baud = 9600 ∧
      bodies (after (.tableWriteConsoleSetup (hd 0) { index := 1 } { baud := 9601 }) demo) =
        [.reply .tableWrite .range .none] := by decide

theorem test_writeProfile :
    ((after (.tableWriteProfile (hd 0) { index := 0 } { tapWidth := 300 }) demo).profile 0).tapWidth = 300 ∧
      bodies (after (.tableWriteProfile (hd 0) { index := 0 } { tapWidth := 300 })
        (inStep .stepping (record .powerOn .gate []) .standby)) = [.reply .tableWrite .state .none] := by decide

theorem test_writeClassMap :
    (after (.tableWriteClassMap (hd 0) { index := 0x63 } 5) demo).tables.classMap = [(0x63, 5)] ∧
      bodies (after (.tableWriteClassMap (hd 0) { index := 0x63 } 32) demo) = [.reply .tableWrite .range .none] := by
  decide

theorem test_writeAutomaton :
    bodies (after (.tableWriteAutomaton (hd 0) { index := 0 } [1]) demo) = [.reply .tableWrite .malformed .none] := by
  decide

theorem test_writeStateAction :
    (after (.tableWriteStateAction (hd 0) { index := 5 } 1) demo).tables.stateAction = [(5, 1)] := by decide

theorem test_writeWatchAction :
    bodies (after (.tableWriteWatchAction (hd 0) { index := 0 } {}) demo) = [.reply .tableWrite .range .none] ∧
      ((after (.tableWriteWatchAction (hd 0) { index := 31 } { holdOff := 4000 }) demo).tables.watch.map fun w =>
        w.2.holdOff) = [3600] := by decide

theorem test_writeUnitSetup :
    bodies (after (.tableWriteUnitSetup (hd 0) { index := 0 } {}) media) = [.reply .tableWrite .state .none] ∧
      ((after (.tableWriteUnitSetup (hd 0) { index := 3 } { reAskLimit := 9 }) demo).unitSetup 3).reAskLimit = 7 := by
  decide

theorem test_writeImageMap :
    ((after (.tableWriteImageMap (hd 0) { index := 63 } (some { first := 2, count := 0, kind := .zero })) demo).capacity 3) = 3 ∧
      bodies (after (.tableWriteImageMap (hd 0) { index := 15 } none) media) = [.reply .tableWrite .state .none] := by
  decide

/-- The reply leaves from the address in force before the write. -/
theorem test_writeBridgeSetup :
    let s := after (.tableWriteBridgeSetup (hd 0) { index := 0 } { address := 0x020000000001 }) demo
    s.tables.bridge.address = 0x020000000001 ∧ s.uplink.own.map (·.src) = [0x020000008240] := by decide

theorem test_tableRead :
    bodies (after (.tableRead (hd 0) (some .profile) 8) demo) = [.reply .tableRead .range .none] ∧
      bodies (after (.tableRead (hd 0) (some .station) 1) demo) =
        [.reply .tableRead .ok (.table (.station (demo.station 1) (some .uplink)))] := by decide

theorem test_save :
    (after (.bridgeControlSave (hd 0)) demo).save.isSome = true ∧
      (after (.bridgeControlSave (hd 0)) { demo with store := some demo.tables }).store.isNone = true := by decide

theorem test_saveComplete :
    (after .saveComplete { demo with save := some { copy := demo.tables, taken := 0, due := 1500 } }).store.isSome =
      true := by decide

/-- Chapter 11: a quote of the old count is STALE. -/
theorem test_restart :
    (after (.bridgeControlRestart (hd 0) 0) demo).restart = .pending ∧
      bodies (after (.bridgeControlRestart (hd 0) 1) demo) = [.reply .bridgeControl .stale (.restartStale 0)] := by decide

theorem test_counters :
    let s := { demo with frameCounters := { wrongType := 3 } }
    bodies (after (.bridgeControlCounters (hd 0) .frame true) s) =
        [.reply .bridgeControl .ok (.counters (.frame { wrongType := 3 }))] ∧
      (after (.bridgeControlCounters (hd 0) .frame true) s).frameCounters = {} := by decide

theorem test_startBit :
    ((after (.startBitDetected 1) (slot1 fun x => { x with rx := .waiting })).slot 1).rx = .reception {} false ∧
      ((after (.startBitDetected 1) demo).slot 1).rx = .needMark false := by decide

theorem test_rxLineAtMark : ((after (.rxLineAtMark 1) demo).slot 1).rx = .waiting := by decide

end Sys2Proof.Tests
end

section
/-! PROOFS. SLOT_CLEAR: what its visit of the slots of a mask answers and leaves (R15, R17). -/

namespace Sys2Proof.Machine

open Sys2Proof

/-! ## Masks, rights and the place of a reply -/

@[simp] theorem mem_slotsOf {m : BitVec 8} {i : SlotId} : i ∈ slotsOf m ↔ maskHas m i = true := by
  simp [slotsOf]

/-- Rights are read from the Station Table alone (R180). -/
theorem holdsOn_of_tables_eq {s t : State} (h : t.tables = s.tables) (e : StationId) (right : Rights → Bool)
    (i : SlotId) : t.holdsOn e right i = s.holdsOn e right i := by
  simp only [State.holdsOn, State.station, h]

/-- A reply enters its place whatever the slots hold. -/
theorem fillReply_with_slots {p : Port} {n : Nat} {k : MsgKind} {x : Status × ReplyData} {s : State}
    {v : Vector Slot 8} :
    fillReply p n k (x, { s with slots := v }) = { fillReply p n k (x, s) with slots := v } := by
  cases p <;> rfl

/-- A request over a mask that is not empty answers with the outcome of each slot (R15). -/
theorem overMask_taken {α : Type} {h : Header} {data : List (SlotId × α) → ReplyData}
    {each : SlotId → State → α × State} {s : State} (hb : h.bodyExact = true) (ht : h.target ≠ 0) :
    overMask h data each s =
      ((.ok, data (eachSlot each (slotsOf h.target) s).1), (eachSlot each (slotsOf h.target) s).2) := by
  unfold overMask
  simp only [hb, Bool.not_true, Bool.false_eq_true, if_false]
  rw [if_neg ht]

/-! ## The visit of one slot -/

/-- The entry may clear the boot history of the slot: it holds ADMIN or POWER on it (R17). -/
def mayClear (e : StationId) (s : State) (i : SlotId) : Bool :=
  s.holdsOn e (·.admin) i || s.holdsOn e (·.power) i

/-- The slot with its boot history cleared (R17). -/
def clearedSlot (x : Slot) : Slot := { x with record := { x.record with causeSet := {}, lastCause := .unattributed } }

/-- What SLOT_CLEAR does on one slot of its mask. -/
def clearVisit (e : StationId) (i : SlotId) (s : State) : Status × State :=
  if mayClear e s i then (.ok, clearSlot i s) else (.denied, s)

theorem exec_slotClear (h : Header) (s : State) :
    exec (.slotClear h) s =
      .next (request h .slotClear (fun e s => overMask h .slotClear (clearVisit e) s) s) := rfl

theorem mayClear_of_tables_eq {s t : State} (h : t.tables = s.tables) (e : StationId) :
    mayClear e t = mayClear e s := by
  funext i
  simp only [mayClear, holdsOn_of_tables_eq h]

/-- Neither hearing the station nor taking the place of the reply changes what the entry may clear. -/
theorem mayClear_placed_hear (h : Header) (k : MsgKind) (e : StationId) (p : Port) (s : State) :
    mayClear e (placed h k (hear e p s)) = mayClear e s :=
  mayClear_of_tables_eq (by simp) e

/-- Clearing a slot again changes nothing more, so a visit may find the slot cleared already. -/
@[simp] theorem clearedSlot_idem (x : Slot) : clearedSlot (clearedSlot x) = clearedSlot x := rfl

theorem clearVisit_outcome (e : StationId) (i : SlotId) (s : State) :
    (clearVisit e i s).1 = if mayClear e s i then .ok else .denied := by
  unfold clearVisit
  split <;> rfl

theorem clearVisit_frame (e : StationId) (i : SlotId) (s : State) :
    (clearVisit e i s).2 = { s with slots := (clearVisit e i s).2.slots } := by
  unfold clearVisit
  split <;> rfl

@[simp] theorem clearVisit_tables (e : StationId) (i : SlotId) (s : State) :
    (clearVisit e i s).2.tables = s.tables := by
  rw [clearVisit_frame]

theorem clearVisit_slot (e : StationId) (i j : SlotId) (s : State) :
    (clearVisit e i s).2.slot j = if j = i ∧ mayClear e s i = true then clearedSlot (s.slot j) else s.slot j := by
  unfold clearVisit
  by_cases hm : mayClear e s i = true
  · simp only [hm, if_true, and_true]
    exact modSlot_slot
  · simp [hm]

/-! ## The visit of a list of slots -/

theorem eachSlot_clearVisit_outcomes (e : StationId) (l : List SlotId) (s : State) :
    (eachSlot (clearVisit e) l s).1 = l.map fun i => (i, if mayClear e s i then Status.ok else .denied) := by
  induction l generalizing s with
  | nil => rfl
  | cons i l ih =>
    have later := ih (clearVisit e i s).2
    rw [mayClear_of_tables_eq (clearVisit_tables e i s)] at later
    simp only [eachSlot, List.map_cons, clearVisit_outcome, later]

theorem eachSlot_clearVisit_frame (e : StationId) (l : List SlotId) (s : State) :
    (eachSlot (clearVisit e) l s).2 = { s with slots := (eachSlot (clearVisit e) l s).2.slots } := by
  induction l generalizing s with
  | nil => rfl
  | cons i l ih =>
    exact (ih (clearVisit e i s).2).trans (congrArg
      (fun t => { t with slots := (eachSlot (clearVisit e) (i :: l) s).2.slots }) (clearVisit_frame e i s))

theorem eachSlot_clearVisit_slot (e : StationId) (l : List SlotId) (s : State) (j : SlotId) :
    (eachSlot (clearVisit e) l s).2.slot j =
      if j ∈ l ∧ mayClear e s j = true then clearedSlot (s.slot j) else s.slot j := by
  induction l generalizing s with
  | nil => simp [eachSlot]
  | cons i l ih =>
    have later := ih (clearVisit e i s).2
    rw [mayClear_of_tables_eq (clearVisit_tables e i s), clearVisit_slot] at later
    refine later.trans ?_
    by_cases hj : j = i
    · subst hj
      by_cases hm : mayClear e s j = true <;> simp [hm]
    · simp [hj]

/-! ## SLOT_CLEAR -/

/-- A taken SLOT_CLEAR leaves its reply, and the slots as its visit of them leaves them. -/
theorem slotClear_taken {h : Header} {e : StationId} {s : State} (taken : Taken h e s) (ht : h.target ≠ 0) :
    exec (.slotClear h) s = .next
      { replied h .slotClear .ok (.slotClear ((slotsOf h.target).map fun i =>
          (i, if mayClear e s i then Status.ok else .denied))) (hear e h.port s) with
        slots := (eachSlot (clearVisit e) (slotsOf h.target) (placed h .slotClear (hear e h.port s))).2.slots } := by
  have ⟨_, _, _, _, exactBody⟩ := taken
  rw [exec_slotClear, request_taken taken .slotClear rfl, overMask_taken exactBody ht,
    eachSlot_clearVisit_outcomes, mayClear_placed_hear, eachSlot_clearVisit_frame, fillReply_with_slots,
    fillReply_placed]

/-- Settles O14: each visit clears its slot or denies it by rights that no visit changes, and touches
nothing else, so the visits of a mask act slot by slot. -/
theorem slotClearClears : Obligations.SlotClearClears := by
  unfold Obligations.SlotClearClears
  intro h e s taken ht
  refine ⟨_, slotClear_taken taken ht, rfl, fun i => ?_⟩
  have visited := eachSlot_clearVisit_slot e (slotsOf h.target) (placed h .slotClear (hear e h.port s)) i
  simp only [mayClear_placed_hear, placed_slot, hear_slot, mem_slotsOf,
    ← Bool.and_eq_true] at visited
  exact visited

end Sys2Proof.Machine
end

section
/-! PROOFS. CONSOLE_READ in its three modes and HISTORY_CLEAR: what each answers and leaves (R33 to R39). -/

namespace Sys2Proof.Machine

open Sys2Proof

/-! ## A request for one slot -/

/-- A request whose rule answers with a state whose arrival port is as it was leaves that state with its
reply. -/
theorem request_leaves {h : Header} {e : StationId} {s t : State} (taken : Taken h e s) {k : MsgKind}
    (hk : isForeign k = false) {rule : StationId → State → Answer} {st : Status} {d : ReplyData}
    (answers : rule e (placed h k (hear e h.port s)) = ((st, d), placed h k t))
    (port : t.port h.port = (hear e h.port s).port h.port) :
    request h k rule s = replied h k st d t := by
  rw [request_taken taken k hk rule, answers, ← port, fillReply_placed]

theorem placed_modSlot {h : Header} {k : MsgKind} {s : State} {i : SlotId} {f : Slot → Slot} :
    placed h k (s.modSlot i f) = (placed h k s).modSlot i f := by
  unfold placed
  cases h.port <;> rfl

theorem finOf_eq_some {k n : Nat} {i : Fin k} (hi : i.val = n) : finOf k n = some i := by
  subst hi
  simp [finOf]

theorem finOf_eq_none {k n : Nat} (hn : k ≤ n) : finOf k n = none :=
  dif_neg (Nat.not_lt.mpr hn)

theorem onSlot_named {h : Header} {i : SlotId} (slot : finOf 8 h.target.toNat = some i)
    (rule : SlotId → State → Answer) (s : State) : onSlot h rule s = rule i s := by
  simp only [onSlot, slot]

theorem onSlot_outside {h : Header} (outside : 8 ≤ h.target.toNat) (rule : SlotId → State → Answer) (s : State) :
    onSlot h rule s = refuse .range s := by
  simp only [onSlot, finOf_eq_none outside]

/-- Neither hearing the station nor taking the place of the reply changes a right. -/
theorem holdsOn_placed_hear (h : Header) (k : MsgKind) (e : StationId) (right : Rights → Bool) (i : SlotId)
    (s : State) : (placed h k (hear e h.port s)).holdsOn e right i = s.holdsOn e right i :=
  holdsOn_of_tables_eq (by simp) e right i

/-! ## Cursors -/

@[simp] theorem cursor_placed {h : Header} {k : MsgKind} {s : State} {e : StationId} {i : SlotId} :
    (placed h k s).cursor e i = s.cursor e i := by
  simp only [State.cursor, placed_cursors]

@[simp] theorem cursor_hear {p : Port} {s : State} {d e : StationId} {i : SlotId} :
    (hear d p s).cursor e i = s.cursor e i := by
  simp only [State.cursor, hear_cursors]

@[simp] theorem setCursor_port {e : StationId} {i : SlotId} {c : Pos} {s : State} {p : Port} :
    (setCursor e i c s).port p = s.port p := by
  cases p <;> rfl

theorem placed_setCursor {h : Header} {k : MsgKind} {e : StationId} {i : SlotId} {c : Pos} {s : State} :
    placed h k (setCursor e i c s) = setCursor e i c (placed h k s) := by
  unfold placed
  cases h.port <;> rfl

/-! ## Where a read starts -/

/-- A read from `start`, with the count of the bytes lost before it where some are, and its marker. -/
def readStart (start : Pos) (lost : Option (BitVec 32)) (m : Option Marker) : ReadStart :=
  { start, gap := lost.isSome, lost := lost.getD 0, marker := m }

/-- An ABSOLUTE read starts at its position, or at oldest with GAP, or nowhere (R34). -/
theorem startAbsolute_eq (x : History) (p : Pos) :
    startAbsolute x p =
      if (x.next - p).toNat ≤ x.retained then some (readStart p none none)
      else if (x.next - p).toNat ≤ 2 ^ 31 then some (readStart (oldest x) (some (oldest x - p)) none)
      else none := rfl

theorem startCursor_none (x : History) : startCursor x none = readStart (oldest x) none none := rfl

/-- A CURSOR read starts at the cursor inside the window, else at oldest with GAP (R35). -/
theorem startCursor_some (x : History) (c : Pos) :
    startCursor x (some c) =
      if (c - oldest x).toNat ≤ (x.next - oldest x).toNat then readStart c none none
      else readStart (oldest x) (some (oldest x - c)) none := by
  simp only [startCursor, inInterval, decide_eq_true_eq]
  rfl

theorem startMarker_chosen {x : History} {sel : MarkerSel} {m : Marker} (chosen : chooseMarker x sel = some m)
    (offset : BitVec 16) :
    startMarker x sel offset = some (readStart (offsetStart x m.position offset.toInt) none (some m)) := by
  simp only [startMarker, chosen]
  rfl

theorem startMarker_none {x : History} {sel : MarkerSel} (none_chosen : chooseMarker x sel = none)
    (offset : BitVec 16) : startMarker x sel offset = none := by
  simp only [startMarker, none_chosen, Option.map_none]

theorem knownSel_iff {sel : MarkerSel} : knownSel sel = true ↔ sel ≠ .unknown := by
  cases sel <;> simp [knownSel]

/-- A selector that chooses a marker is known. -/
theorem knownSel_of_chosen {x : History} {sel : MarkerSel} {m : Marker} (chosen : chooseMarker x sel = some m) :
    knownSel sel = true := by
  refine knownSel_iff.mpr fun unknown => ?_
  rw [unknown] at chosen
  exact nomatch chosen

/-! ## What a read answers -/

/-- The answer of a read with a start is OK with the bytes from there (R37). -/
theorem readAnswer_some (i : SlotId) (start : Pos) (lost : Option (BitVec 32)) (m : Option Marker)
    (max : BitVec 16) (s : State) :
    readAnswer i (some (readStart start lost m)) max s =
      ((.ok, readFrom i (s.slot i).hist start lost max m), s) := rfl

/-- The answer of a read without a start is RANGE with the window (R33). -/
theorem readAnswer_none (i : SlotId) (max : BitVec 16) (s : State) :
    readAnswer i none max s = ((.range, .readRange (oldest (s.slot i).hist) (s.slot i).hist.next), s) := rfl

/-- The state after a CURSOR read from `start`: with a max of 1 or more the cursor stands past the bytes
returned (R35). -/
def cursorMoved (e : StationId) (i : SlotId) (x : History) (start : Pos) (max : BitVec 16) (s : State) : State :=
  if max = 0 then s else setCursor e i (start + BitVec.ofNat 32 (readCount x start max)) s

@[simp] theorem cursorMoved_port {e : StationId} {i : SlotId} {x : History} {start : Pos} {max : BitVec 16}
    {s : State} {p : Port} : (cursorMoved e i x start max s).port p = s.port p := by
  unfold cursorMoved
  split_ifs
  · rfl
  · exact setCursor_port

theorem placed_cursorMoved {h : Header} {k : MsgKind} {e : StationId} {i : SlotId} {x : History} {start : Pos}
    {max : BitVec 16} {s : State} :
    placed h k (cursorMoved e i x start max s) = cursorMoved e i x start max (placed h k s) := by
  unfold cursorMoved
  split_ifs
  · rfl
  · exact placed_setCursor

/-- What CURSOR mode does on the slot that it reads (R35). -/
def cursorRule (max : BitVec 16) (e : StationId) (i : SlotId) (s : State) : Answer :=
  let x := (s.slot i).hist
  let r := startCursor x (s.cursor e i)
  let a := readAnswer i (some r) max s
  if max = 0 then a
  else (a.1, setCursor e i (r.start + BitVec.ofNat 32 (readCount x r.start max)) a.2)

theorem exec_consoleReadCursor (h : Header) (max : BitVec 16) (s : State) :
    exec (.consoleReadCursor h max) s =
      .next (request h .consoleRead (fun e s => readRule h true e (cursorRule max e) s) s) := rfl

/-- The answer of CURSOR mode from its start, and the cursor it leaves. -/
theorem cursorRule_from {max : BitVec 16} {e : StationId} {i : SlotId} {s : State} {start : Pos}
    {lost : Option (BitVec 32)}
    (starts : startCursor (s.slot i).hist (s.cursor e i) = readStart start lost none) :
    cursorRule max e i s =
      ((.ok, readFrom i (s.slot i).hist start lost max none), cursorMoved e i (s.slot i).hist start max s) := by
  simp only [cursorRule, starts, readAnswer_some, cursorMoved]
  split_ifs <;> rfl

/-! ## A taken CONSOLE_READ -/

section ReadTaken

variable {h : Header} {e : StationId} {i : SlotId} {s : State} (taken : Taken h e s)
  (slot : finOf 8 h.target.toNat = some i) (mayRead : s.holdsOn e (·.read) i = true)

include taken slot mayRead

/-- With the tests of R33 passed, an unknown mode or selector is UNSUPPORTED and a known one is judged by
its own rule. -/
theorem readRule_granted (known : Bool) (rule : SlotId → State → Answer) :
    let t := placed h .consoleRead (hear e h.port s)
    readRule h known e rule t = if known then rule i t else refuse .unsupported t := by
  obtain ⟨-, -, -, -, exactBody⟩ := taken
  intro t
  have right : t.holdsOn e (·.read) i = true := (holdsOn_placed_hear ..).trans mayRead
  rw [readRule, onSlot_named slot]
  cases known <;> simp [exactBody, right]

/-- A read whose rule leaves the arrival port as it was leaves its reply and what the rule did. -/
theorem read_leaves {known : Bool} (hk : known = true) {rule : StationId → SlotId → State → Answer}
    {st : Status} {d : ReplyData} {t : State}
    (answers : rule e i (placed h .consoleRead (hear e h.port s)) = ((st, d), placed h .consoleRead t))
    (port : t.port h.port = (hear e h.port s).port h.port) :
    request h .consoleRead (fun e s => readRule h known e (rule e) s) s = replied h .consoleRead st d t := by
  refine request_leaves taken rfl ?_ port
  rw [readRule_granted taken slot mayRead, if_pos hk, answers]

/-- A read that has a start in the history of its slot changes nothing but its reply (R37). -/
theorem read_found {known : Bool} (hk : known = true) (starts : History → Option ReadStart) (max : BitVec 16)
    {start : Pos} {lost : Option (BitVec 32)} {m : Option Marker}
    (found : starts (s.slot i).hist = some (readStart start lost m)) :
    request h .consoleRead
        (fun e s => readRule h known e (fun i s => readAnswer i (starts (s.slot i).hist) max s) s) s =
      replied h .consoleRead .ok (readFrom i (s.slot i).hist start lost max m) (hear e h.port s) := by
  refine read_leaves taken slot mayRead hk
    (rule := fun _ i s => readAnswer i (starts (s.slot i).hist) max s) ?_ rfl
  simp only [placed_slot, hear_slot, found, readAnswer_some]

/-- A read that has no start is refused with the window, and changes nothing but its reply (R33). -/
theorem read_not_found {known : Bool} (hk : known = true) (starts : History → Option ReadStart)
    (max : BitVec 16) (missing : starts (s.slot i).hist = none) :
    request h .consoleRead
        (fun e s => readRule h known e (fun i s => readAnswer i (starts (s.slot i).hist) max s) s) s =
      replied h .consoleRead .range (.readRange (oldest (s.slot i).hist) (s.slot i).hist.next)
        (hear e h.port s) := by
  refine read_leaves taken slot mayRead hk
    (rule := fun _ i s => readAnswer i (starts (s.slot i).hist) max s) ?_ rfl
  simp only [placed_slot, hear_slot, missing, readAnswer_none]

/-- An ABSOLUTE read (R34). -/
theorem consoleReadAbsolute_found {p start : Pos} {lost : Option (BitVec 32)} {max : BitVec 16}
    (found : startAbsolute (s.slot i).hist p = some (readStart start lost none)) :
    exec (.consoleReadAbsolute h p max) s = .next
      (replied h .consoleRead .ok (readFrom i (s.slot i).hist start lost max none) (hear e h.port s)) :=
  congrArg Host.Outcome.next (read_found taken slot mayRead rfl (startAbsolute · p) max found)

/-- An ABSOLUTE read of a position that is neither retained nor lost (R34). -/
theorem consoleReadAbsolute_ahead {p : Pos} {max : BitVec 16}
    (missing : startAbsolute (s.slot i).hist p = none) :
    exec (.consoleReadAbsolute h p max) s = .next
      (replied h .consoleRead .range (.readRange (oldest (s.slot i).hist) (s.slot i).hist.next)
        (hear e h.port s)) :=
  congrArg Host.Outcome.next (read_not_found taken slot mayRead rfl (startAbsolute · p) max missing)

/-- A CURSOR read answers from its start and moves the cursor of its entry and slot (R35). -/
theorem consoleReadCursor_from {start : Pos} {lost : Option (BitVec 32)} {max : BitVec 16}
    (starts : startCursor (s.slot i).hist (s.cursor e i) = readStart start lost none) :
    exec (.consoleReadCursor h max) s = .next
      (replied h .consoleRead .ok (readFrom i (s.slot i).hist start lost max none)
        (cursorMoved e i (s.slot i).hist start max (hear e h.port s))) := by
  rw [exec_consoleReadCursor]
  refine congrArg Host.Outcome.next (read_leaves taken slot mayRead rfl ?_ cursorMoved_port)
  have same : startCursor ((placed h .consoleRead (hear e h.port s)).slot i).hist
      ((placed h .consoleRead (hear e h.port s)).cursor e i) = readStart start lost none := by
    simpa only [placed_slot, hear_slot, cursor_placed, cursor_hear] using starts
  rw [cursorRule_from same, placed_cursorMoved, placed_slot, hear_slot]

/-- A MARKER read whose selector chooses a marker (R36). -/
theorem consoleReadMarker_chosen {sel : MarkerSel} {offset max : BitVec 16} {m : Marker}
    (chosen : chooseMarker (s.slot i).hist sel = some m) :
    exec (.consoleReadMarker h sel offset max) s = .next
      (replied h .consoleRead .ok
        (readFrom i (s.slot i).hist (offsetStart (s.slot i).hist m.position offset.toInt) none max (some m))
        (hear e h.port s)) :=
  congrArg Host.Outcome.next (read_found taken slot mayRead (knownSel_of_chosen chosen)
    (startMarker · sel offset) max (startMarker_chosen chosen offset))

/-- A MARKER read whose selector is known and chooses no marker (R36). -/
theorem consoleReadMarker_none {sel : MarkerSel} {offset max : BitVec 16} (known : sel ≠ .unknown)
    (none_chosen : chooseMarker (s.slot i).hist sel = none) :
    exec (.consoleReadMarker h sel offset max) s = .next
      (replied h .consoleRead .range (.readRange (oldest (s.slot i).hist) (s.slot i).hist.next)
        (hear e h.port s)) :=
  congrArg Host.Outcome.next (read_not_found taken slot mayRead (knownSel_iff.mpr known)
    (startMarker · sel offset) max (startMarker_none none_chosen offset))

/-- A MARKER read with an unknown selector (R33). -/
theorem consoleReadMarker_unknown {offset max : BitVec 16} :
    exec (.consoleReadMarker h .unknown offset max) s = .next
      (replied h .consoleRead .unsupported .none (hear e h.port s)) := by
  refine congrArg Host.Outcome.next (request_replied taken rfl ?_)
  rw [readRule_granted taken slot mayRead]
  rfl

end ReadTaken

/-! ## CONSOLE_READ -/

/-- Settles O16: in each mode the clauses are the branches of the mode's start. -/
theorem readsAnswered : Obligations.ReadsAnswered := by
  unfold Obligations.ReadsAnswered
  intro h e i max s taken slot mayRead
  refine ⟨fun p => ⟨fun inside => ?_, fun outside lost => ?_, fun outside ahead => ?_⟩,
    ⟨fun absent => ?_, fun c cursor inside => ?_, fun c cursor outside => ?_⟩,
    fun sel offset => ⟨fun m chosen => ?_, fun known none_chosen => ?_, fun unknown => ?_⟩⟩
  · refine consoleReadAbsolute_found taken slot mayRead ?_
    rw [startAbsolute_eq, if_pos inside]
  · refine consoleReadAbsolute_found taken slot mayRead ?_
    rw [startAbsolute_eq, if_neg (Nat.not_le.mpr outside), if_pos lost]
  · refine consoleReadAbsolute_ahead taken slot mayRead ?_
    rw [startAbsolute_eq, if_neg (Nat.not_le.mpr outside), if_neg (Nat.not_le.mpr ahead)]
  · refine consoleReadCursor_from taken slot mayRead ?_
    rw [absent, startCursor_none]
  · refine consoleReadCursor_from taken slot mayRead ?_
    rw [cursor, startCursor_some, if_pos inside]
  · refine consoleReadCursor_from taken slot mayRead ?_
    rw [cursor, startCursor_some, if_neg (Nat.not_le.mpr outside)]
  · exact consoleReadMarker_chosen taken slot mayRead chosen
  · exact consoleReadMarker_none taken slot mayRead known none_chosen
  · subst unknown
    exact consoleReadMarker_unknown taken slot mayRead

/-! ## HISTORY_CLEAR -/

/-- A history with no byte retained and no marker; next, the marker counter and the ring stay (R39). -/
def clearHistory (i : SlotId) (s : State) : State :=
  s.modSlot i fun x => { x with hist := { x.hist with retained := 0, markers := [] } }

/-- What HISTORY_CLEAR does on its slot (R39). -/
def historyClearRule (h : Header) (e : StationId) (i : SlotId) (s : State) : Answer :=
  if !h.bodyExact then refuse .malformed s
  else if !s.holdsOn e (·.admin) i then refuse .denied s
  else ((.ok, .historyClear ((clearHistory i s).slot i).hist.next), clearHistory i s)

theorem exec_historyClear (h : Header) (s : State) :
    exec (.historyClear h) s =
      .next (request h .historyClear (fun e s => onSlot h (historyClearRule h e) s) s) := rfl

theorem clearHistory_next (i : SlotId) (s : State) :
    ((clearHistory i s).slot i).hist.next = (s.slot i).hist.next := by
  rw [clearHistory, modSlot_slot_same]

/-- The answer of HISTORY_CLEAR to an exact body, by the right ADMIN on the slot. -/
theorem historyClearRule_exact {h : Header} (exactBody : h.bodyExact = true) (e : StationId) (i : SlotId)
    (s : State) :
    historyClearRule h e i s =
      if s.holdsOn e (·.admin) i then ((.ok, .historyClear (s.slot i).hist.next), clearHistory i s)
      else refuse .denied s := by
  unfold historyClearRule
  cases s.holdsOn e (·.admin) i <;> simp [exactBody, clearHistory_next]

/-- Settles O17: the target names no slot, or the right ADMIN on its slot decides. -/
theorem historyCleared : Obligations.HistoryCleared := by
  unfold Obligations.HistoryCleared
  intro h e s taken
  have ⟨_, _, _, _, exactBody⟩ := taken
  have right := fun i => holdsOn_placed_hear h .historyClear e (·.admin) i s
  rw [exec_historyClear]
  refine ⟨fun outside => ?_, fun i hi => ⟨fun admin => ?_, fun noAdmin => ?_⟩⟩
  · exact congrArg Host.Outcome.next (request_replied taken rfl (onSlot_outside outside _ _))
  · refine congrArg Host.Outcome.next (request_leaves taken rfl ?_ modSlot_port)
    rw [onSlot_named (finOf_eq_some hi), historyClearRule_exact exactBody, right, if_pos admin, placed_modSlot,
      placed_slot, hear_slot, clearHistory]
  · refine congrArg Host.Outcome.next (request_replied taken rfl ?_)
    rw [onSlot_named (finOf_eq_some hi), historyClearRule_exact exactBody, right, noAdmin]
    rfl

end Sys2Proof.Machine
end

section
/-! PROOFS. The upkeep commands of a unit tick: what each makes absent or sets (R94, R126, R133). -/

namespace Sys2Proof.Machine

open Sys2Proof

/-! ## A time kept while it passes a test -/

theorem filter_decide_some {α : Type} (p : α → Prop) [DecidablePred p] (a : α) :
    (some a).filter (fun x => decide (p x)) = if p a then some a else none := by
  rw [Option.filter_some]
  simp only [decide_eq_true_eq]

/-! ## The commands of a unit tick -/

theorem exec_lastAssertAgeOut (i : SlotId) (s : State) :
    exec (.lastAssertAgeOut i) s = .next (s.modSlot i fun x => { x with log := { x.log with
      lastPg := ageTime s.now x.log.lastPg
      lastPwrIn := ageTime s.now x.log.lastPwrIn
      lastRstIn := ageTime s.now x.log.lastRstIn } }) := rfl

theorem ageTime_none (now : Time) : ageTime now none = none := rfl

theorem ageTime_some (now a : Time) :
    ageTime now (some a) = if (now - a).toNat < 2 ^ 31 then some a else none :=
  filter_decide_some (fun a => (now - a).toNat < 2 ^ 31) a

/-- A slot whose feed has dropped is marked cold by the age of the drop (R126). -/
theorem exec_coldMarkSet_dropped {i : SlotId} {s : State} {t : Time}
    (dropped : (s.slot i).record.feedDropped = some t) :
    exec (.coldMarkSet i) s = .next
      (if 60000 ≤ (s.now - t).toNat then s.modSlot i fun x => { x with coldMark := true } else s) := by
  show execColdMarkSet i s = _
  rw [execColdMarkSet, dropped]

/-- A slot without a feed dropped time is left as it is (R126). -/
theorem exec_coldMarkSet_never {i : SlotId} {s : State} (never : (s.slot i).record.feedDropped = none) :
    exec (.coldMarkSet i) s = .next s := by
  show execColdMarkSet i s = _
  rw [execColdMarkSet, never]

/-- The upkeep takes the expired charges and an old last start time from the scheduler, whatever its queue
holds (R133). -/
theorem exec_inrushUnitUpkeep (s : State) :
    exec .inrushUnitUpkeep s = .next { s with inrush := { s.inrush with
      active := s.inrush.active.filter fun c => decide ((s.now - c.start).toNat < c.settle)
      last := s.inrush.last.filter fun t => decide ((s.now - t).toNat < 5000) } } := rfl

/-- Settles O29: each command filters the times and charges it keeps by their age, and the cold mark is set
by the age of the drop. -/
theorem unitTickUpkeep : Obligations.UnitTickUpkeep := by
  unfold Obligations.UnitTickUpkeep
  intro i s aged
  have aged_eq : ageTime s.now = aged := by
    funext t
    cases t with
    | none => exact ageTime_none s.now
    | some a => exact ageTime_some s.now a
  refine ⟨?_, fun t dropped old => ?_, fun recent => ?_, ?_⟩
  · rw [exec_lastAssertAgeOut, aged_eq]
  · rw [exec_coldMarkSet_dropped dropped, if_pos old]
  · cases dropped : (s.slot i).record.feedDropped with
    | none => exact exec_coldMarkSet_never dropped
    | some t => rw [exec_coldMarkSet_dropped dropped, if_neg (Nat.not_le.mpr (recent t dropped))]
  · rw [exec_inrushUnitUpkeep]
    cases s.inrush.last with
    | none => rfl
    | some t => rw [filter_decide_some]

end Sys2Proof.Machine
end

section
/-! PROOFS. BLOCK_DATA and BLOCK_ABSENT: the checks of an answer in their order, and what the first that
fails counts (R166). -/

namespace Sys2Proof.Machine

open Sys2Proof

/-! ## What an answer does with the record it names -/

/-- BLOCK_DATA and the record it names: checks 3 and 4, then the block is taken (R166, R167). -/
def takeData (id : BitVec 16) (block check : BitVec 32) (data : Block) (u : UnitId) (r : FetchRecord)
    (s : State) : State :=
  if !r.waiting.contains block.toNat then s.countFetch fun c => { c with duplicate := bump c.duplicate }
  else if !checkGood (s.unitSetup u) data check then
    s.countFetch fun c => { c with checkFail := bump c.checkFail }
  else takeBlock u id block.toNat data s

/-- The awaited blocks of a record that a BLOCK_ABSENT covers (R168). -/
def absentOf (r : FetchRecord) (first : BitVec 32) (count : Nat) : List Nat :=
  r.waiting.filter fun b => decide (first.toNat ≤ b) && decide (b < first.toNat + count)

/-- BLOCK_ABSENT and the record it names: check 3, then the blocks it covers fail (R166, R168). -/
def takeAbsent (id : BitVec 16) (first : BitVec 32) (count : Nat) (reason : Byte) (u : UnitId)
    (r : FetchRecord) (s : State) : State :=
  let bs := absentOf r first count
  if bs.isEmpty then s.countFetch fun c => { c with duplicate := bump c.duplicate }
  else
    let s := unpend id bs (markFailed u bs s)
    freeIfEmpty id (treatFailed u bs (fetchNotice u r bs (.absent reason) s))

section
variable {h : Header} {id : BitVec 16} {block check : BitVec 32} {data : Block} {count : Nat} {reason : Byte}

theorem exec_blockData (s : State) :
    exec (.blockData h id block check data) s = .next (answer h id (takeData id block check data) s) := rfl

theorem exec_blockAbsent (s : State) :
    exec (.blockAbsent h id block count reason) s =
      .next (answer h id (takeAbsent id block count reason) s) := rfl

/-- A drop that does not ask what is done with the record is that of both answers. -/
theorem exec_answers_of_answer {s t : State} (same : ∀ take, answer h id take s = t) :
    ∀ cmd ∈ [.blockData h id block check data, .blockAbsent h id block count reason],
      exec cmd s = .next t := by
  simp only [List.forall_mem_cons, exec_blockData, exec_blockAbsent, same, List.not_mem_nil,
    false_implies, implies_true, and_self]

variable {u : UnitId} {r : FetchRecord} {s : State}

/-- Check 3 of BLOCK_DATA fails (R166). -/
theorem takeData_duplicate (done : block.toNat ∉ r.waiting) :
    takeData id block check data u r s = s.countFetch fun c => { c with duplicate := bump c.duplicate } := by
  simp [takeData, done]

/-- Check 4 fails (R166). -/
theorem takeData_checkFail (awaits : block.toNat ∈ r.waiting)
    (bad : checkGood (s.unitSetup u) data check = false) :
    takeData id block check data u r s = s.countFetch fun c => { c with checkFail := bump c.checkFail } := by
  simp [takeData, awaits, bad]

theorem absentOf_eq_nil (outside : ∀ b ∈ r.waiting, b < block.toNat ∨ block.toNat + count ≤ b) :
    absentOf r block count = [] := by
  refine List.filter_eq_nil_iff.mpr fun b hb => ?_
  have := outside b hb
  simp only [Bool.and_eq_true, decide_eq_true_eq]
  omega

/-- Check 3 of BLOCK_ABSENT fails (R166). -/
theorem takeAbsent_duplicate (outside : ∀ b ∈ r.waiting, b < block.toNat ∨ block.toNat + count ≤ b) :
    takeAbsent id block count reason u r s =
      s.countFetch fun c => { c with duplicate := bump c.duplicate } := by
  simp only [takeAbsent, absentOf_eq_nil outside, List.isEmpty_nil, if_true]

end

/-! ## The checks that both answers share -/

theorem isForeignAnswer_hear {e d : StationId} {p : Port} {src : Addr} {s : State} {u : UnitId} :
    isForeignAnswer ((hear d p s).unit u) e src = isForeignAnswer (s.unit u) e src := by
  rw [hear_unit]
  rfl

theorem isForeignAnswer_eq_true {m : MediaUnit} {e : StationId} {src : Addr} :
    isForeignAnswer m e src = true ↔ m.state ≠ .detached ∧ m.station ≠ some (e, src) := by
  simp only [isForeignAnswer, Bool.and_eq_true, decide_eq_true_eq]

theorem isForeignAnswer_eq_false {m : MediaUnit} {e : StationId} {src : Addr} :
    isForeignAnswer m e src = false ↔ m.state = .detached ∨ m.station = some (e, src) := by
  rw [← Bool.not_eq_true, isForeignAnswer_eq_true, not_and_or, not_not, not_not]

section
variable {h : Header} {e : StationId} {u : UnitId} {id : BitVec 16} {s : State}
  {take : UnitId → FetchRecord → State → State}

/-- Check 0 fails: a header test, or the target names no unit (R166, R192). -/
theorem answer_malformed (known : s.lookup h.src = some e)
    (bad : h.version ≠ 1 ∨ h.bodyFits = false ∨ h.bodyExact = false ∨ finOf 4 h.target.toNat = none) :
    answer h id take s = dropMalformed (hear e h.port s) := by
  simp only [answer, known]
  cases target : finOf 4 h.target.toNat with
  | none => rfl
  | some u =>
    have bad : h.version ≠ 1 ∨ h.bodyFits = false ∨ h.bodyExact = false := by simpa [target] using bad
    exact if_pos bad

/-- Check 1 fails (R166). -/
theorem answer_foreign (heard : AnswerHeard h e u s) (foreign : isForeignAnswer (s.unit u) e h.src = true) :
    answer h id take s = (hear e h.port s).countFetch fun c => { c with foreign := bump c.foreign } := by
  obtain ⟨known, target, version, fits, exactBody⟩ := heard
  simp [answer, known, target, version, fits, exactBody, isForeignAnswer_hear, foreign]

/-- Check 2 fails (R166). -/
theorem answer_stale (heard : AnswerHeard h e u s) (own : isForeignAnswer (s.unit u) e h.src = false)
    (stale : (hear e h.port s).recordOf u id = none) :
    answer h id take s = (hear e h.port s).countFetch fun c => { c with stale := bump c.stale } := by
  obtain ⟨known, target, version, fits, exactBody⟩ := heard
  simp [answer, known, target, version, fits, exactBody, isForeignAnswer_hear, own, stale]

/-- An answer that passes checks 0 to 2 comes to the record it names (R166). -/
theorem answer_recorded (heard : AnswerHeard h e u s) (own : isForeignAnswer (s.unit u) e h.src = false)
    {r : FetchRecord} (recorded : (hear e h.port s).recordOf u id = some r) :
    answer h id take s = take u r (hear e h.port s) := by
  obtain ⟨known, target, version, fits, exactBody⟩ := heard
  simp [answer, known, target, version, fits, exactBody, isForeignAnswer_hear, own, recorded]

variable {r : FetchRecord} {t : State} {block check : BitVec 32} {data : Block} {count : Nat} {reason : Byte}

theorem exec_blockData_recorded (heard : AnswerHeard h e u s)
    (own : isForeignAnswer (s.unit u) e h.src = false) (recorded : (hear e h.port s).recordOf u id = some r)
    (took : takeData id block check data u r (hear e h.port s) = t) :
    exec (.blockData h id block check data) s = .next t := by
  rw [exec_blockData, answer_recorded heard own recorded, took]

theorem exec_blockAbsent_recorded (heard : AnswerHeard h e u s)
    (own : isForeignAnswer (s.unit u) e h.src = false) (recorded : (hear e h.port s).recordOf u id = some r)
    (took : takeAbsent id block count reason u r (hear e h.port s) = t) :
    exec (.blockAbsent h id block count reason) s = .next t := by
  rw [exec_blockAbsent, answer_recorded heard own recorded, took]

end

theorem unitSetup_hear {e : StationId} {p : Port} {s : State} {u : UnitId} :
    (hear e p s).unitSetup u = s.unitSetup u :=
  congrArg (·.unitSetup[u]) hear_tables

/-! ## The answers dropped -/

/-- Settles O47: checks 0 to 2 are the same for both answers, and the record that passes them decides
check 3 of each and check 4 of BLOCK_DATA. -/
theorem answersDropped : Obligations.AnswersDropped := by
  unfold Obligations.AnswersDropped
  intro h e u id block check data count reason s
  refine ⟨fun known bad => ?malformed, fun heard => ⟨fun bound other => ?foreign, fun own stale => ?stale,
    fun station r recorded => ?recorded⟩⟩
  case malformed => exact exec_answers_of_answer fun _ => answer_malformed known bad
  case foreign =>
    exact exec_answers_of_answer fun _ => answer_foreign heard (isForeignAnswer_eq_true.mpr ⟨bound, other⟩)
  case stale =>
    exact exec_answers_of_answer fun _ => answer_stale heard (isForeignAnswer_eq_false.mpr own) stale
  case recorded =>
    have own := isForeignAnswer_eq_false.mpr (.inr station)
    refine ⟨fun done => ?_, fun awaits bad => ?_, fun outside => ?_⟩
    · exact exec_blockData_recorded heard own recorded (takeData_duplicate done)
    · exact exec_blockData_recorded heard own recorded (takeData_checkFail awaits (by rwa [unitSetup_hear]))
    · exact exec_blockAbsent_recorded heard own recorded (takeAbsent_duplicate outside)

end Sys2Proof.Machine
end

section
/-! PROOFS. What the fetch path does to a state: the Block Cache, the Fetch Table and the Issue Queue move,
and frames enter the Own Queues, but no unit changes its binding or its overlay blocks (R160 to R175). -/

namespace Sys2Proof.Machine

open Sys2Proof

/-! ## Moves of the fetch path -/

/-- A unit keeps its state, its binding and its overlay blocks. -/
structure UnitKept (m n : MediaUnit) : Prop where
  state : n.state = m.state
  slot : n.slot = m.slot
  station : n.station = m.station
  overlay : n.overlay = m.overlay
  reserved : n.reserved = m.reserved

theorem UnitKept.refl (m : MediaUnit) : UnitKept m m := ⟨rfl, rfl, rfl, rfl, rfl⟩

theorem UnitKept.trans {m n o : MediaUnit} (h : UnitKept m n) (k : UnitKept n o) : UnitKept m o :=
  ⟨k.state.trans h.state, k.slot.trans h.slot, k.station.trans h.station, k.overlay.trans h.overlay,
    k.reserved.trans h.reserved⟩

/-- The unit is bound: it is not DETACHED. -/
def Bound (s : State) (u : UnitId) : Prop := (s.unit u).state ≠ .detached

/-- What the fetch path and the counters of the units may change: lines, records and Issue Queue entries
stay those of the units they were of, or are those of units in `A`, and the numbers of records stay within
their limits (R164). -/
structure FetchMove (A : UnitId → Prop) (s t : State) : Prop where
  frame : t = { s with
    units := t.units, cache := t.cache, fetch := t.fetch, uplink := t.uplink, chain := t.chain }
  ports : ∀ p, PortBounded (s.port p) → PortBounded (t.port p)
  units : ∀ u, UnitKept (s.unit u) (t.unit u)
  cache : ∀ l ∈ t.cache, (∃ l' ∈ s.cache, l'.unit = l.unit) ∨ A l.unit
  issue : ∀ e ∈ t.fetch.issue, (∃ e' ∈ s.fetch.issue, e'.unit = e.unit) ∨ A e.unit
  records : ∀ r ∈ t.fetch.records, (∃ r' ∈ s.fetch.records, r'.unit = r.unit) ∨ A r.unit
  total : s.fetch.records.length ≤ 16 → t.fetch.records.length ≤ 16
  each : ∀ u, (recordsOf s u).length ≤ 4 → (recordsOf t u).length ≤ 4

namespace FetchMove

variable {A : UnitId → Prop} {s t u : State}

theorem bound (h : FetchMove A s t) {u : UnitId} : Bound t u ↔ Bound s u := by
  rw [Bound, Bound, (h.units u).state]

theorem slots (h : FetchMove A s t) : t.slots = s.slots := by rw [h.frame]

theorem slot (h : FetchMove A s t) (i : SlotId) : t.slot i = s.slot i := congrArg (·[i]) h.slots

theorem inrush (h : FetchMove A s t) : t.inrush = s.inrush := by rw [h.frame]

theorem tables (h : FetchMove A s t) : t.tables = s.tables := by rw [h.frame]

theorem refl (s : State) : FetchMove A s s :=
  ⟨rfl, fun _ h => h, fun _ => .refl _, fun l h => .inl ⟨l, h, rfl⟩, fun e h => .inl ⟨e, h, rfl⟩,
    fun r h => .inl ⟨r, h, rfl⟩, fun h => h, fun _ h => h⟩

/-- Where each entry of the Issue Queue is of a unit in `A`, a move leaves it so. -/
theorem entries (h : FetchMove A s t) (a : ∀ e ∈ s.fetch.issue, A e.unit) : ∀ e ∈ t.fetch.issue, A e.unit := by
  intro e he
  rcases h.issue e he with ⟨e', he', eq⟩ | x
  · exact eq ▸ a e' he'
  · exact x

/-- Items that stay those of their units, or are those of units in `A`, stay so in two moves. -/
theorem stay_trans {α : Type} {unit : α → UnitId} {xs ys zs : List α}
    (h : ∀ y ∈ ys, (∃ x ∈ xs, unit x = unit y) ∨ A (unit y))
    (k : ∀ z ∈ zs, (∃ y ∈ ys, unit y = unit z) ∨ A (unit z)) :
    ∀ z ∈ zs, (∃ x ∈ xs, unit x = unit z) ∨ A (unit z) := by
  intro z hz
  rcases k z hz with ⟨y, hy, e⟩ | b
  · exact e ▸ h y hy
  · exact .inr b

theorem trans (h : FetchMove A s t) (k : FetchMove A t u) : FetchMove A s u where
  frame := k.frame.trans (by rw [h.frame])
  ports p w := k.ports p (h.ports p w)
  units v := (h.units v).trans (k.units v)
  cache := stay_trans h.cache k.cache
  issue := stay_trans h.issue k.issue
  records := stay_trans h.records k.records
  total w := k.total (h.total w)
  each v w := k.each v (h.each v w)

/-- A fold of moves is a move. -/
theorem foldl {α : Type} {f : State → α → State} (h : ∀ s a, FetchMove A s (f s a)) :
    ∀ (l : List α) (s : State), FetchMove A s (l.foldl f s)
  | [], s => .refl s
  | a :: l, s => (h s a).trans (foldl h l (f s a))

end FetchMove

/-! ## Single changes -/

section

variable {A : UnitId → Prop}

theorem fetchMove_modUnit {s : State} {u : UnitId} {f : MediaUnit → MediaUnit}
    (h : UnitKept (s.unit u) (f (s.unit u))) : FetchMove A s (s.modUnit u f) where
  frame := rfl
  ports p w := by rwa [modUnit_port]
  units v := by
    rw [modUnit_unit]
    split_ifs with e
    · subst e; exact h
    · exact .refl _
  cache l w := .inl ⟨l, w, rfl⟩
  issue e w := .inl ⟨e, w, rfl⟩
  records r w := .inl ⟨r, w, rfl⟩
  total w := w
  each _ w := w

theorem fetchMove_countUnit {s : State} {u : UnitId} {f : UnitCounters → UnitCounters} :
    FetchMove A s (s.countUnit u f) := fetchMove_modUnit ⟨rfl, rfl, rfl, rfl, rfl⟩

theorem fetchMove_cache {s : State} {cs : List CacheLine}
    (h : ∀ l ∈ cs, (∃ l' ∈ s.cache, l'.unit = l.unit) ∨ A l.unit) :
    FetchMove A s { s with cache := cs } where
  frame := rfl
  ports p w := by cases p <;> exact w
  units _ := .refl _
  cache := h
  issue e w := .inl ⟨e, w, rfl⟩
  records r w := .inl ⟨r, w, rfl⟩
  total w := w
  each _ w := w

/-- A change of the Fetch Table that leaves its records and its Issue Queue those of their units, or of
units that may ask for them, within their limits. -/
theorem fetchMove_fetch {s : State} {f : FetchTable}
    (issue : ∀ e ∈ f.issue, (∃ e' ∈ s.fetch.issue, e'.unit = e.unit) ∨ A e.unit)
    (records : ∀ r ∈ f.records, (∃ r' ∈ s.fetch.records, r'.unit = r.unit) ∨ A r.unit)
    (total : s.fetch.records.length ≤ 16 → f.records.length ≤ 16)
    (each : ∀ u, (recordsOf s u).length ≤ 4 → (f.records.filter fun r => decide (r.unit = u)).length ≤ 4) :
    FetchMove A s { s with fetch := f } where
  frame := rfl
  ports p w := by cases p <;> exact w
  units _ := .refl _
  cache l w := .inl ⟨l, w, rfl⟩
  issue := issue
  records := records
  total := total
  each := each

/-- A change of the Fetch Table that only removes. -/
theorem fetchMove_sublist {s : State} {f : FetchTable} (issue : f.issue.Sublist s.fetch.issue)
    (records : f.records.Sublist s.fetch.records) : FetchMove A s { s with fetch := f } :=
  fetchMove_fetch (fun e h => .inl ⟨e, issue.subset h, rfl⟩) (fun r h => .inl ⟨r, records.subset h, rfl⟩)
    (fun h => records.length_le.trans h) (fun _ h => (records.filter _).length_le.trans h)

theorem fetchMove_countFetch {s : State} {f : FetchCounters → FetchCounters} : FetchMove A s (s.countFetch f) :=
  fetchMove_sublist (.refl _) (.refl _)

/-- Records of which each keeps its unit. -/
theorem fetchMove_mapRecords {s : State} {f : FetchRecord → FetchRecord} (h : ∀ r, (f r).unit = r.unit) :
    FetchMove A s { s with fetch := { s.fetch with records := s.fetch.records.map f } } := by
  refine fetchMove_fetch (fun e w => .inl ⟨e, w, rfl⟩) (fun r w => ?_) (by simp) (fun u w => ?_)
  · obtain ⟨r', w', rfl⟩ := List.mem_map.mp w
    exact .inl ⟨r', w', (h r').symm⟩
  · simpa [List.filter_map, Function.comp_def, h, recordsOf] using w

theorem fetchMove_modRecord {s : State} {n : BitVec 16} {f : FetchRecord → FetchRecord}
    (h : ∀ r, (f r).unit = r.unit) : FetchMove A s (s.modRecord n f) :=
  fetchMove_mapRecords fun r => by split_ifs <;> simp [h]

/-- A frame enters an Own Queue that has room. -/
theorem portBounded_ownAppend {s : State} {p q : Port} {g : OwnFrame} (room : s.ownRoom p = true)
    (w : PortBounded (s.port q)) : PortBounded ((s.ownAppend p g).port q) := by
  rw [State.ownRoom, Bool.and_eq_true, decide_eq_true_eq] at room
  by_cases e : q = p
  · subst e
    obtain ⟨-, hp, hb, hs, -⟩ := w
    rw [State.ownAppend, modPort_port_same]
    exact ⟨by simpa using room.2, hp, hb, hs, fun down => by simp [room.1] at down⟩
  · rwa [State.ownAppend, modPort_port_ne e]

theorem fetchMove_ownAppend {s : State} {p : Port} {g : OwnFrame} (room : s.ownRoom p = true) :
    FetchMove A s (s.ownAppend p g) where
  frame := by rw [State.mk.injEq]; simp
  ports _ w := portBounded_ownAppend room w
  units u := by rw [State.ownAppend, modPort_unit]; exact .refl _
  cache l w := .inl ⟨l, by simpa using w, rfl⟩
  issue e w := .inl ⟨e, by simpa using w, rfl⟩
  records r w := .inl ⟨r, by simpa using w, rfl⟩
  total w := by simpa using w
  each u w := by simpa [recordsOf] using w

/-! ## The operations of the fetch path -/

theorem offerFetch_move {s : State} {r : FetchRecord} : FetchMove A s (offerFetch s r) := by
  unfold offerFetch
  split
  · exact .refl s
  · dsimp only
    split_ifs with room
    · refine FetchMove.trans (FetchMove.trans (fetchMove_ownAppend room) (fetchMove_modRecord ?_)) fetchMove_countUnit
      exact fun _ => rfl
    · exact .refl s

theorem offerHeld_move {s : State} {w : State → FetchRecord → Bool} : FetchMove A s (offerHeld w s) :=
  FetchMove.foldl (fun s r => by
    split_ifs
    · exact offerFetch_move
    · exact .refl s) _ s

theorem modLine_move {s : State} {u : UnitId} {g : Nat} {f : CacheLine → CacheLine}
    (h : ∀ l, (f l).unit = l.unit) : FetchMove A s (s.modLine u g f) := by
  refine fetchMove_cache fun l w => ?_
  obtain ⟨l', w', rfl⟩ := List.mem_map.mp w
  refine .inl ⟨l', w', ?_⟩
  split_ifs <;> simp [h]

theorem setBlock_move {s : State} {u : UnitId} {v : CacheBlock} {b : Nat} : FetchMove A s (setBlock u v s b) :=
  modLine_move fun _ => rfl

theorem setBlocks_move {s : State} {u : UnitId} {v : CacheBlock} {bs : List Nat} :
    FetchMove A s (bs.foldl (setBlock u v) s) := FetchMove.foldl (fun _ _ => setBlock_move) bs s

theorem touch_move {s : State} {u : UnitId} {g : Nat} : FetchMove A s (touch u g s) :=
  fetchMove_cache fun l w => .inl ⟨l, touch_perm.subset w, rfl⟩

theorem touchLines_move {s : State} {u : UnitId} {images : List Nat} : FetchMove A s (touchLines u images s) :=
  FetchMove.foldl (fun _ _ => touch_move) _ s

theorem takeLine_move {s : State} {u : UnitId} {g : Nat} (h : A u) : FetchMove A s (takeLine u g s) := by
  have added : ∀ cs : List CacheLine, cs.Sublist s.cache →
      FetchMove A s { s with cache := cs ++ [{ unit := u, group := g }] } := fun cs sub =>
    fetchMove_cache fun l w => by
      rcases List.mem_append.mp w with w | w
      · exact .inl ⟨l, sub.subset w, rfl⟩
      · rw [List.mem_singleton.mp w]; exact .inr h
  unfold takeLine
  dsimp only
  split_ifs
  · exact added _ (.refl _)
  · split
    · exact (added _ List.filter_sublist).trans fetchMove_countFetch
    · exact .refl s

/-- After a move, a record enters the Fetch Table where that has room for it. -/
theorem createRecord_move {z s : State} {u : UnitId} {first count reAsk : Nat} {waiting : List Nat}
    (moved : FetchMove A z s) (h : A u) (total : z.fetch.records.length ≤ 16 → s.fetch.records.length < 16)
    (each : (recordsOf z u).length ≤ 4 → (recordsOf s u).length < 4) :
    FetchMove A z (createRecord u first count reAsk waiting s) := by
  have entered : ∀ id, FetchMove A z { s with fetch := { s.fetch with
      records := s.fetch.records ++ [{ id, unit := u, first, count, reAsk, waiting }], lastId := id } } := by
    intro id
    refine { moved with
      frame := congrArg (fun x : State => ({ x with fetch := _ } : State)) moved.frame
      ports := fun p => ?_, units := moved.units, records := ?_, total := ?_, each := ?_ }
    · cases p <;> exact moved.ports _
    · intro r w
      rcases List.mem_append.mp w with w | w
      · exact moved.records r w
      · rw [List.mem_singleton.mp w]; exact .inr h
    · simpa using total
    · intro v w
      by_cases e : u = v
      · subst e; simpa [recordsOf] using each w
      · simpa [e, recordsOf] using moved.each v w
  exact (entered _).trans offerFetch_move

theorem canIssue_iff {s : State} {u : UnitId} :
    s.canIssue u = true ↔ s.fetch.records.length < 16 ∧ (recordsOf s u).length < 4 := by
  simp [State.canIssue, recordsOf]

theorem issueFetch_move {z s : State} {u : UnitId} {need : List Nat} (moved : FetchMove A z s) (h : A u)
    (can : s.canIssue u = true) : FetchMove A z (issueFetch u need s) := by
  unfold issueFetch
  cases need with
  | nil => exact moved
  | cons b bs =>
    have kept : ∀ l : List Nat, (l.foldl (setBlock u .pending) s).fetch = s.fetch := fun l =>
      foldl_keeps State.fetch (setBlock u .pending) (fun _ _ => rfl) l s
    obtain ⟨total, each⟩ := canIssue_iff.mp can
    refine createRecord_move (moved.trans setBlocks_move) h (fun _ => ?_) (fun _ => ?_)
    · rwa [kept]
    · rwa [recordsOf, kept]

theorem joinIssue_move {s : State} {e : IssueEntry} (h : A e.unit) : FetchMove A s (joinIssue e s) := by
  unfold joinIssue
  split_ifs
  · exact .refl s
  · refine fetchMove_fetch (fun x w => ?_) (fun r w => .inl ⟨r, w, rfl⟩) (fun w => w) (fun _ w => w)
    rcases List.mem_append.mp w with w | w
    · exact .inl ⟨x, w, rfl⟩
    · rw [List.mem_singleton.mp w]; exact .inr h

theorem leaveIssue_move {s : State} {which : IssueEntry → Bool} : FetchMove A s (leaveIssue which s) :=
  fetchMove_sublist List.filter_sublist (.refl _)

theorem serveEntry_move {z s : State} {e : IssueEntry} (moved : FetchMove A z s) (h : A e.unit) :
    FetchMove A z (serveEntry s e) := by
  unfold serveEntry
  dsimp only
  split_ifs with _ can
  · exact moved.trans leaveIssue_move
  · exact issueFetch_move (moved.trans leaveIssue_move) h can
  · exact moved

/-- The Issue Queue is served for the units of its entries. -/
theorem serveIssue_move {s : State} (h : ∀ e ∈ s.fetch.issue, A e.unit) : FetchMove A s (serveIssue s) := by
  have each : ∀ (l : List IssueEntry) (t : State), (∀ e ∈ l, A e.unit) → FetchMove A s t →
      FetchMove A s (l.foldl serveEntry t) := by
    intro l
    induction l with
    | nil => exact fun _ _ m => m
    | cons e l ih => exact fun t h m => ih _ (fun x hx => h x (by simp [hx])) (serveEntry_move m (h e (by simp)))
  exact each _ s h (.refl s)

theorem requestGroup_move {s : State} {u : UnitId} {prime : Bool} {images : List Nat} {g : Nat} (h : A u) :
    FetchMove A s (requestGroup u prime images s g) := by
  have lined : FetchMove A s (if (s.line u g).isSome then touch u g s else takeLine u g s) := by
    split_ifs
    · exact touch_move
    · exact takeLine_move h
  unfold requestGroup
  generalize (if (s.line u g).isSome then touch u g s else takeLine u g s) = t at lined
  have pinned := lined.trans (modLine_move (u := u) (g := g) (f := fun l => { l with pins := l.pins + 1 })
    fun _ => rfl)
  dsimp only
  split_ifs with _ can
  · exact pinned
  · exact pinned.trans (issueFetch_move (.refl _) h can)
  · exact pinned.trans (joinIssue_move h)

theorem handOver_move {s : State} {u : UnitId} {prime : Bool} {images : List Nat} (h : A u) :
    FetchMove A s (handOver u prime images s) := by
  unfold handOver
  generalize groupsOf images = gs
  induction gs generalizing s with
  | nil => exact .refl s
  | cons g gs ih =>
    have asked : FetchMove A s (requestGroup u prime images s g) := requestGroup_move h
    exact asked.trans ih

theorem endRequester_move {s : State} {u : UnitId} {prime : Bool} {images : List Nat} :
    FetchMove A s (endRequester u prime images s) := by
  refine FetchMove.trans (FetchMove.foldl (fun _ _ => modLine_move ?_) _ s) leaveIssue_move
  exact fun _ => rfl

theorem removeRecord_move {s : State} {id : BitVec 16} : FetchMove A s (removeRecord id s) :=
  fetchMove_sublist (.refl _) List.filter_sublist

theorem freeRecord_move {s : State} {id : BitVec 16} (h : ∀ e ∈ s.fetch.issue, A e.unit) :
    FetchMove A s (freeRecord id s) :=
  removeRecord_move.trans (serveIssue_move h)

theorem unpend_move {s : State} {id : BitVec 16} {bs : List Nat} : FetchMove A s (unpend id bs s) :=
  fetchMove_modRecord fun _ => rfl

theorem freeIfEmpty_move {s : State} {id : BitVec 16} (h : ∀ e ∈ s.fetch.issue, A e.unit) :
    FetchMove A s (freeIfEmpty id s) := by
  unfold freeIfEmpty
  split_ifs
  · exact freeRecord_move h
  · exact .refl s

/-- A record that has reached its deadline makes room for the one that asks again (R169). -/
theorem reAsk_move {s : State} {r : FetchRecord} (h : r ∈ s.fetch.records) (a : A r.unit) :
    FetchMove A s (reAsk r s) := by
  have less : ∀ l : List FetchRecord, r ∈ l → (l.filter fun x => decide (x.id ≠ r.id)).length < l.length :=
    fun l w => List.length_filter_lt_length_iff_exists.mpr ⟨r, w, by simp⟩
  unfold reAsk
  refine FetchMove.trans (createRecord_move removeRecord_move a (fun w => ?_) (fun w => ?_)) fetchMove_countUnit
  · exact (less _ h).trans_le w
  · have removed : recordsOf (removeRecord r.id s) r.unit =
        (recordsOf s r.unit).filter fun x => decide (x.id ≠ r.id) := by
      simp [recordsOf, removeRecord, List.filter_filter, Bool.and_comm]
    rw [removed]
    exact (less _ (by simp [recordsOf, h])).trans_le w

/-- No line, record or Issue Queue entry is that of unit `u`. -/
structure Unasked (u : UnitId) (s : State) : Prop where
  cache : ∀ l ∈ s.cache, l.unit ≠ u
  records : ∀ r ∈ s.fetch.records, r.unit ≠ u
  issue : ∀ e ∈ s.fetch.issue, e.unit ≠ u

/-- What is asked for other units leaves a unit unasked. -/
theorem Unasked.move {u : UnitId} {s t : State} (h : Unasked u s) (m : FetchMove (· ≠ u) s t) : Unasked u t where
  cache l w := (m.cache l w).elim (fun ⟨l', w', e⟩ => e ▸ h.cache l' w') id
  records r w := (m.records r w).elim (fun ⟨r', w', e⟩ => e ▸ h.records r' w') id
  issue e w := (m.issue e w).elim (fun ⟨e', w', eq⟩ => eq ▸ h.issue e' w') id

/-- What an invalidation removes, before the Issue Queue is served (R171). -/
def forget (u : UnitId) (s : State) : State :=
  { s with
    fetch := { s.fetch with
      records := s.fetch.records.filter fun r => decide (r.unit ≠ u)
      issue := s.fetch.issue.filter fun e => decide (e.unit ≠ u) }
    cache := s.cache.filter fun l => decide (l.unit ≠ u) }

theorem invalidate_eq {u : UnitId} {s : State} :
    invalidate u s = forget u s ∨ invalidate u s = serveIssue (forget u s) := by
  unfold invalidate forget
  dsimp only
  split_ifs
  · exact .inr rfl
  · exact .inl rfl

theorem forget_move {u : UnitId} {s : State} : FetchMove A s (forget u s) :=
  FetchMove.trans (fetchMove_cache fun l w => .inl ⟨l, List.mem_of_mem_filter w, rfl⟩)
    (fetchMove_sublist List.filter_sublist List.filter_sublist)

theorem unasked_forget {u : UnitId} {s : State} : Unasked u (forget u s) := by
  constructor <;> simp +contextual [forget]

/-- The records, entries and lines of a unit are released (R171). -/
theorem invalidate_move {s : State} {u : UnitId} (h : ∀ e ∈ s.fetch.issue, A e.unit) :
    FetchMove A s (invalidate u s) := by
  rcases invalidate_eq (u := u) (s := s) with e | e <;> rw [e]
  · exact forget_move
  · exact forget_move.trans (serveIssue_move (forget_move.entries h))

theorem unasked_invalidate {u : UnitId} {s : State} : Unasked u (invalidate u s) := by
  rcases invalidate_eq (u := u) (s := s) with e | e <;> rw [e]
  · exact unasked_forget
  · exact unasked_forget.move (serveIssue_move unasked_forget.issue)

theorem markFailed_move {s : State} {u : UnitId} {bs : List Nat} : FetchMove A s (markFailed u bs s) :=
  setBlocks_move.trans fetchMove_countUnit

end

end Sys2Proof.Machine
end

section
/-! PROOFS. The moves of the bridge that leave the Power Sequencers as they are, and what they keep: the
sizes of the buffers and queues, the Station Table's administrator, the canonical forms, the bindings of
the units and the Overlay Pool. -/

namespace Sys2Proof.Machine

open Sys2Proof

/-! ## What every move keeps -/

/-- The canonical form of a slot's own collections. -/
def SlotCanonical (x : Slot) : Prop :=
  sparseWf 0 x.hist.ring = true ∧ sparseWf none x.matcher.holdOffs = true

/-- The buffers of a slot stay within their sizes, and its collections canonical. -/
structure SlotKept (x y : Slot) : Prop where
  bounded : SlotBounded x → SlotBounded y
  canonical : SlotCanonical x → SlotCanonical y

theorem SlotKept.refl (x : Slot) : SlotKept x x := ⟨id, id⟩

theorem SlotKept.trans {x y z : Slot} (h : SlotKept x y) (k : SlotKept y z) : SlotKept x z :=
  ⟨k.bounded ∘ h.bounded, k.canonical ∘ h.canonical⟩

/-- The tables in use, saved and being saved are canonical. -/
def TablesCanonical (s : State) : Prop :=
  tablesCanonical s.tables = true ∧ (∀ t, s.store = some t → tablesCanonical t = true) ∧
    ∀ j, s.save = some j → tablesCanonical j.copy = true

/-- What every command keeps, whatever else holds. -/
structure Kept (s t : State) : Prop where
  pending : t.pending = s.pending
  slots : ∀ i, SlotKept (s.slot i) (t.slot i)
  ports : ∀ p, PortBounded (s.port p) → PortBounded (t.port p)
  admin : AdminHeld s → AdminHeld t
  canonical : TablesCanonical s → TablesCanonical t

theorem Kept.refl (s : State) : Kept s s := ⟨rfl, fun _ => .refl _, fun _ => id, id, id⟩

theorem Kept.trans {s t u : State} (h : Kept s t) (k : Kept t u) : Kept s u where
  pending := k.pending.trans h.pending
  slots i := (h.slots i).trans (k.slots i)
  ports p := k.ports p ∘ h.ports p
  admin := k.admin ∘ h.admin
  canonical := k.canonical ∘ h.canonical

/-- The tables, the store and the image being saved stand as they did. -/
theorem Kept.of_tables {s t : State} (pending : t.pending = s.pending)
    (slots : ∀ i, SlotKept (s.slot i) (t.slot i)) (ports : ∀ p, PortBounded (s.port p) → PortBounded (t.port p))
    (tables : t.tables = s.tables) (store : t.store = s.store) (save : t.save = s.save) : Kept s t where
  pending := pending
  slots := slots
  ports := ports
  admin := by unfold AdminHeld; rw [tables, store, save]; exact id
  canonical := by unfold TablesCanonical; rw [tables, store, save]; exact id

/-- Ports that are the same are within their sizes when they were. -/
theorem ports_of_eq {s t : State} (up : t.uplink = s.uplink) (chain : t.chain = s.chain) (p : Port) :
    PortBounded (s.port p) → PortBounded (t.port p) := by
  cases p
  · exact fun w => by show PortBounded t.uplink; rwa [up]
  · exact fun w => by show PortBounded t.chain; rwa [chain]

theorem FetchMove.kept {A : UnitId → Prop} {s t : State} (h : FetchMove A s t) : Kept s t :=
  .of_tables (by rw [h.frame]) (fun i => by rw [h.slot]; exact .refl _) h.ports h.tables (by rw [h.frame])
    (by rw [h.frame])

/-! ## Moves apart from units and sequencers -/

/-- The units, the fetch path, the pool, the sequencers, the Inrush Queue and the requests in flight stand as
they did; the setup of a unit changes only while it is DETACHED (R145). -/
structure Apart (s t : State) : Prop extends Kept s t where
  units : t.units = s.units
  cache : t.cache = s.cache
  fetch : t.fetch = s.fetch
  pool : t.poolFree = s.poolFree
  queue : t.inrush.queue = s.inrush.queue
  seq : ∀ i, (t.slot i).seq = (s.slot i).seq
  inFlight : ∀ i, (t.slot i).port.inFlight = (s.slot i).port.inFlight
  setup : ∀ u, Bound s u → t.unitSetup u = s.unitSetup u

theorem Apart.unit {s t : State} (h : Apart s t) (u : UnitId) : t.unit u = s.unit u := by
  rw [State.unit, State.unit, h.units]

theorem Apart.trans {s t u : State} (h : Apart s t) (k : Apart t u) : Apart s u where
  toKept := h.toKept.trans k.toKept
  units := k.units.trans h.units
  cache := k.cache.trans h.cache
  fetch := k.fetch.trans h.fetch
  pool := k.pool.trans h.pool
  queue := k.queue.trans h.queue
  seq i := (k.seq i).trans (h.seq i)
  inFlight i := (k.inFlight i).trans (h.inFlight i)
  setup u b := (k.setup u (by rwa [Bound, h.unit])).trans (h.setup u b)

/-- A change of a slot that leaves its sequencer and the request in flight, its buffers within their sizes and
its collections canonical. -/
structure LocalMove (x y : Slot) : Prop extends SlotKept x y where
  seq : y.seq = x.seq
  inFlight : y.port.inFlight = x.port.inFlight

/-- A property that relates each slot before and after a change of one of them. -/
theorem modSlot_each {s : State} {i : SlotId} {f : Slot → Slot} {P : Slot → Slot → Prop}
    (same : ∀ x, P x x) (h : P (s.slot i) (f (s.slot i))) (j : SlotId) : P (s.slot j) ((s.modSlot i f).slot j) := by
  by_cases e : j = i
  · subst e; rwa [modSlot_slot_same]
  · rw [modSlot_slot_ne e]; exact same _

theorem apart_slot {s : State} {i : SlotId} {f : Slot → Slot} (h : LocalMove (s.slot i) (f (s.slot i))) :
    Apart s (s.modSlot i f) where
  toKept := .of_tables rfl (modSlot_each .refl h.toSlotKept) (ports_of_eq rfl rfl) rfl rfl rfl
  units := rfl
  cache := rfl
  fetch := rfl
  pool := rfl
  queue := rfl
  seq := modSlot_each (P := fun x y => y.seq = x.seq) (fun _ => rfl) h.seq
  inFlight := modSlot_each (P := fun x y => y.port.inFlight = x.port.inFlight) (fun _ => rfl) h.inFlight
  setup _ _ := rfl

theorem apart_port {s : State} {p : Port} {f : PortState → PortState}
    (h : PortBounded (s.port p) → PortBounded (f (s.port p))) : Apart s (s.modPort p f) := by
  have ports : ∀ q, PortBounded (s.port q) → PortBounded ((s.modPort p f).port q) := by
    intro q
    by_cases e : q = p
    · subst e; rwa [modPort_port_same]
    · rw [modPort_port_ne e]; exact id
  cases p <;> exact
    { toKept := .of_tables rfl (fun _ => .refl _) ports rfl rfl rfl, units := rfl, cache := rfl, fetch := rfl
      pool := rfl, queue := rfl, seq := fun _ => rfl, inFlight := fun _ => rfl, setup := fun _ _ => rfl }

/-- Nothing changes but the time, the frame counters, what the stations are last known by and the
restart's state. -/
theorem apart_outer {s t : State} (h : t = { s with
    now := t.now, msInUnit := t.msInUnit, unitTicks := t.unitTicks, frameCounters := t.frameCounters,
    lastPorts := t.lastPorts, cursors := t.cursors, noticeNumber := t.noticeNumber,
    restartCount := t.restartCount, restart := t.restart, storeValid := t.storeValid }) : Apart s t := by
  generalize t.now = a, t.msInUnit = b, t.unitTicks = c, t.frameCounters = d, t.lastPorts = e, t.cursors = f,
    t.noticeNumber = g, t.restartCount = j, t.restart = k, t.storeValid = l at h
  subst h
  exact { toKept := .of_tables rfl (fun _ => .refl _) (ports_of_eq rfl rfl) rfl rfl rfl, units := rfl, cache := rfl
          fetch := rfl, pool := rfl, queue := rfl, seq := fun _ => rfl, inFlight := fun _ => rfl
          setup := fun _ _ => rfl }

theorem apart_inrush {s : State} {f : Inrush → Inrush} (h : (f s.inrush).queue = s.inrush.queue) :
    Apart s (s.modInrush f) where
  toKept := .of_tables rfl (fun _ => .refl _) (ports_of_eq rfl rfl) rfl rfl rfl
  units := rfl
  cache := rfl
  fetch := rfl
  pool := rfl
  queue := h
  seq _ := rfl
  inFlight _ := rfl
  setup _ _ := rfl

/-- Tables that keep an administrator, their canonical form and the setup of each bound unit. -/
theorem apart_tables {s : State} {f : Tables → Tables}
    (admin : hasAdmin s.tables.stations = true → hasAdmin (f s.tables).stations = true)
    (canonical : tablesCanonical s.tables = true → tablesCanonical (f s.tables) = true)
    (setup : ∀ u, Bound s u → (f s.tables).unitSetup[u] = s.tables.unitSetup[u]) : Apart s (modTables f s) where
  toKept :=
    { pending := rfl, slots := fun _ => .refl _, ports := ports_of_eq rfl rfl
      admin := fun ⟨used, store, save⟩ => ⟨admin used, store, save⟩
      canonical := fun ⟨used, store, save⟩ => ⟨canonical used, store, save⟩ }
  units := rfl
  cache := rfl
  fetch := rfl
  pool := rfl
  queue := rfl
  seq _ := rfl
  inFlight _ := rfl
  setup := setup

/-- The image being saved and the store hold the tables in use, or what the other of them held. -/
theorem apart_store {s : State} {save : Option SaveJob} {store : Option Tables}
    (hsave : ∀ j, save = some j → j.copy = s.tables ∨ s.save = some j)
    (hstore : ∀ t, store = some t → s.store = some t ∨ ∃ j, s.save = some j ∧ j.copy = t) :
    Apart s { s with save, store } where
  toKept :=
    { pending := rfl, slots := fun _ => .refl _, ports := ports_of_eq rfl rfl
      admin := fun ⟨used, hs, hj⟩ =>
        ⟨used, fun t e => (hstore t e).elim (hs t) fun ⟨j, e', c⟩ => c ▸ hj j e',
          fun j e => (hsave j e).elim (fun c => c ▸ used) (hj j)⟩
      canonical := fun ⟨used, hs, hj⟩ =>
        ⟨used, fun t e => (hstore t e).elim (hs t) fun ⟨j, e', c⟩ => c ▸ hj j e',
          fun j e => (hsave j e).elim (fun c => c ▸ used) (hj j)⟩ }
  units := rfl
  cache := rfl
  fetch := rfl
  pool := rfl
  queue := rfl
  seq _ := rfl
  inFlight _ := rfl
  setup _ _ := rfl

/-! ## Moves that leave the sequencers as they are -/

/-- A unit for which a fetch may be issued: it waits in the Issue Queue, has a record, or is bound. -/
def Live (s : State) (u : UnitId) : Prop :=
  (∃ e ∈ s.fetch.issue, e.unit = u) ∨ (∃ r ∈ s.fetch.records, r.unit = u) ∨ Bound s u

def isWrite : Option PortRequest → Bool
  | some (.write _ _) => true
  | _ => false

/-- A unit is reset as its detach resets it, and its blocks go back to the pool (R142). -/
def freeUnit (u : UnitId) (s : State) : State :=
  { s with poolFree := s.poolFree + heldCount (s.unit u) }.modUnit u fun m =>
    { counters := m.counters, ejectReason := m.ejectReason, bootsLeft := m.bootsLeft }

/-- A data block of a write is stored, and the write goes on after it (R154). -/
def writeOn (i : SlotId) (u : UnitId) (lba left : Nat) (data : Block) (s : State) : State :=
  setInFlight i (if left ≤ 1 then none else some (.write (lba + 1) (left - 1))) (s.modUnit u (storeBlock lba data))

/-- What the bridge does but for the moves of its sequencers. -/
inductive Calm : State → State → Prop where
  | trans {s t u : State} : Calm s t → Calm t u → Calm s u
  | apart {s t : State} : Apart s t → Calm s t
  | fetch {s t : State} : FetchMove (Live s) s t → Calm s t
  | ejecting {s : State} {u : UnitId} {why : EjectReason} : Bound s u →
      Calm s (s.modUnit u fun m => { m with state := .ejecting, ejectReason := some why })
  | release {s : State} {u : UnitId} : s.portBusy u = false → Unasked u s → Calm s (freeUnit u s)
  | bind {s : State} {u : UnitId} {i : SlotId} {e : StationId} {a : Addr} :
      (s.unit u).state = .detached → s.unitOf i = none → Calm s (bindUnit u i e a s)
  | read {s : State} {i : SlotId} {r : Option PortRequest} : isWrite (s.slot i).port.inFlight = false →
      isWrite r = false → (r ≠ none → ∃ u, (s.unit u).slot = some i) → Calm s (setInFlight i r s)
  | write {s : State} {i : SlotId} {u : UnitId} {lba n : Nat} : (s.slot i).port.inFlight = none →
      (s.unit u).slot = some i → 1 ≤ n → noSpace s u (newBlocks (s.unit u) lba n) = false →
      Calm s (acceptWrite i u lba n (newBlocks (s.unit u) lba n) s)
  | data {s : State} {i : SlotId} {u : UnitId} {lba left : Nat} {data : Block} :
      (s.slot i).port.inFlight = some (.write lba left) → (s.unit u).slot = some i →
      Calm s (writeOn i u lba left data s)
  | abort {s : State} {i : SlotId} {u : UnitId} : isWrite (s.slot i).port.inFlight = true →
      (s.unit u).slot = some i → Calm s (returnReservation u (setInFlight i none s))

theorem Kept.modUnit {s : State} {u : UnitId} {f : MediaUnit → MediaUnit} : Kept s (s.modUnit u f) :=
  .of_tables rfl (fun _ => .refl _) (ports_of_eq rfl rfl) rfl rfl rfl

theorem Kept.setInFlight {s : State} {i : SlotId} {r : Option PortRequest} : Kept s (setInFlight i r s) :=
  .of_tables rfl (modSlot_each .refl ⟨id, id⟩) (ports_of_eq rfl rfl) rfl rfl rfl

theorem Kept.poolFree {s : State} {n : Nat} : Kept s { s with poolFree := n } :=
  .of_tables rfl (fun _ => .refl _) (ports_of_eq rfl rfl) rfl rfl rfl

theorem Calm.kept {s t : State} (h : Calm s t) : Kept s t := by
  induction h with
  | trans _ _ h k => exact h.trans k
  | apart h => exact h.toKept
  | fetch h => exact h.kept
  | ejecting _ => exact .modUnit
  | release _ _ => exact Kept.poolFree.trans .modUnit
  | bind _ _ => exact .modUnit
  | read _ _ _ => exact .setInFlight
  | write _ _ _ _ => exact Kept.modUnit.trans (Kept.poolFree.trans .setInFlight)
  | data _ _ => exact Kept.modUnit.trans .setInFlight
  | abort _ _ => exact Kept.setInFlight.trans (Kept.modUnit.trans .poolFree)

theorem setInFlight_seq {s : State} {i j : SlotId} {r : Option PortRequest} :
    ((setInFlight i r s).slot j).seq = (s.slot j).seq :=
  modSlot_each (P := fun x y => y.seq = x.seq) (fun _ => rfl) rfl j

/-- The sequencers and the Inrush Queue stand as they did. -/
theorem Calm.seqs {s t : State} (h : Calm s t) :
    (∀ i, (t.slot i).seq = (s.slot i).seq) ∧ t.inrush.queue = s.inrush.queue := by
  induction h with
  | trans _ _ h k => exact ⟨fun i => (k.1 i).trans (h.1 i), k.2.trans h.2⟩
  | apart h => exact ⟨h.seq, h.queue⟩
  | fetch h => exact ⟨fun i => by rw [h.slot], by rw [h.inrush]⟩
  | ejecting _ => exact ⟨fun _ => rfl, rfl⟩
  | release _ _ => exact ⟨fun _ => rfl, rfl⟩
  | bind _ _ => exact ⟨fun _ => rfl, rfl⟩
  | read _ _ _ => exact ⟨fun _ => setInFlight_seq, rfl⟩
  | write _ _ _ _ => exact ⟨fun _ => setInFlight_seq, rfl⟩
  | data _ _ => exact ⟨fun _ => setInFlight_seq, rfl⟩
  | abort _ _ => exact ⟨fun _ => setInFlight_seq, rfl⟩

theorem Calm.seq {s t : State} (h : Calm s t) (i : SlotId) : (t.slot i).seq = (s.slot i).seq := h.seqs.1 i

theorem Calm.refl (s : State) : Calm s s := .apart (apart_outer rfl)

/-- A fold of moves is a move. -/
theorem Calm.foldl {α : Type} {f : State → α → State} (h : ∀ s a, Calm s (f s a)) :
    ∀ (l : List α) (s : State), Calm s (l.foldl f s)
  | [], s => .refl s
  | a :: l, s => (h s a).trans (Calm.foldl h l (f s a))

end Sys2Proof.Machine
end

section
/-! PROOFS. The moves of the bridge but for its sequencers keep units and slots bound one to one (R137,
R142, R164) and the blocks of the Overlay Pool (R153). -/

namespace Sys2Proof.Machine

open Sys2Proof

theorem unitOf_eq_some {s : State} {i : SlotId} {u : UnitId} (h : s.unitOf i = some u) : (s.unit u).slot = some i := by
  simpa using List.find?_some h

theorem unitOf_eq_none {s : State} {i : SlotId} : s.unitOf i = none ↔ ∀ u, (s.unit u).slot ≠ some i := by
  simp [State.unitOf]

theorem portBusy_eq_false {s : State} {u : UnitId} :
    s.portBusy u = false ↔ ∀ i, (s.unit u).slot = some i → (s.slot i).port.inFlight = none := by
  unfold State.portBusy
  cases (s.unit u).slot <;> simp

/-! ## Bindings -/

/-- A unit is in its slot as it was, DETACHED only when it was, and sound when it was. -/
structure Alike (m n : MediaUnit) : Prop where
  state : n.state = .detached ↔ m.state = .detached
  slot : n.slot = m.slot
  sound : UnitSound m → UnitSound n

theorem UnitKept.alike {m n : MediaUnit} (h : UnitKept m n) : Alike m n where
  state := by rw [h.state]
  slot := h.slot
  sound := by unfold UnitSound; rw [h.state, h.slot, h.station, h.overlay, h.reserved]; exact id

theorem alike_modUnit {s : State} {u : UnitId} {f : MediaUnit → MediaUnit} (h : Alike (s.unit u) (f (s.unit u)))
    (v : UnitId) : Alike (s.unit v) ((s.modUnit u f).unit v) := by
  rw [modUnit_unit]
  split_ifs with e
  · subst e; exact h
  · exact (UnitKept.refl _).alike

theorem slot_setInFlight {s : State} {i j : SlotId} {r : Option PortRequest} :
    ((setInFlight i r s).slot j).port.inFlight = if j = i then r else (s.slot j).port.inFlight := by
  rw [setInFlight, modSlot_slot]
  split_ifs <;> rfl

section

variable {s t : State}

theorem BindingsSound.live (h : BindingsSound s) {u : UnitId} (l : Live s u) : Bound s u := by
  obtain ⟨-, -, -, records, issue, -⟩ := h
  rcases l with ⟨e, he, rfl⟩ | ⟨r, hr, rfl⟩ | b
  · exact issue e he
  · exact records r hr
  · exact b

/-- Units alike, requests only of slots that are bound, and lines, records and entries only of units that may
have them. -/
theorem BindingsSound.of_alike (h : BindingsSound s) (units : ∀ u, Alike (s.unit u) (t.unit u))
    (inFlight : ∀ i, (t.slot i).port.inFlight ≠ none →
      (s.slot i).port.inFlight ≠ none ∨ ∃ u, (s.unit u).slot = some i)
    (m : FetchMove (Live s) s { s with cache := t.cache, fetch := t.fetch }) : BindingsSound t := by
  have live {u : UnitId} (l : Live s u) : (t.unit u).state ≠ .detached := fun e =>
    h.live l ((units u).state.mp e)
  have still {u : UnitId} (b : (s.unit u).state ≠ .detached) : (t.unit u).state ≠ .detached := fun e =>
    b ((units u).state.mp e)
  obtain ⟨sound, one, busy, records, issue, cache, total, each⟩ := h
  refine ⟨fun u => (units u).sound (sound u), fun u v i => ?_, fun i w => ?_, fun r w => ?_, fun e w => ?_,
    fun l w => ?_, m.total total, fun u => m.each u (each u)⟩
  · rw [(units u).slot, (units v).slot]; exact one u v i
  · obtain ⟨u, e⟩ := (inFlight i w).elim (busy i) id
    exact ⟨u, (units u).slot.trans e⟩
  · rcases m.records r w with ⟨r', w', e⟩ | l
    · exact e ▸ still (records r' w')
    · exact live l
  · rcases m.issue e w with ⟨e', w', eq⟩ | l
    · exact eq ▸ still (issue e' w')
    · exact live l
  · rcases m.cache l w with ⟨l', w', e⟩ | l
    · exact e ▸ still (cache l' w')
    · exact live l

/-- Where the fetch path stands as it did. -/
theorem BindingsSound.of_units (h : BindingsSound s) (units : ∀ u, Alike (s.unit u) (t.unit u))
    (inFlight : ∀ i, (t.slot i).port.inFlight ≠ none →
      (s.slot i).port.inFlight ≠ none ∨ ∃ u, (s.unit u).slot = some i)
    (cache : t.cache = s.cache) (fetch : t.fetch = s.fetch) : BindingsSound t :=
  h.of_alike units inFlight (by rw [cache, fetch]; exact .refl s)

theorem FetchMove.path {A : UnitId → Prop} (h : FetchMove A s t) :
    FetchMove A s { s with cache := t.cache, fetch := t.fetch } where
  frame := rfl
  ports := ports_of_eq rfl rfl
  units _ := .refl _
  cache := h.cache
  issue := h.issue
  records := h.records
  total := h.total
  each := h.each

theorem alike_ejecting {m : MediaUnit} {why : EjectReason} (b : m.state ≠ .detached) :
    Alike m { m with state := .ejecting, ejectReason := some why } where
  state := by simp [b]
  slot := rfl
  sound := by rintro ⟨x, y, -⟩; exact ⟨by simpa [b] using x, y, by simp⟩

theorem alike_bound {m n : MediaUnit} (state : n.state = m.state) (slot : n.slot = m.slot)
    (station : n.station = m.station) {i : SlotId} (b : m.slot = some i) : Alike m n where
  state := by rw [state]
  slot := slot
  sound := by
    rintro ⟨x, y, -⟩
    have bound : m.state ≠ .detached := fun e => by simp [x.mp e] at b
    exact ⟨by rw [state, slot]; exact x, by rw [station, slot]; exact y, fun e => absurd (state ▸ e) bound⟩

theorem freeUnit_unit {u v : UnitId} : (freeUnit u s).unit v = if v = u then
    { counters := (s.unit v).counters, ejectReason := (s.unit v).ejectReason, bootsLeft := (s.unit v).bootsLeft }
    else s.unit v := modUnit_unit

theorem bindings_release {u : UnitId} (h : BindingsSound s) (free : s.portBusy u = false) (un : Unasked u s) :
    BindingsSound (freeUnit u s) := by
  obtain ⟨sound, one, busy, records, issue, cache, total, each⟩ := h
  have other {v : UnitId} (n : v ≠ u) : (freeUnit u s).unit v = s.unit v := by rw [freeUnit_unit, if_neg n]
  have self : ((freeUnit u s).unit u).slot = none := by rw [freeUnit_unit, if_pos rfl]
  refine ⟨fun v => ?_, fun v w i => ?_, fun i w => ?_, fun r w => ?_, fun e w => ?_, fun l w => ?_, total, each⟩
  · by_cases e : v = u
    · rw [freeUnit_unit, if_pos e]; simp [UnitSound]
    · rw [other e]; exact sound v
  · by_cases e : v = u
    · subst e; simp [self]
    · by_cases e' : w = u
      · subst e'; simp [self]
      · rw [other e, other e']; exact one v w i
  · obtain ⟨v, e⟩ := busy i w
    refine ⟨v, (congrArg _ (other ?_)).trans e⟩
    rintro rfl
    exact w (portBusy_eq_false.mp free i e)
  · rw [other (un.records r w)]; exact records r w
  · rw [other (un.issue e w)]; exact issue e w
  · rw [other (un.cache l w)]; exact cache l w

theorem bindings_bind {u : UnitId} {i : SlotId} {e : StationId} {a : Addr} (h : BindingsSound s)
    (d : (s.unit u).state = .detached) (free : s.unitOf i = none) : BindingsSound (bindUnit u i e a s) := by
  obtain ⟨sound, one, busy, records, issue, cache, total, each⟩ := h
  have free := unitOf_eq_none.mp free
  have other {v : UnitId} (n : v ≠ u) : (bindUnit u i e a s).unit v = s.unit v := by
    rw [bindUnit, modUnit_unit, if_neg n]
  have state : ((bindUnit u i e a s).unit u).state = .presenting := by rw [bindUnit, modUnit_unit, if_pos rfl]
  have slot : ((bindUnit u i e a s).unit u).slot = some i := by rw [bindUnit, modUnit_unit, if_pos rfl]
  have still {v : UnitId} (b : (s.unit v).state ≠ .detached) :
      ((bindUnit u i e a s).unit v).state ≠ .detached := by
    rwa [other (by rintro rfl; exact b d)]
  refine ⟨fun v => ?_, fun v w j => ?_, fun j w => ?_, fun r w => still (records r w),
    fun e w => still (issue e w), fun l w => still (cache l w), total, each⟩
  · by_cases e : v = u
    · subst e; simp [UnitSound, bindUnit]
    · rw [other e]; exact sound v
  · by_cases e : v = u
    · subst e
      by_cases e' : w = v
      · exact fun _ _ => e'.symm
      · rw [slot, other e']; rintro ⟨⟩ b; exact absurd b (free w)
    · by_cases e' : w = u
      · subst e'; rw [slot, other e]; rintro b ⟨⟩; exact absurd b (free v)
      · rw [other e, other e']; exact one v w j
  · obtain ⟨v, b⟩ := busy j w
    refine ⟨v, (congrArg _ (other ?_)).trans b⟩
    rintro rfl
    simp [(sound v).1.mp d] at b

/-- A request in flight on a slot with a bound unit, or one that was in flight before. -/
theorem inFlight_bound {i j : SlotId} {u : UnitId} {r : Option PortRequest} (slot : (s.unit u).slot = some i)
    (w : ((setInFlight i r s).slot j).port.inFlight ≠ none) :
    (s.slot j).port.inFlight ≠ none ∨ ∃ u, (s.unit u).slot = some j := by
  rw [slot_setInFlight] at w
  split_ifs at w with e
  · exact .inr ⟨u, e ▸ slot⟩
  · exact .inl w

theorem Calm.bindings (c : Calm s t) : BindingsSound s → BindingsSound t := by
  induction c with
  | trans _ _ h k => exact k ∘ h
  | apart a =>
    exact fun h => h.of_units (fun u => by rw [a.unit]; exact (UnitKept.refl _).alike)
      (fun i w => .inl (by rwa [← a.inFlight])) a.cache a.fetch
  | fetch m =>
    exact fun h => h.of_alike (fun u => (m.units u).alike) (fun i w => .inl (by rwa [← m.slot])) m.path
  | ejecting b => exact fun h => h.of_units (alike_modUnit (alike_ejecting b)) (fun _ => .inl) rfl rfl
  | release free un => exact fun h => bindings_release h free un
  | bind d free => exact fun h => bindings_bind h d free
  | @read s i r _ _ bound =>
    refine fun h => h.of_units (fun _ => (UnitKept.refl _).alike) (fun j w => ?_) rfl rfl
    rw [slot_setInFlight] at w
    split_ifs at w with e
    · exact .inr (e ▸ bound w)
    · exact .inl w
  | write _ slot _ _ =>
    exact fun h => h.of_units (alike_modUnit (alike_bound rfl rfl rfl slot)) (fun _ => inFlight_bound slot) rfl rfl
  | data _ slot =>
    exact fun h => h.of_units (alike_modUnit (alike_bound rfl rfl rfl slot)) (fun _ => inFlight_bound slot) rfl rfl
  | abort _ slot =>
    exact fun h => h.of_units (alike_modUnit (alike_bound rfl rfl rfl slot)) (fun _ => inFlight_bound slot) rfl rfl

end

/-! ## The Overlay Pool -/

/-- A count after the first block, in one place less. -/
theorem newBlocks_succ {m : MediaUnit} {first n : Nat} : newBlocks m first (n + 1) =
    (if (indexGet m.overlay first).isSome then 0 else 1) + newBlocks m (first + 1) n := by
  have shift : lbas first (n + 1) = first :: lbas (first + 1) n := by
    simp [lbas, List.range_succ_eq_map, Function.comp_def, Nat.add_assoc, Nat.add_comm 1]
  rw [newBlocks, shift, List.filter_cons]
  cases (indexGet m.overlay first) <;> simp [newBlocks, Nat.add_comm]

/-- A block stored below a range does not change how many of its LBAs are new. -/
theorem newBlocks_storeBlock {m : MediaUnit} {lba first n : Nat} {d : Block} (h : lba < first) :
    newBlocks (storeBlock lba d m) first n = newBlocks m first n := by
  unfold newBlocks
  congr 1
  refine List.filter_congr fun k hk => ?_
  obtain ⟨j, -, rfl⟩ := List.mem_map.mp hk
  rw [storeBlock, indexGet_set_ne (by omega)]

/-- Keys that rise, as the statement and as the library say it. -/
theorem indexRises_iff : ∀ {m : List (Nat × Block)}, indexRises m = true ↔ (m.map Prod.fst).Pairwise (· < ·)
  | [] => by simp [indexRises]
  | [_] => by simp [indexRises]
  | a :: b :: m => by
    rw [indexRises, Bool.and_eq_true, decide_eq_true_eq, indexRises_iff]
    constructor
    · rintro ⟨l, w⟩
      refine List.pairwise_cons.mpr ⟨fun k hk => ?_, w⟩
      rcases List.mem_cons.mp hk with rfl | hk
      · exact l
      · exact l.trans ((List.pairwise_cons.mp w).1 k hk)
    · intro w
      obtain ⟨above, rest⟩ := List.pairwise_cons.mp w
      exact ⟨above _ (by simp), rest⟩

theorem mem_indexSet {a k : Nat} {v : Block} : ∀ {m : List (Nat × Block)},
    k ∈ (indexSet m a v).map Prod.fst → k = a ∨ k ∈ m.map Prod.fst
  | [] => by simp [indexSet]
  | (j, x) :: m => by
    unfold indexSet
    split_ifs with l e
    · simp
    · simp; tauto
    · rw [List.map_cons, List.mem_cons, List.map_cons, List.mem_cons]
      rintro (rfl | w)
      · exact .inr (.inl rfl)
      · exact (mem_indexSet w).imp id .inr

theorem indexSet_rises {a : Nat} {v : Block} : ∀ {m : List (Nat × Block)},
    (m.map Prod.fst).Pairwise (· < ·) → ((indexSet m a v).map Prod.fst).Pairwise (· < ·)
  | [], _ => by simp [indexSet]
  | (j, x) :: m, w => by
    obtain ⟨above, rest⟩ := List.pairwise_cons.mp w
    unfold indexSet
    split_ifs with l e
    · exact List.pairwise_cons.mpr ⟨fun k hk => by
        rcases List.mem_cons.mp hk with rfl | hk
        · exact l
        · exact l.trans (above k hk), w⟩
    · subst e; exact w
    · exact List.pairwise_cons.mpr ⟨fun k hk => by
        rcases mem_indexSet hk with rfl | hk
        · omega
        · exact above k hk, indexSet_rises rest⟩

/-- The blocks that the units hold or have reserved. -/
def heldTotal (s : State) : Nat := ((List.finRange 4).map fun u => heldCount (s.unit u)).sum

theorem heldTotal_modUnit {s : State} {u : UnitId} {f : MediaUnit → MediaUnit} :
    heldTotal (s.modUnit u f) + heldCount (s.unit u) = heldTotal s + heldCount (f (s.unit u)) := by
  have four : List.finRange 4 = [0, 1, 2, 3] := rfl
  unfold heldTotal
  rw [four]
  fin_cases u <;> simp [modUnit_unit] <;> omega

/-- The reservation of a unit, by the request in flight on its port. -/
def Reserves (r : Option PortRequest) (m : MediaUnit) : Prop :=
  match r with
  | some (.write lba left) => 1 ≤ left ∧ m.reserved = newBlocks m lba left
  | some (.read _ _ _) => m.reserved = 0
  | none => m.reserved = 0

theorem reservationSound_iff {s : State} {u : UnitId} :
    ReservationSound s u ↔ ∀ i, (s.unit u).slot = some i → Reserves (s.slot i).port.inFlight (s.unit u) := by
  unfold ReservationSound
  cases (s.unit u).slot with
  | none => simp
  | some i => exact ⟨fun h j e => Option.some.inj e ▸ h, fun h => h i rfl⟩

theorem reserves_of_not_write {r : Option PortRequest} {m : MediaUnit} (h : isWrite r = false) :
    Reserves r m ↔ m.reserved = 0 := by
  rcases r with - | (_ | _)
  · rfl
  · rfl
  · cases h

section

variable {s t : State}

/-- A unit keeps its slot, its blocks and the request in flight on its port. -/
structure HeldAlike (s t : State) (u : UnitId) : Prop where
  slot : (t.unit u).slot = (s.unit u).slot
  overlay : (t.unit u).overlay = (s.unit u).overlay
  reserved : (t.unit u).reserved = (s.unit u).reserved
  inFlight : ∀ i, (s.unit u).slot = some i → (t.slot i).port.inFlight = (s.slot i).port.inFlight

theorem HeldAlike.count {u : UnitId} (h : HeldAlike s t u) : heldCount (t.unit u) = heldCount (s.unit u) := by
  rw [heldCount, heldCount, h.overlay, h.reserved]

theorem HeldAlike.reservation {u : UnitId} (h : HeldAlike s t u) (r : ReservationSound s u) :
    ReservationSound t u := by
  refine reservationSound_iff.mpr fun i b => ?_
  rw [h.slot] at b
  have old := reservationSound_iff.mp r i b
  unfold Reserves newBlocks at old ⊢
  rwa [h.inFlight i b, h.overlay, h.reserved]

/-- The Overlay Pool's part of the invariant for one unit. -/
def HeldSound (s : State) (u : UnitId) : Prop :=
  indexRises (s.unit u).overlay = true ∧ ReservationSound s u ∧ heldCount (s.unit u) ≤ (s.unitSetup u).overlayLimit

/-- Each unit keeps its blocks as they were, or is sound with those it now has. -/
theorem PoolSound.of_units (h : PoolSound s) (b : BindingsSound t) (units : ∀ u, HeldAlike s t u ∨ HeldSound t u)
    (setup : ∀ u, Bound s u → t.unitSetup u = s.unitSetup u)
    (pool : t.poolFree + heldTotal t = s.poolFree + heldTotal s) : PoolSound t := by
  obtain ⟨⟨sound, -⟩, blocks, limits, total⟩ := h
  refine ⟨b, fun u => ?_, fun u => ?_, pool.trans total⟩
  · rcases units u with a | ⟨rises, reserved, -⟩
    · exact ⟨a.overlay ▸ (blocks u).1, a.reservation (blocks u).2⟩
    · exact ⟨rises, reserved⟩
  · rcases units u with a | ⟨-, -, limit⟩
    · rw [a.count]
      by_cases d : (s.unit u).state = .detached
      · simp [heldCount, (sound u).2.2 d]
      · rw [setup u d]; exact limits u
    · exact limit

/-- What leaves the blocks of every unit and the pool as they were. -/
theorem PoolSound.of_alike (h : PoolSound s) (b : BindingsSound t) (units : ∀ u, HeldAlike s t u)
    (setup : ∀ u, Bound s u → t.unitSetup u = s.unitSetup u) (pool : t.poolFree = s.poolFree) : PoolSound t := by
  refine h.of_units b (fun u => .inl (units u)) setup ?_
  simp only [pool, heldTotal, (units _).count]

theorem HeldAlike.of_kept {u : UnitId} (k : UnitKept (s.unit u) (t.unit u))
    (inFlight : ∀ i, (t.slot i).port.inFlight = (s.slot i).port.inFlight) : HeldAlike s t u :=
  ⟨k.slot, k.overlay, k.reserved, fun i _ => inFlight i⟩

/-- A change of unit `u` in slot `i` and of the request in flight there leaves the other units as they were. -/
theorem HeldAlike.of_other {u v : UnitId} {i : SlotId} (b : BindingsSound s) (slot : (s.unit u).slot = some i)
    (ne : v ≠ u) (unit : t.unit v = s.unit v)
    (inFlight : ∀ j, j ≠ i → (t.slot j).port.inFlight = (s.slot j).port.inFlight) : HeldAlike s t v := by
  obtain ⟨-, one, -⟩ := b
  refine ⟨by rw [unit], by rw [unit], by rw [unit], fun j e => inFlight j ?_⟩
  rintro rfl
  exact ne (one v u j e slot)

theorem pool_release {u : UnitId} (h : PoolSound s) (b : BindingsSound (freeUnit u s)) :
    PoolSound (freeUnit u s) := by
  refine h.of_units b (fun v => ?_) (fun _ _ => rfl) ?_
  · by_cases e : v = u
    · subst e
      refine .inr ⟨?_, ?_, ?_⟩ <;> simp [freeUnit_unit, indexRises, ReservationSound, heldCount]
    · refine .inl ⟨?_, ?_, ?_, fun _ _ => rfl⟩ <;> rw [freeUnit_unit, if_neg e]
  · have moved := heldTotal_modUnit (s := s) (u := u)
      (f := fun m => { counters := m.counters, ejectReason := m.ejectReason, bootsLeft := m.bootsLeft })
    have empty : ∀ m : MediaUnit,
      heldCount { counters := m.counters, ejectReason := m.ejectReason, bootsLeft := m.bootsLeft } = 0 := fun _ => rfl
    rw [empty] at moved
    show s.poolFree + heldCount (s.unit u) + heldTotal (s.modUnit u _) = _
    omega

theorem pool_bind {u : UnitId} {i : SlotId} {e : StationId} {a : Addr} (h : PoolSound s)
    (b : BindingsSound (bindUnit u i e a s)) (d : (s.unit u).state = .detached) (free : s.unitOf i = none) :
    PoolSound (bindUnit u i e a s) := by
  have whole := h
  obtain ⟨⟨sound, -, busy, -⟩, -⟩ := whole
  obtain ⟨overlay, reserved⟩ := (sound u).2.2 d
  have idle : (s.slot i).port.inFlight = none := by
    by_contra w
    obtain ⟨v, e⟩ := busy i w
    exact unitOf_eq_none.mp free v e
  refine h.of_units b (fun v => ?_) (fun _ _ => rfl) ?_
  · rw [HeldSound, bindUnit, modUnit_unit]
    by_cases e : v = u
    · subst e
      refine .inr ?_
      rw [if_pos rfl, reservationSound_iff, modUnit_unit, if_pos rfl]
      refine ⟨by simp [overlay, indexRises], ?_, by simp [heldCount, overlay, reserved]⟩
      rintro j ⟨⟩
      simpa [idle, Reserves] using reserved
    · refine .inl ⟨?_, ?_, ?_, fun _ _ => rfl⟩ <;> rw [modUnit_unit, if_neg e]
  · exact congrArg (s.poolFree + ·) (Nat.add_right_cancel heldTotal_modUnit)

/-- The other units, where unit `u` in slot `i` and the request in flight there have changed. -/
theorem HeldAlike.of_change {u v : UnitId} {i : SlotId} {f : MediaUnit → MediaUnit} {r : Option PortRequest}
    (b : BindingsSound s) (slot : (s.unit u).slot = some i) (ne : v ≠ u) (units : t.units = (s.modUnit u f).units)
    (slots : t.slots = (setInFlight i r s).slots) : HeldAlike s t v := by
  refine .of_other b slot ne ?_ fun j n => ?_
  · rw [State.unit, units]; exact modUnit_unit_ne ne
  · rw [State.slot, slots]; exact (slot_setInFlight.trans (if_neg n))

/-- The sum of the free blocks and of those held, where the blocks of one unit have changed. -/
theorem pool_of_change {u : UnitId} {f : MediaUnit → MediaUnit} (units : t.units = (s.modUnit u f).units)
    (pool : t.poolFree + heldCount (f (s.unit u)) = s.poolFree + heldCount (s.unit u)) :
    t.poolFree + heldTotal t = s.poolFree + heldTotal s := by
  have moved := heldTotal_modUnit (s := s) (u := u) (f := f)
  have same : heldTotal t = heldTotal (s.modUnit u f) := by simp only [heldTotal, State.unit, units]
  omega

theorem pool_read {i : SlotId} {r : Option PortRequest} (h : PoolSound s) (b : BindingsSound (setInFlight i r s))
    (old : isWrite (s.slot i).port.inFlight = false) (new : isWrite r = false) : PoolSound (setInFlight i r s) := by
  have whole := h
  obtain ⟨-, blocks, limits, -⟩ := whole
  refine h.of_units b (fun u => .inr ⟨(blocks u).1, reservationSound_iff.mpr fun j e => ?_, limits u⟩)
    (fun _ _ => rfl) rfl
  have res := reservationSound_iff.mp (blocks u).2 j e
  rw [slot_setInFlight]
  split_ifs with same
  · subst same
    exact (reserves_of_not_write new).mpr ((reserves_of_not_write old).mp res)
  · exact res

theorem pool_write {i : SlotId} {u : UnitId} {lba n : Nat} (h : PoolSound s)
    (b : BindingsSound (acceptWrite i u lba n (newBlocks (s.unit u) lba n) s))
    (free : (s.slot i).port.inFlight = none) (slot : (s.unit u).slot = some i) (pos : 1 ≤ n)
    (space : noSpace s u (newBlocks (s.unit u) lba n) = false) :
    PoolSound (acceptWrite i u lba n (newBlocks (s.unit u) lba n) s) := by
  have whole := h
  obtain ⟨bound, blocks, limits, -⟩ := whole
  have res := reservationSound_iff.mp (blocks u).2 i slot
  rw [free] at res
  simp only [noSpace, Bool.or_eq_false_iff, decide_eq_false_iff_not, Nat.not_lt] at space
  have unit : (acceptWrite i u lba n (newBlocks (s.unit u) lba n) s).unit u =
      { s.unit u with reserved := (s.unit u).reserved + newBlocks (s.unit u) lba n } := modUnit_unit_same
  refine h.of_units b (fun v => ?_) (fun _ _ => rfl) (pool_of_change (u := u)
    (f := fun m => { m with reserved := m.reserved + newBlocks (s.unit u) lba n }) rfl ?_)
  · by_cases e : v = u
    · subst e
      refine .inr ⟨?_, reservationSound_iff.mpr fun j e => ?_, ?_⟩
      · rw [unit]; exact (blocks v).1
      · rw [unit] at e ⊢
        obtain rfl : i = j := Option.some.inj (slot.symm.trans e)
        rw [acceptWrite, slot_setInFlight, if_pos rfl]
        exact ⟨pos, (congrArg (· + _) res).trans (Nat.zero_add _)⟩
      · rw [unit]
        simp only [heldCount] at space ⊢
        exact (Nat.add_assoc _ _ _).symm.trans_le space.2
    · exact .inl (.of_change (f := fun m => { m with reserved := m.reserved + newBlocks (s.unit u) lba n })
        bound slot e rfl rfl)
  · show s.poolFree - newBlocks (s.unit u) lba n + _ = _
    simp only [heldCount]
    omega

/-- A stored block takes the place that was reserved for it, if its LBA was new (R154). -/
theorem storeBlock_reserves {m : MediaUnit} {lba left : Nat} {d : Block} (h : Reserves (some (.write lba left)) m)
    (rises : indexRises m.overlay = true) :
    heldCount (storeBlock lba d m) = heldCount m ∧
      Reserves (if left ≤ 1 then none else some (.write (lba + 1) (left - 1))) (storeBlock lba d m) := by
  obtain ⟨pos, res⟩ := h
  obtain ⟨k, rfl⟩ : ∃ k, left = k + 1 := ⟨left - 1, by omega⟩
  rw [newBlocks_succ] at res
  have length := indexSet_length (a := lba) (v := d) (indexRises_iff.mp rises)
  have after : (storeBlock lba d m).reserved = newBlocks m (lba + 1) k := by
    simp only [storeBlock]
    split_ifs at res ⊢ <;> omega
  constructor
  · simp only [heldCount, storeBlock, length]
    split_ifs at res ⊢ <;> omega
  · split_ifs with last
    · obtain rfl : k = 0 := by omega
      exact after.trans (by simp [newBlocks, lbas])
    · refine ⟨by omega, ?_⟩
      rw [newBlocks_storeBlock (by omega)]
      exact after

theorem pool_data {i : SlotId} {u : UnitId} {lba left : Nat} {data : Block} (h : PoolSound s)
    (b : BindingsSound (writeOn i u lba left data s))
    (inFlight : (s.slot i).port.inFlight = some (.write lba left)) (slot : (s.unit u).slot = some i) :
    PoolSound (writeOn i u lba left data s) := by
  have whole := h
  obtain ⟨bound, blocks, limits, -⟩ := whole
  have res := reservationSound_iff.mp (blocks u).2 i slot
  rw [inFlight] at res
  obtain ⟨held, after⟩ := storeBlock_reserves (d := data) res (blocks u).1
  have unit : (writeOn i u lba left data s).unit u = storeBlock lba data (s.unit u) := modUnit_unit_same
  refine h.of_units b (fun v => ?_) (fun _ _ => rfl) (pool_of_change rfl (congrArg _ held))
  by_cases e : v = u
  · subst e
    refine .inr ⟨?_, reservationSound_iff.mpr fun j e => ?_, ?_⟩
    · rw [unit]; exact indexRises_iff.mpr (indexSet_rises (indexRises_iff.mp (blocks v).1))
    · rw [unit] at e ⊢
      obtain rfl : i = j := Option.some.inj (slot.symm.trans e)
      rwa [writeOn, slot_setInFlight, if_pos rfl]
    · rw [unit, held]; exact limits v
  · exact .inl (.of_change bound slot e rfl rfl)

theorem pool_abort {i : SlotId} {u : UnitId} (h : PoolSound s)
    (b : BindingsSound (returnReservation u (setInFlight i none s))) (slot : (s.unit u).slot = some i) :
    PoolSound (returnReservation u (setInFlight i none s)) := by
  have whole := h
  obtain ⟨bound, blocks, limits, -⟩ := whole
  have unit : (returnReservation u (setInFlight i none s)).unit u = { s.unit u with reserved := 0 } :=
    modUnit_unit_same
  refine h.of_units b (fun v => ?_) (fun _ _ => rfl)
    (pool_of_change (u := u) (f := fun m => { m with reserved := 0 }) rfl ?_)
  · by_cases e : v = u
    · subst e
      refine .inr ⟨?_, reservationSound_iff.mpr fun j e => ?_, ?_⟩
      · rw [unit]; exact (blocks v).1
      · rw [unit] at e ⊢
        obtain rfl : i = j := Option.some.inj (slot.symm.trans e)
        show Reserves ((setInFlight i none s).slot i).port.inFlight _
        rw [slot_setInFlight, if_pos rfl]
        rfl
      · rw [unit]; exact (Nat.add_le_add_left (Nat.zero_le _) _).trans (limits v)
    · exact .inl (.of_change (f := fun m => { m with reserved := 0 }) bound slot e rfl rfl)
  · show s.poolFree + (s.unit u).reserved + _ = _
    simp only [heldCount]
    omega

theorem Calm.pool (c : Calm s t) : PoolSound s → PoolSound t := by
  induction c with
  | trans _ _ h k => exact k ∘ h
  | apart a =>
    exact fun h => h.of_alike (Calm.apart a |>.bindings h.1)
      (fun u => .of_kept (by rw [a.unit]; exact .refl _) a.inFlight) a.setup a.pool
  | fetch m =>
    exact fun h => h.of_alike (Calm.fetch m |>.bindings h.1)
      (fun u => .of_kept (m.units u) fun i => by rw [m.slot]) (fun _ _ => by rw [State.unitSetup, m.tables]; rfl)
      (by rw [m.frame])
  | @ejecting s u why bound =>
    refine fun h => h.of_alike (Calm.ejecting bound |>.bindings h.1) (fun v => ?_) (fun _ _ => rfl) rfl
    by_cases e : v = u
    · subst e
      refine ⟨?_, ?_, ?_, fun _ _ => rfl⟩ <;> rw [modUnit_unit_same]
    · refine ⟨?_, ?_, ?_, fun _ _ => rfl⟩ <;> rw [modUnit_unit_ne e]
  | release free un => exact fun h => pool_release h (Calm.release free un |>.bindings h.1)
  | bind d free => exact fun h => pool_bind h (Calm.bind d free |>.bindings h.1) d free
  | read old new bound => exact fun h => pool_read h (Calm.read old new bound |>.bindings h.1) old new
  | write free slot pos space =>
    exact fun h => pool_write h (Calm.write free slot pos space |>.bindings h.1) free slot pos space
  | data inFlight slot => exact fun h => pool_data h (Calm.data inFlight slot |>.bindings h.1) inFlight slot
  | abort w slot => exact fun h => pool_abort h (Calm.abort w slot |>.bindings h.1) slot

end

end Sys2Proof.Machine
end

section
/-! PROOFS. The operations that leave the sequencers as they are, one lemma for each: counters, markers and
notices, the boot observation, the moves of FEED and RST_OUT, the detach, the console and the storage ports. -/

namespace Sys2Proof.Machine

open Sys2Proof

/-! ## Relations between states that hold of calm moves and of chains -/

/-- A relation that holds of each calm move and of two moves one after the other. -/
structure Moves (R : State → State → Prop) : Prop where
  calm : ∀ {s t}, Calm s t → R s t
  trans : ∀ {s t u}, R s t → R t u → R s u

theorem Moves.ofCalm : Moves Calm := ⟨id, Calm.trans⟩

theorem Moves.refl {R : State → State → Prop} (m : Moves R) (s : State) : R s s := m.calm (.refl s)

theorem Moves.foldl {R : State → State → Prop} (m : Moves R) {α : Type} {f : State → α → State}
    (h : ∀ s a, R s (f s a)) : ∀ (l : List α) (s : State), R s (l.foldl f s)
  | [], s => m.refl s
  | a :: l, s => m.trans (h s a) (Moves.foldl m h l (f s a))

/-! ## Slots, counters, markers, notices -/

/-- A change of a slot that its buffers, its collections, its sequencer and its request take no part in. -/
theorem slot_calm {s : State} {i : SlotId} {f : Slot → Slot} (h : LocalMove (s.slot i) (f (s.slot i))) :
    Calm s (s.modSlot i f) := .apart (apart_slot h)

theorem LocalMove.same {x y : Slot} (hist : y.hist = x.hist := by rfl) (log : y.log.entries = x.log.entries := by rfl)
    (items : y.input.items = x.input.items := by rfl) (holdOffs : y.matcher.holdOffs = x.matcher.holdOffs := by rfl)
    (seq : y.seq = x.seq := by rfl) (inFlight : y.port.inFlight = x.port.inFlight := by rfl) : LocalMove x y where
  bounded := by unfold SlotBounded; rw [hist, log, items]; exact id
  canonical := by unfold SlotCanonical; rw [hist, holdOffs]; exact id
  seq := seq
  inFlight := inFlight

theorem count_calm {s : State} {i : SlotId} {f : SlotCounters → SlotCounters} : Calm s (s.count i f) :=
  slot_calm .same

theorem outer_calm {s t : State} (h : t = { s with
    now := t.now, msInUnit := t.msInUnit, unitTicks := t.unitTicks, frameCounters := t.frameCounters,
    lastPorts := t.lastPorts, cursors := t.cursors, noticeNumber := t.noticeNumber,
    restartCount := t.restartCount, restart := t.restart, storeValid := t.storeValid }) : Calm s t :=
  .apart (apart_outer h)

theorem countPort_calm {s : State} {p : Port} {f : PortCounters → PortCounters} : Calm s (s.countPort p f) :=
  .apart (apart_port id)

/-- A posting keeps the Marker List within its size and each marker in the window (R29). -/
theorem post_calm {s : State} {i : SlotId} {d : MarkerDetail} : Calm s (s.post i d) := by
  refine slot_calm ⟨⟨?_, id⟩, rfl, rfl⟩
  rintro ⟨retained, markers, inside, rest⟩
  refine ⟨retained, postTo_length markers, fun m hm => ?_, rest⟩
  rcases List.mem_append.mp hm with hm | hm
  · refine inside m ?_
    split_ifs at hm
    · exact List.mem_of_mem_drop hm
    · exact hm
  · rw [List.mem_singleton.mp hm]
    simp [inInterval, oldest]

theorem offerCopy_calm {s : State} {b : OwnBody} {slot : Option SlotId} {e : StationId} :
    Calm s (offerCopy b slot s e) := by
  unfold offerCopy
  dsimp only
  split_ifs with room
  · exact .fetch (fetchMove_ownAppend room)
  · exact countPort_calm

theorem notify_calm {s : State} {slot : Option SlotId} {b : NoticeBody} : Calm s (s.notify slot b) :=
  (outer_calm rfl).trans (Calm.foldl (fun _ _ => offerCopy_calm) _ _)

theorem mediaNotice_calm {s : State} {u : UnitId} {slot : Option SlotId} {ev : MediaEvent}
    {why : Option EjectReason} : Calm s (mediaNotice u slot ev why s) := notify_calm

/-- A unit changes, but for its state, its binding and its blocks. -/
theorem unit_calm {s : State} {u : UnitId} {f : MediaUnit → MediaUnit} (h : UnitKept (s.unit u) (f (s.unit u))) :
    Calm s (s.modUnit u f) := .fetch (fetchMove_modUnit h)

theorem countUnit_calm {s : State} {u : UnitId} {f : UnitCounters → UnitCounters} : Calm s (s.countUnit u f) :=
  .fetch fetchMove_countUnit

theorem entries_live {s : State} : ∀ e ∈ s.fetch.issue, Live s e.unit := fun e h => .inl ⟨e, h, rfl⟩

/-- A move of the fetch path on behalf of the units that may ask. -/
theorem fetch_calm {s t : State} (h : FetchMove (Live s) s t) : Calm s t := .fetch h

/-! ## The detach and the eject (R141, R142) -/

theorem endRequester_calm {s : State} {u : UnitId} {prime : Bool} {images : List Nat} :
    Calm s (endRequester u prime images s) := .fetch endRequester_move

/-- A unit on whose port no request is in flight may be detached. -/
theorem detach_calm {s : State} {u : UnitId} (h : s.portBusy u = false) : Calm s (detach u s) := by
  have forgotten : FetchMove (Live s) s (invalidate u s) := invalidate_move entries_live
  have free : (invalidate u s).portBusy u = false := by
    rw [portBusy_eq_false] at h ⊢
    intro i e
    rw [forgotten.slot]
    exact h i ((forgotten.units u).slot ▸ e)
  exact (Calm.fetch forgotten).trans (.trans (.release free unasked_invalidate)
    (mediaNotice_calm.trans (unit_calm ⟨rfl, rfl, rfl, rfl, rfl⟩)))

theorem ejectStart_calm {s : State} {u : UnitId} {why : EjectReason} (h : Bound s u) :
    Calm s (ejectStart u why s) := by
  unfold ejectStart
  dsimp only
  refine Calm.trans (.ejecting (why := why) h) (Calm.trans ?_ mediaNotice_calm)
  split_ifs
  · exact endRequester_calm.trans (unit_calm ⟨rfl, rfl, rfl, rfl, rfl⟩)
  · exact .refl _

theorem ejectEnd_calm {s : State} {u : UnitId} : Calm s (ejectEnd u s) := by
  unfold ejectEnd
  split_ifs with busy
  · exact .refl s
  · exact detach_calm (by simpa using busy)

theorem ejectQuiet_calm {s : State} {u : UnitId} {why : EjectReason} (h : Bound s u) :
    Calm s (ejectQuiet u why s) := (ejectStart_calm h).trans ejectEnd_calm

/-! ## The boot observation and the moves of RST_OUT and FEED (chapter 1) -/

theorem flushInput_calm {s : State} {i : SlotId} : Calm s (flushInput i s) := by
  unfold flushInput
  split_ifs
  · refine count_calm.trans (slot_calm ⟨⟨?_, id⟩, rfl, rfl⟩)
    exact fun ⟨a, b, c, d, _⟩ => ⟨a, b, c, d, by simp⟩
  · exact .refl s

theorem resetMatcher_calm {s : State} {i : SlotId} : Calm s (resetMatcher i s) := by
  unfold resetMatcher
  split_ifs
  · exact slot_calm .same
  · exact .refl s

theorem restartSilence_calm {s : State} {i : SlotId} : Calm s (restartSilence i s) := slot_calm .same

theorem recordBoot_calm {s : State} {i : SlotId} {before : Power} : Calm s (recordBoot i before s) :=
  (slot_calm .same).trans (post_calm.trans notify_calm)

section

variable {R : State → State → Prop} (m : Moves R)

include m

theorem Moves.bootsLeft {eject : UnitId → EjectReason → State → State}
    (h : ∀ u why s, Bound s u → R s (eject u why s)) {i : SlotId} {s : State} : R s (bootsLeft eject i s) := by
  unfold Machine.bootsLeft
  split
  · exact m.refl s
  · dsimp only
    split_ifs with presents last
    · exact h _ _ _ (by simp [Bound, presents.1])
    · exact m.calm (unit_calm ⟨rfl, rfl, rfl, rfl, rfl⟩)
    · exact m.refl s

theorem Moves.bootWith {eject : UnitId → EjectReason → State → State} {meet : SlotId → State → State}
    (h : ∀ u why s, Bound s u → R s (eject u why s)) (k : ∀ i s, R s (meet i s)) {i : SlotId} {before : Power}
    {s : State} : R s (bootWith eject meet i before s) :=
  m.trans (m.calm (recordBoot_calm.trans (flushInput_calm.trans (resetMatcher_calm.trans restartSilence_calm))))
    (m.trans (m.bootsLeft h) (k _ _))

variable {boot : SlotId → Power → State → State} {left : SlotId → State → State}
  (hb : ∀ i before s, R s (boot i before s)) (hl : ∀ i s, R s (left i s))

include hb

theorem Moves.setClaims {f : Lines → Lines} {i : SlotId} {s : State} : R s (setClaims boot f i s) := by
  have claimed : R s (s.modSlot i fun x => { x with lines := f x.lines }) := m.calm (slot_calm .same)
  unfold Machine.setClaims
  dsimp only
  split_ifs
  · refine m.trans claimed ?_
    unfold rstAssertedNow
    split_ifs
    · exact m.calm (slot_calm .same)
    · exact m.refl _
  · refine m.trans claimed ?_
    unfold rstReleasedNow
    dsimp only
    split_ifs
    · exact m.trans (m.calm (slot_calm .same)) (hb _ _ _)
    · exact m.calm (slot_calm .same)
  · exact claimed

include hl

theorem Moves.deriveObserved {i : SlotId} {s : State} : R s (deriveObserved boot left i s) := by
  unfold Machine.deriveObserved
  dsimp only
  have derived {f : Slot → SlotRecord} : R s (s.modSlot i fun x => { x with record := f x }) :=
    m.calm (slot_calm .same)
  split_ifs
  · exact m.refl s
  · exact m.trans derived (hb _ _ _)
  · exact m.trans derived (hb _ _ _)
  · exact m.trans derived (m.trans (m.calm (notify_calm.trans restartSilence_calm)) (hl _ _))
  · exact m.trans derived (m.calm notify_calm)

theorem Moves.dropFeed {i : SlotId} {s : State} : R s (dropFeed boot left i s) := by
  unfold Machine.dropFeed
  split_ifs
  · exact m.trans (m.calm (slot_calm .same)) (m.deriveObserved hb hl)
  · exact m.refl s

theorem Moves.raiseFeed {i : SlotId} {s : State} : R s (raiseFeed boot left i s) := by
  unfold Machine.raiseFeed
  split_ifs
  · exact m.refl s
  · exact m.trans (m.calm (slot_calm .same)) (m.deriveObserved hb hl)

end

theorem bootInStep_calm (i : SlotId) (before : Power) (s : State) : Calm s (bootInStep i before s) :=
  Moves.ofCalm.bootWith (fun _ _ _ => ejectQuiet_calm) fun _ s => .refl s

/-! ## Console capture (chapters 2 and 4) -/

theorem storeByte_kept {x : Slot} {b : Byte} : SlotKept x { x with hist := storeByte x.hist b } where
  bounded := by
    rintro ⟨retained, markers, -, rest⟩
    refine ⟨?_, (List.length_filter_le _ _).trans markers, fun m hm => (List.mem_filter.mp hm).2, rest⟩
    show (storeByte x.hist b).retained ≤ _
    rw [storeByte_retained retained]
    exact min_le_left _ _
  canonical := fun ⟨ring, holdOffs⟩ => ⟨storeByte_ring ring, holdOffs⟩

theorem historyTakes_calm {s : State} {i : SlotId} {b : Byte} : Calm s (historyTakes i b s) := by
  have stored : Calm s (s.modSlot i fun x => { x with hist := storeByte x.hist b }) :=
    slot_calm ⟨storeByte_kept, rfl, rfl⟩
  unfold historyTakes
  dsimp only
  split_ifs
  · exact stored.trans count_calm
  · exact stored

theorem raiseRecovery_calm {s : State} {i : SlotId} {a : RecoveryAction} {src : RecoverySource} {w : Nat} :
    Calm s (raiseRecovery i a src w s) := by
  unfold raiseRecovery
  split_ifs
  · exact .refl s
  · exact slot_calm .same

theorem setMatchState_calm {s : State} {i : SlotId} {n : Nat} : Calm s (setMatchState i n s) := slot_calm .same

/-- A hold-off is armed or stops running (R65). -/
theorem holdOffs_calm {s : State} {i : SlotId} {w : Nat} {d : Option Time} :
    Calm s (s.modSlot i fun x => { x with matcher := { x.matcher with
      holdOffs := sparseSet none x.matcher.holdOffs w d } }) :=
  slot_calm ⟨⟨id, fun ⟨ring, holdOffs⟩ => ⟨ring, sparseWf_set holdOffs⟩⟩, rfl, rfl⟩

/-- A move that is made only where a condition holds. -/
theorem Calm.when {s t : State} {c : Prop} [Decidable c] (h : Calm s t) : Calm s (if c then t else s) := by
  split_ifs
  · exact h
  · exact .refl s

theorem Calm.unless {s t : State} {c : Prop} [Decidable c] (h : Calm s t) : Calm s (if c then s else t) := by
  split_ifs
  · exact .refl s
  · exact h

theorem fireMatch_calm {s : State} {i : SlotId} {w : Nat} : Calm s (fireMatch i w s) := by
  unfold fireMatch
  dsimp only
  exact post_calm.when.trans (notify_calm.when.trans (raiseRecovery_calm.when.trans
    (holdOffs_calm.unless.trans (setMatchState_calm.trans count_calm))))

theorem walk_calm {s : State} {i : SlotId} {b : Byte} : Calm s (walk i b s) := by
  unfold walk
  dsimp only
  split_ifs
  · exact setMatchState_calm
  · exact setMatchState_calm.trans (setMatchState_calm.trans count_calm)
  · exact setMatchState_calm.trans fireMatch_calm
  · exact .refl s

theorem handOn_calm {s : State} {i : SlotId} {b : Byte} : Calm s (handOn i b s) :=
  historyTakes_calm.trans (walk_calm.trans (restartSilence_calm.trans count_calm))

theorem setRx_calm {s : State} {i : SlotId} {r : Receiver} : Calm s (setRx i r s) := slot_calm .same

theorem takeCharacter_calm {s : State} {i : SlotId} {c : ConsoleSetup} {b : Byte} {parity stop : Bool} :
    Calm s (takeCharacter i c b parity stop s) := count_calm.trans (handOn_calm.trans setRx_calm)

theorem takeBreakIn_calm {s : State} {i : SlotId} : Calm s (takeBreakIn i s) :=
  post_calm.trans (count_calm.trans setRx_calm)

theorem silenceEnds_calm {s : State} {i : SlotId} : Calm s (silenceEnds i s) := by
  unfold silenceEnds
  dsimp only
  refine Calm.trans (slot_calm ?_)
    (post_calm.trans (notify_calm.when.trans (raiseRecovery_calm.when.trans count_calm)))
  exact .same

/-! ## Console input (chapter 3) -/

/-- The Input Queue changes within its size. -/
theorem input_calm {s : State} {i : SlotId} {f : InputQueue → InputQueue}
    (h : (s.slot i).input.items.length ≤ 256 → (f (s.slot i).input).items.length ≤ 256) :
    Calm s (modInput i f s) :=
  slot_calm ⟨⟨fun ⟨a, b, c, d, e⟩ => ⟨a, b, c, d, h e⟩, id⟩, rfl, rfl⟩

theorem takeHead_calm {s : State} {i : SlotId} : Calm s (takeHead i s) := by
  unfold takeHead
  split
  · exact input_calm id
  next x xs e => exact input_calm fun w => by rw [e] at w; exact (Nat.le_succ _).trans w

/-- Items that find room join the queue. -/
theorem appendItems_calm {s : State} {i : SlotId} {xs : List InputItem} (h : xs.length ≤ freeSpace (s.slot i).input) :
    Calm s (appendItems i xs s) := by
  have joined : Calm s (modInput i (fun q => { q with items := q.items ++ xs }) s) :=
    input_calm fun w => by simp only [List.length_append]; unfold freeSpace at h; omega
  unfold appendItems
  dsimp only
  split_ifs
  · exact joined.trans takeHead_calm
  · exact joined

theorem renew_calm {s : State} {i : SlotId} : Calm s (renew i s) := input_calm id

theorem reportHolder_calm {s : State} {i : SlotId} {before : Option StationId} {why : HolderReason} :
    Calm s (reportHolder i before why s) := post_calm.trans notify_calm

theorem grant_calm {s : State} {i : SlotId} {e : StationId} {why : HolderReason} : Calm s (grant i e why s) :=
  (input_calm id).trans reportHolder_calm

theorem endHold_calm {s : State} {i : SlotId} {why : HolderReason} : Calm s (endHold i why s) :=
  (input_calm id).trans reportHolder_calm

theorem takeWrite_calm {s : State} {i : SlotId} {bytes : List Byte} : Calm s (takeWrite bytes i s).2 := by
  refine Calm.trans (input_calm ?_) (appendItems_calm ?_)
  · exact id
  · simp [modInput, freeSpace]

theorem takeBreak_calm {s : State} {i : SlotId} {d : BitVec 16} : Calm s (takeBreak d i s).2 := by
  unfold takeBreak
  dsimp only
  split_ifs with full
  · exact .refl s
  · exact appendItems_calm (Nat.one_le_iff_ne_zero.mpr full)

/-! ## Front-panel lines (chapter 5) -/

theorem captureEdge_length {line : LogLine} {assert : Bool} {now : Time} {l : LineLog}
    (h : l.entries.length ≤ 16) : (captureEdge line assert now l).entries.length ≤ 16 := by
  have kept : (captureEdge line assert now l).entries.length =
      (if 16 ≤ l.entries.length then l.entries.drop 1 else l.entries).length + 1 := by
    cases assert <;> cases line <;> simp [captureEdge, setLastAssert]
  rw [kept]
  split_ifs <;> simp <;> omega

theorem logEdge_calm {s : State} {i : SlotId} {line : LogLine} {assert : Bool} : Calm s (logEdge i line assert s) :=
  slot_calm ⟨⟨fun ⟨a, b, c, d, e⟩ => ⟨a, b, c, captureEdge_length d, e⟩, id⟩, rfl, rfl⟩

theorem modPg_calm {s : State} {i : SlotId} {f : PowerGood → PowerGood} : Calm s (modPg i f s) := slot_calm .same

theorem restartFilter_calm {s : State} {i : SlotId} : Calm s (restartFilter i s) := by
  unfold restartFilter
  exact modPg_calm

theorem modBtn_calm {s : State} {i : SlotId} {b : Button} {f : Classifier → Classifier} : Calm s (modBtn i b f s) := by
  cases b <;> exact slot_calm .same

theorem setClass_calm {s : State} {i : SlotId} {b : Button} {st : ClassState} : Calm s (setClass i b st s) :=
  modBtn_calm

theorem countBtn_calm {s : State} {i : SlotId} {b : Button} {f : ButtonCounters → ButtonCounters} :
    Calm s (countBtn i b f s) := count_calm

theorem pressNotice_calm {s : State} {i : SlotId} {b : Button} {ev : PressEvent} {reason : Option BlockReason}
    {width : Option (BitVec 32)} {p : Press} : Calm s (pressNotice i b ev reason width p s) := notify_calm

theorem setPending_calm {s : State} {i : SlotId} {c : PendingCause} : Calm s (setPending i c s) := slot_calm .same

theorem reportStuck_calm {s : State} {i : SlotId} {b : Button} {p : Press} {r : Option BlockReason} :
    Calm s (reportStuck i b p r s) := by
  unfold reportStuck
  exact post_calm.trans (pressNotice_calm.trans countBtn_calm)

/-! ## Storage ports (chapter 8) -/

theorem tell_calm {s : State} {i : SlotId} {o : ServerOut} : Calm s (tell i o s) := slot_calm .same

theorem deliver_calm {i : SlotId} {u : UnitId} : ∀ {xs : List Source} {lba : Nat} {s : State},
    Calm s (deliver i u lba xs s).2
  | [], _, s => .refl s
  | x :: xs, lba, s => by
    unfold deliver
    split
    · exact .refl s
    · exact Calm.trans (tell_calm.trans countUnit_calm) deliver_calm

end Sys2Proof.Machine
end

section
/-! PROOFS. The moves of the bridge with those of its sequencers: a sequence record exactly while a sequencer is
busy, and a place in the Inrush Queue exactly while it is in WAIT_BUDGET (R99, R109, R127). -/

namespace Sys2Proof.Machine

open Sys2Proof

/-! ## Moves with those of the sequencers -/

/-- A sequencer that has a record exactly while it is busy goes on so, and enters or leaves no WAIT_BUDGET. -/
structure SeqMove (q r : Sequencer) : Prop where
  sound : seqBusy q.state = q.record.isSome → seqBusy r.state = r.record.isSome
  budget : r.state = .waitBudget ↔ q.state = .waitBudget

/-- What a restart or a power-up leaves of the units, the fetch path and the sequencers (R100, R137, R199). -/
structure Fresh (s t : State) : Prop where
  kept : Kept s t
  seq : ∀ i, (t.slot i).seq.record = none ∧ seqBusy (t.slot i).seq.state = false
  inFlight : ∀ i, (t.slot i).port.inFlight = none
  queue : t.inrush.queue = []
  units : ∀ u, t.unit u = {}
  cache : t.cache = []
  records : t.fetch.records = []
  issue : t.fetch.issue = []
  pool : t.poolFree = 4096

/-- What a command of the bridge does, as a chain of moves. The premises on a sequencer are those of a state in
which each sequencer has a record while it is busy, and its place in the Inrush Queue while it waits there. -/
inductive Path : State → State → Prop where
  | trans {s t u : State} : Path s t → Path t u → Path s u
  | calm {s t : State} : Calm s t → Path s t
  | seq {s : State} {i : SlotId} {f : Sequencer → Sequencer} :
      (SequencersSound s → SeqMove (s.slot i).seq (f (s.slot i).seq)) → Path s (modSeq i f s)
  | join {s : State} {w : Waiting} : (s.slot w.slot).seq.state = .stepping →
      Path s (joinQueue w (setSeqState w.slot .waitBudget s))
  | start {s : State} {w : Waiting} {rest : List Waiting} {f : Inrush → Inrush} :
      s.inrush.queue = w :: rest → (f s.inrush).queue = rest →
      Path s (setSeqState w.slot .stepping (s.modInrush f))
  | halt {s t : State} {i : SlotId} {why : HaltReason} {f : SeqRecord → SeqRecord} :
      Calm (withdraw i (modRecordOf i f s)) t →
      Path s (modSeq i (fun _ => { state := .halted why, record := none }) t)
  | fresh {s t : State} : Fresh s t → Path s t

theorem Moves.ofPath : Moves Path := ⟨.calm, .trans⟩

theorem Path.refl (s : State) : Path s s := .calm (.refl s)

theorem modSeq_apart {s : State} {i : SlotId} {f : Sequencer → Sequencer} : Kept s (modSeq i f s) :=
  .of_tables rfl (modSlot_each .refl ⟨id, id⟩) (ports_of_eq rfl rfl) rfl rfl rfl

theorem modInrush_kept {s : State} {f : Inrush → Inrush} : Kept s (s.modInrush f) :=
  .of_tables rfl (fun _ => .refl _) (ports_of_eq rfl rfl) rfl rfl rfl

theorem withdraw_kept {s : State} {i : SlotId} : Kept s (withdraw i s) := by
  unfold withdraw
  split_ifs
  · exact modInrush_kept
  · exact .refl s

theorem Path.kept {s t : State} (h : Path s t) : Kept s t := by
  induction h with
  | trans _ _ h k => exact h.trans k
  | calm c => exact c.kept
  | seq _ => exact modSeq_apart
  | join _ => exact modSeq_apart.trans modInrush_kept
  | start _ _ => exact modInrush_kept.trans modSeq_apart
  | halt c => exact modSeq_apart.trans (withdraw_kept.trans (c.kept.trans modSeq_apart))
  | fresh f => exact f.kept

/-! ## Bindings and the pool -/

/-- The units, the fetch path, the pool, the requests in flight and the setup stand as they did. -/
structure Still (s t : State) : Prop where
  units : t.units = s.units
  cache : t.cache = s.cache
  fetch : t.fetch = s.fetch
  pool : t.poolFree = s.poolFree
  tables : t.tables = s.tables
  inFlight : ∀ i, (t.slot i).port.inFlight = (s.slot i).port.inFlight

section

variable {s t : State}

theorem Still.trans {u : State} (h : Still s t) (k : Still t u) : Still s u :=
  ⟨k.units.trans h.units, k.cache.trans h.cache, k.fetch.trans h.fetch, k.pool.trans h.pool,
    k.tables.trans h.tables, fun i => (k.inFlight i).trans (h.inFlight i)⟩

theorem Still.unit (h : Still s t) (u : UnitId) : t.unit u = s.unit u := by rw [State.unit, State.unit, h.units]

theorem Still.bindings (h : Still s t) (b : BindingsSound s) : BindingsSound t :=
  b.of_units (fun u => by rw [h.unit]; exact (UnitKept.refl _).alike) (fun i w => .inl (by rwa [← h.inFlight]))
    h.cache h.fetch

theorem Still.poolSound (h : Still s t) (p : PoolSound s) : PoolSound t :=
  p.of_alike (h.bindings p.1) (fun u => .of_kept (by rw [h.unit]; exact .refl _) h.inFlight)
    (fun u _ => by rw [State.unitSetup, State.unitSetup, h.tables]) h.pool

theorem modSeq_still {i : SlotId} {f : Sequencer → Sequencer} : Still s (modSeq i f s) :=
  ⟨rfl, rfl, rfl, rfl, rfl, modSlot_each (P := fun x y => y.port.inFlight = x.port.inFlight) (fun _ => rfl) rfl⟩

theorem modInrush_still {f : Inrush → Inrush} : Still s (s.modInrush f) :=
  ⟨rfl, rfl, rfl, rfl, rfl, fun _ => rfl⟩

theorem withdraw_still {i : SlotId} : Still s (withdraw i s) := by
  unfold withdraw
  split_ifs
  · exact modInrush_still
  · exact ⟨rfl, rfl, rfl, rfl, rfl, fun _ => rfl⟩

theorem Fresh.bindings (h : Fresh s t) : BindingsSound t := by
  refine ⟨fun u => ?_, fun u v i => ?_, fun i w => absurd (h.inFlight i) w, ?_, ?_, ?_, ?_, fun u => ?_⟩ <;>
    simp [h.units, h.records, h.issue, h.cache, UnitSound, recordsOf]

theorem Fresh.poolSound (h : Fresh s t) : PoolSound t := by
  refine ⟨h.bindings, fun u => ⟨?_, ?_⟩, fun u => ?_, ?_⟩
  · simp [h.units, indexRises]
  · simp [reservationSound_iff, h.units]
  · simp [h.units, heldCount]
  · simp [h.units, heldCount, h.pool]

theorem Path.bindings (h : Path s t) : BindingsSound s → BindingsSound t := by
  induction h with
  | trans _ _ h k => exact k ∘ h
  | calm c => exact c.bindings
  | seq _ => exact modSeq_still.bindings
  | join _ => exact (modSeq_still.trans modInrush_still).bindings
  | start _ _ => exact (modInrush_still.trans modSeq_still).bindings
  | halt c => exact modSeq_still.bindings ∘ c.bindings ∘ (modSeq_still.trans withdraw_still).bindings
  | fresh f => exact fun _ => f.bindings

theorem Path.pool (h : Path s t) : PoolSound s → PoolSound t := by
  induction h with
  | trans _ _ h k => exact k ∘ h
  | calm c => exact c.pool
  | seq _ => exact modSeq_still.poolSound
  | join _ => exact (modSeq_still.trans modInrush_still).poolSound
  | start _ _ => exact (modInrush_still.trans modSeq_still).poolSound
  | halt c => exact modSeq_still.poolSound ∘ c.pool ∘ (modSeq_still.trans withdraw_still).poolSound
  | fresh f => exact fun _ => f.poolSound

/-! ## The sequencers -/

theorem modSeq_seq_same {i : SlotId} {f : Sequencer → Sequencer} :
    ((modSeq i f s).slot i).seq = f (s.slot i).seq := by rw [modSeq, modSlot_slot_same]

theorem modSeq_seq_ne {i j : SlotId} {f : Sequencer → Sequencer} (h : j ≠ i) :
    ((modSeq i f s).slot j).seq = (s.slot j).seq := by rw [modSeq, modSlot_slot_ne h]

theorem sequencersSound_iff : SequencersSound s ↔
    (waitingSlots s).Nodup ∧ ∀ i, seqBusy (s.slot i).seq.state = (s.slot i).seq.record.isSome ∧
      (i ∈ waitingSlots s ↔ (s.slot i).seq.state = .waitBudget) :=
  ⟨fun ⟨a, b, c⟩ => ⟨b, fun i => ⟨a i, c i⟩⟩, fun ⟨b, h⟩ => ⟨fun i => (h i).1, b, fun i => (h i).2⟩⟩

/-- One sequencer changes, with the places in the queue; the places of the other slots stay. -/
theorem SequencersSound.of_slot (h : SequencersSound s) (i : SlotId) (nodup : (waitingSlots t).Nodup)
    (other : ∀ j, j ≠ i → (t.slot j).seq = (s.slot j).seq ∧ (j ∈ waitingSlots t ↔ j ∈ waitingSlots s))
    (self : seqBusy (t.slot i).seq.state = (t.slot i).seq.record.isSome ∧
      (i ∈ waitingSlots t ↔ (t.slot i).seq.state = .waitBudget)) : SequencersSound t := by
  refine sequencersSound_iff.mpr ⟨nodup, fun j => ?_⟩
  by_cases e : j = i
  · subst e; exact self
  · rw [(other j e).1, (other j e).2]
    exact (sequencersSound_iff.mp h).2 j

theorem sequencersSound_of_eq (seq : ∀ i, (t.slot i).seq = (s.slot i).seq) (queue : t.inrush.queue = s.inrush.queue)
    (h : SequencersSound s) : SequencersSound t := by
  unfold SequencersSound waitingSlots at h ⊢
  simpa only [seq, queue] using h

theorem Calm.sequencers (c : Calm s t) : SequencersSound s → SequencersSound t :=
  sequencersSound_of_eq c.seq c.seqs.2

theorem sound_join {w : Waiting} (h : SequencersSound s) (stepping : (s.slot w.slot).seq.state = .stepping) :
    SequencersSound (joinQueue w (setSeqState w.slot .waitBudget s)) := by
  obtain ⟨records, nodup, places⟩ := h
  have queue : waitingSlots (joinQueue w (setSeqState w.slot .waitBudget s)) = waitingSlots s ++ [w.slot] := by
    simp [waitingSlots, joinQueue, State.modInrush, setSeqState, modSeq, State.modSlot]
  have away : w.slot ∉ waitingSlots s := fun m => by simp [(places _).mp m] at stepping
  have self : ((joinQueue w (setSeqState w.slot .waitBudget s)).slot w.slot).seq =
      { (s.slot w.slot).seq with state := .waitBudget } :=
    modSeq_seq_same (s := s) (f := fun q => { q with state := .waitBudget })
  refine SequencersSound.of_slot ⟨records, nodup, places⟩ w.slot ?_ (fun j n => ⟨?_, ?_⟩) ⟨?_, ?_⟩
  · rw [queue]
    refine List.nodup_append.mpr ⟨nodup, by simp, fun a m b n e => ?_⟩
    exact away (List.mem_singleton.mp n ▸ e ▸ m)
  · exact modSeq_seq_ne (s := s) (f := fun q => { q with state := .waitBudget }) n
  · simp [queue, n]
  · rw [self]
    exact (congrArg seqBusy stepping).symm.trans (records _)
  · rw [self]
    exact iff_of_true (by simp [queue]) rfl

theorem sound_start {w : Waiting} {rest : List Waiting} {f : Inrush → Inrush} (h : SequencersSound s)
    (old : s.inrush.queue = w :: rest) (new : (f s.inrush).queue = rest) :
    SequencersSound (setSeqState w.slot .stepping (s.modInrush f)) := by
  have was : waitingSlots s = w.slot :: rest.map (·.slot) := by simp [waitingSlots, old]
  have now : waitingSlots (setSeqState w.slot .stepping (s.modInrush f)) = rest.map (·.slot) := by
    rw [← new]; rfl
  obtain ⟨records, nodup, places⟩ := h
  rw [was, List.nodup_cons] at nodup
  have waited : (s.slot w.slot).seq.state = .waitBudget := (places _).mp (by simp [was])
  refine SequencersSound.of_slot ⟨records, by rw [was]; exact List.nodup_cons.mpr nodup, places⟩ w.slot
    (now ▸ nodup.2) (fun j n => ⟨modSeq_seq_ne n, ?_⟩) ⟨?_, ?_⟩
  · rw [now, was]; simp [n]
  · rw [setSeqState, modSeq_seq_same]
    exact (congrArg seqBusy waited).symm.trans (records _)
  · rw [now, setSeqState, modSeq_seq_same]
    exact iff_of_false nodup.1 (by simp)

theorem withdraw_waiting_slots {i : SlotId} : waitingSlots (withdraw i s) = (waitingSlots s).filter (· ≠ i) := by
  have kept : (s.inrush.queue.filter fun w => decide (w.slot ≠ i)).map (·.slot) = (waitingSlots s).filter (· ≠ i) := by
    rw [waitingSlots, List.filter_map]; rfl
  unfold withdraw
  split_ifs with h
  · exact kept
  · rw [← kept, List.filter_eq_self.mpr]
    · rfl
    · intro w m
      simp only [Bool.not_eq_true, List.any_eq_false] at h
      simpa using h w m

theorem withdraw_slot {i j : SlotId} : (withdraw i s).slot j = s.slot j := by
  unfold withdraw
  split_ifs <;> rfl

theorem sound_halt {i : SlotId} {why : HaltReason} {f : SeqRecord → SeqRecord} (h : SequencersSound s)
    (c : Calm (withdraw i (modRecordOf i f s)) t) :
    SequencersSound (modSeq i (fun _ => { state := .halted why, record := none }) t) := by
  have nodup : (waitingSlots s).Nodup := h.2.1
  have now : waitingSlots (modSeq i (fun _ => { state := .halted why, record := none }) t) =
      (waitingSlots s).filter (· ≠ i) := by
    have queue : waitingSlots t = waitingSlots (withdraw i (modRecordOf i f s)) := by
      rw [waitingSlots, c.seqs.2]; rfl
    exact queue.trans withdraw_waiting_slots
  refine h.of_slot i (now ▸ nodup.filter _) (fun j n => ⟨?_, ?_⟩) ⟨?_, ?_⟩
  · rw [modSeq_seq_ne n, c.seq, withdraw_slot, modRecordOf, modSeq_seq_ne n]
  · simp [now, n]
  · rw [modSeq_seq_same]; rfl
  · rw [modSeq_seq_same]
    exact iff_of_false (by simp [now]) (by simp)

theorem Fresh.sequencers (f : Fresh s t) : SequencersSound t := by
  refine sequencersSound_iff.mpr ⟨by simp [waitingSlots, f.queue], fun i => ⟨?_, ?_⟩⟩
  · rw [(f.seq i).1, (f.seq i).2]; rfl
  · refine iff_of_false (by simp [waitingSlots, f.queue]) fun e => ?_
    simpa [e, seqBusy] using (f.seq i).2

theorem Path.sequencers (h : Path s t) : SequencersSound s → SequencersSound t := by
  induction h with
  | trans _ _ h k => exact k ∘ h
  | calm c => exact c.sequencers
  | @seq s i f m =>
    intro h
    obtain ⟨sound, budget⟩ := m h
    refine h.of_slot i h.2.1 (fun j n => ⟨modSeq_seq_ne n, Iff.rfl⟩) ?_
    rw [modSeq_seq_same]
    exact ⟨sound (h.1 i), (h.2.2 i).trans budget.symm⟩
  | join stepping => exact fun h => sound_join h stepping
  | start old new => exact fun h => sound_start h old new
  | halt c => exact fun h => sound_halt h c
  | fresh f => exact fun _ => f.sequencers

end

end Sys2Proof.Machine
end

section
/-! PROOFS. The Power Sequencer's operations as chains of moves (chapter 6): the entry of a step, the run of the
steps, the halt and the finish, and what a GATE and an EXPECT step hear. -/

namespace Sys2Proof.Machine

open Sys2Proof

/-! ## A sequence in STEPPING -/

/-- The slot's sequencer is in STEPPING. -/
def Stepping (i : SlotId) (s : State) : Prop := (s.slot i).seq.state = .stepping

section

variable {s t : State} {i : SlotId}

theorem Stepping.calm (h : Stepping i s) (c : Calm s t) : Stepping i t := by rwa [Stepping, c.seq]

theorem modSeq_stepping {f : Sequencer → Sequencer} (h : (f (s.slot i).seq).state = .stepping) :
    Stepping i (modSeq i f s) := by rwa [Stepping, modSeq_seq_same]

theorem setSeqState_stepping : Stepping i (setSeqState i .stepping s) := modSeq_stepping rfl

theorem modRecordOf_path {f : SeqRecord → SeqRecord} : Path s (modRecordOf i f s) :=
  .seq fun _ => ⟨fun h => h.trans (by simp), Iff.rfl⟩

theorem Stepping.modRecordOf (h : Stepping i s) {f : SeqRecord → SeqRecord} : Stepping i (modRecordOf i f s) :=
  modSeq_stepping h

/-- A sequencer in the middle of a step goes to another state in which it is busy and waits in no queue. -/
theorem busy_path {st : SeqState} {f : Sequencer → Sequencer} (h : (s.slot i).seq.state = st)
    (busy : seqBusy st = true) (wait : st ≠ .waitBudget) (state : seqBusy (f (s.slot i).seq).state = true)
    (away : (f (s.slot i).seq).state ≠ .waitBudget)
    (record : (f (s.slot i).seq).record.isSome = (s.slot i).seq.record.isSome) : Path s (modSeq i f s) :=
  .seq fun _ => ⟨fun e => by rw [h, busy] at e; rw [state, record, ← e], by rw [h]; exact iff_of_false away wait⟩

theorem beginStep_path {st : Step} {rest : List Step} (h : Stepping i s) : Path s (beginStep i st rest s) :=
  busy_path h rfl (by simp) rfl (by simp) (by simp)

theorem beginStep_stepping {st : Step} {rest : List Step} : Stepping i (beginStep i st rest s) := modSeq_stepping rfl

/-- A sequencer that waits in no queue is left without a sequence. -/
theorem idle_path {st : SeqState} (h : (s.slot i).seq.state ≠ .waitBudget) (idle : seqBusy st = false) :
    Path s (modSeq i (fun _ => { state := st, record := none }) s) :=
  .seq fun _ => ⟨fun _ => idle, iff_of_false (by rintro rfl; simp [seqBusy] at idle) h⟩

/-! ## The end of a sequence -/

theorem finish_path (h : Stepping i s) : Path s (finish i s) := by
  unfold finish
  split
  · exact .refl s
  · exact (idle_path (by simp [show _ = _ from h]) rfl).trans
      (.calm (post_calm.trans (notify_calm.trans count_calm)))

theorem setClaims_calm {f : Lines → Lines} : Calm s (setClaims bootInStep f i s) :=
  Moves.ofCalm.setClaims bootInStep_calm

theorem halt_path {why : HaltReason} : Path s (halt i why s) := by
  unfold halt
  split
  · exact .refl s
  · exact (Path.halt setClaims_calm).trans (.calm (post_calm.trans (notify_calm.trans count_calm)))

/-! ## The entry of a step -/

/-- What the entry of a step comes to is reached by moves, and a step that ends or is skipped leaves the sequencer
in STEPPING. -/
def Enters (i : SlotId) (s : State) : Entered → Prop
  | .stop t => Path s t
  | .ends t => Path s t ∧ Stepping i t
  | .skips t => Path s t ∧ Stepping i t

theorem Enters.after {u : State} {e : Entered} (p : Path u s) (h : Enters i s e) : Enters i u e := by
  cases e with
  | stop t => exact p.trans h
  | ends t => exact ⟨p.trans h.1, h.2⟩
  | skips t => exact ⟨p.trans h.1, h.2⟩

theorem calm_ends (h : Stepping i s) (c : Calm s t) : Enters i s (.ends t) := ⟨.calm c, h.calm c⟩

theorem ends_enters (h : Stepping i s) : Enters i s (.ends s) := ⟨.refl s, h⟩

theorem armStep_path {ms : Nat} : Path s (armStep i ms s) := modRecordOf_path

theorem setGate_enters {g : GateOutcome} (h : Stepping i s) : Enters i s (.ends (setGate i g s)) :=
  ⟨modRecordOf_path, h.modRecordOf⟩

theorem pressNow_path {width : Nat} : Path s (pressNow i width s) := (Path.calm setClaims_calm).trans armStep_path

theorem skipPress_enters (h : Stepping i s) : Enters i s (skipPress i s) :=
  ⟨.calm count_calm, h.calm count_calm⟩

/-- A charged step executes once its sequencer is in STEPPING. -/
theorem executeCharged_enters {kind : ChargeKind} {u : State} (p : Path u (setSeqState i .stepping s)) :
    Enters i u (executeCharged i kind s) := by
  refine Enters.after p ?_
  cases kind with
  | feedRestore =>
    exact calm_ends setSeqState_stepping (Moves.ofCalm.raiseFeed bootInStep_calm fun _ s => .refl s)
  | startPress => exact pressNow_path

theorem giveStart_enters {w : Waiting} {rest : List Waiting} (h : s.inrush.queue = w :: rest) :
    Enters w.slot s (giveStart w s) := by
  unfold giveStart
  split_ifs
  · exact (skipPress_enters setSeqState_stepping).after (.start h (by simp [h]))
  · exact executeCharged_enters (.start h (by simp [h]))

theorem expireCharges_calm : Calm s (expireCharges s) := .apart (apart_inrush rfl)

theorem handToScheduler_enters {kind : ChargeKind} (h : Stepping i s) : Enters i s (handToScheduler i kind s) := by
  unfold handToScheduler
  dsimp only
  split_ifs with free empty passes
  · exact executeCharged_enters (busy_path h rfl (by simp) rfl (by simp) rfl)
  · refine (giveStart_enters (w := ⟨i, kind, _, _⟩) (rest := []) ?_).after
      ((Path.join (w := ⟨i, kind, _, _⟩) h).trans (.calm expireCharges_calm))
    simpa [expireCharges, joinQueue, State.modInrush, setSeqState, modSeq, State.modSlot] using empty
  · exact (Path.join (w := ⟨i, kind, _, _⟩) h).trans (.calm expireCharges_calm)
  · exact Path.join (w := ⟨i, kind, _, _⟩) h

theorem gateFails_enters (h : Stepping i s) : Enters i s (gateFails i s) := by
  unfold gateFails
  split_ifs
  · exact halt_path
  · exact setGate_enters h

theorem enterGate_enters (h : Stepping i s) : Enters i s (enterGate i s) := by
  unfold enterGate
  split_ifs
  · exact setGate_enters h
  · split
    · exact setGate_enters h
    · split_ifs
      · split
        · exact setGate_enters h
        · exact (busy_path h rfl (by simp) rfl (by simp) rfl).trans armStep_path
        · exact gateFails_enters h
        · exact gateFails_enters h
      · exact gateFails_enters h

theorem enterStep_enters {st : Step} (h : Stepping i s) : Enters i s (enterStep i st s) := by
  cases st with
  | press role =>
    simp only [enterStep]
    split_ifs
    · exact skipPress_enters h
    · cases role with
      | start => exact handToScheduler_enters h
      | stop => exact pressNow_path
  | hold =>
    simp only [enterStep]
    split_ifs
    · exact skipPress_enters h
    · exact pressNow_path
  | expectHigh =>
    simp only [enterStep]
    split_ifs
    · exact ends_enters h
    · exact armStep_path
  | expectLow soft =>
    simp only [enterStep]
    split_ifs
    · exact armStep_path
    · exact armStep_path
    · exact ends_enters h
  | dwell d => exact armStep_path
  | gate => exact enterGate_enters h
  | assertRst => exact calm_ends h setClaims_calm
  | releaseRst => exact calm_ends h setClaims_calm
  | feedDrop => exact calm_ends h (Moves.ofCalm.dropFeed bootInStep_calm fun _ s => .refl s)
  | feedRestore =>
    simp only [enterStep]
    split_ifs
    · exact ends_enters h
    · exact handToScheduler_enters h
  | powerOnTail => exact ends_enters h

/-! ## The run of the steps -/

/-- A run goes step by step; a step that is skipped takes the next one with it. -/
theorem runWith_path {tail : SlotId → State → State} (ht : ∀ s, Stepping i s → Path s (tail i s)) :
    ∀ (steps : List Step) (s : State), Stepping i s → Path s (runWith tail i steps s)
  | [], s, h => by
    rw [runWith]
    exact finish_path h
  | st :: rest, s, h => by
    by_cases last : st = .powerOnTail
    · subst last
      rw [runWith]
      exact ht s h
    · rw [runWith]
      · have entered := (enterStep_enters (st := st) (beginStep_stepping (st := st) (rest := rest) (s := s)
          (i := i))).after (beginStep_path h)
        generalize enterStep i st (beginStep i st rest s) = e at entered
        cases e with
        | stop t => exact entered
        | ends t => exact entered.1.trans (runWith_path ht rest t entered.2)
        | skips t =>
          cases rest with
          | nil => exact entered.1.trans (finish_path entered.2)
          | cons _ more => exact entered.1.trans (runWith_path ht more t entered.2)
      · exact last
termination_by steps => steps.length

theorem runTail_path (h : Stepping i s) : Path s (runTail i s) :=
  runWith_path (fun _ => finish_path) _ s h

theorem runSteps_path {steps : List Step} (h : Stepping i s) : Path s (runSteps i steps s) :=
  runWith_path (fun _ => runTail_path) steps s h

theorem stepEnds_path (h : Stepping i s) : Path s (stepEnds i s) := runSteps_path h

theorem goOn_path {u : State} {e : Entered} (h : Enters i u e) : Path u (goOn i e) := by
  cases e with
  | stop t => exact h
  | ends t => exact h.1.trans (stepEnds_path h.2)
  | skips t => exact h.1.trans (runSteps_path h.2)

/-- A sequencer that is not busy is given a record. -/
theorem record_path {r : SeqRecord} (h : seqBusy (s.slot i).seq.state = false) :
    Path s (modSeq i (fun _ => { state := .stepping, record := some r }) s) :=
  .seq fun _ => ⟨fun _ => rfl, iff_of_false (by simp) fun e => by simp [e, seqBusy] at h⟩

/-- An accepted action of a sequencer that is not busy. -/
theorem accept_path {a : Action} {o : Origin} {profile : Nat} (h : seqBusy (s.slot i).seq.state = false) :
    Path s (accept i a o profile s) := by
  unfold accept
  dsimp only
  refine (record_path h).trans (Path.trans (.calm (post_calm.trans count_calm)) (runSteps_path ?_))
  exact Stepping.calm (modSeq_stepping rfl) (post_calm.trans count_calm)

theorem abort_path : Path s (abort i s) := by
  unfold abort
  split_ifs with busy
  · exact halt_path
  · have idle : seqBusy (s.slot i).seq.state = false := by simpa using busy
    exact .seq fun _ => ⟨fun e => idle.symm.trans e, iff_of_false (by simp) fun e => by simp [e, seqBusy] at idle⟩

/-! ## What the sequencer hears -/

theorem currentIs_stepping {st : Step} (h : s.currentIs i st = true) : Stepping i s := by
  unfold State.currentIs at h
  split at h
  · simp only [Bool.and_eq_true, decide_eq_true_eq] at h
    exact h.1
  · cases h

theorem meetHigh_path : Path s (meetHigh i s) := by
  unfold meetHigh
  split_ifs with now
  · exact stepEnds_path (currentIs_stepping now)
  · exact .refl s

theorem meetLow_path : Path s (meetLow i s) := by
  unfold meetLow
  split_ifs with now
  · exact stepEnds_path ((Bool.or_eq_true _ _ ▸ now).elim currentIs_stepping currentIs_stepping)
  · exact .refl s

/-- A GATE that waited goes on. -/
theorem woken_path {f : SeqRecord → SeqRecord} (h : (s.slot i).seq.state = .waitGate) :
    Path s (setSeqState i .stepping (modRecordOf i f s)) := by
  have waits : ((modRecordOf i f s).slot i).seq.state = .waitGate := by rwa [modRecordOf, modSeq_seq_same]
  exact modRecordOf_path.trans (busy_path waits rfl (by simp) rfl (by simp) rfl)

theorem gateReport_path {primed : Bool} : Path s (gateReport i primed s) := by
  unfold gateReport
  dsimp only
  split_ifs with waits
  · exact (woken_path waits).trans (modRecordOf_path.trans (stepEnds_path setSeqState_stepping.modRecordOf))
  · exact (woken_path waits).trans (goOn_path (gateFails_enters setSeqState_stepping))
  · exact .refl s

theorem eject_path {u : UnitId} {why : EjectReason} (h : Bound s u) : Path s (eject u why s) := by
  have told : Path (ejectStart u why s) (match ((ejectStart u why s).unit u).slot with
      | some i => gateReport i false (ejectStart u why s)
      | none => ejectStart u why s) := by
    split
    · exact gateReport_path
    · exact .refl _
  exact (Path.calm (ejectStart_calm h)).trans (told.trans (.calm ejectEnd_calm))

theorem observeBoot_path (i : SlotId) (before : Power) (s : State) : Path s (observeBoot i before s) :=
  Moves.ofPath.bootWith (fun _ _ _ => eject_path) fun _ _ => meetHigh_path

end

end Sys2Proof.Machine
end

section
/-! PROOFS. The storage ports, the answers of media stations and the handling of requests as chains of moves
(chapters 8, 9 and 11). -/

namespace Sys2Proof.Machine

open Sys2Proof

section

variable {s t : State} {i : SlotId} {u : UnitId}

/-! ## The end of a request at a storage port -/

theorem FetchMove.portBusy {A : UnitId → Prop} (h : FetchMove A s t) : t.portBusy u = s.portBusy u := by
  unfold State.portBusy
  simp only [(h.units u).slot, h.slot]

theorem portBusy_setInFlight_none (h : (s.unit u).slot = some i) : (setInFlight i none s).portBusy u = false := by
  refine portBusy_eq_false.mpr fun j e => ?_
  obtain rfl : i = j := Option.some.inj (h.symm.trans e)
  rw [slot_setInFlight, if_pos rfl]

theorem afterRequest_calm (h : s.portBusy u = false) : Calm s (afterRequest u s) := by
  unfold afterRequest
  split_ifs
  · exact detach_calm h
  · exact .refl s

theorem tell_inFlight {j : SlotId} {o : ServerOut} :
    ((tell i o s).slot j).port.inFlight = (s.slot j).port.inFlight :=
  modSlot_each (P := fun x y => y.port.inFlight = x.port.inFlight) (fun _ => rfl) rfl j

theorem finishRead_calm {images : List Nat} {o : PortOutcome} (slot : (s.unit u).slot = some i)
    (reads : isWrite (s.slot i).port.inFlight = false) : Calm s (finishRead i u images o s) := by
  unfold finishRead
  dsimp only
  have ended : Calm s (setInFlight i none (tell i (.done .read o) s)) :=
    tell_calm.trans (.read (by rwa [tell_inFlight]) rfl fun h => absurd rfl h)
  have free := portBusy_setInFlight_none (s := tell i (.done .read o) s) slot
  generalize setInFlight i none (tell i (.done .read o) s) = t at ended free
  have released : FetchMove (Live t) t ((endRequester u false images t).countUnit u fun c =>
      if o = .good then { c with readsGood := bump c.readsGood }
      else { c with mediaErrors := bump c.mediaErrors }) := endRequester_move.trans fetchMove_countUnit
  exact (ended.trans (.fetch released)).trans (afterRequest_calm (released.portBusy.trans free))

/-- Units and requests in flight stand as they did. -/
structure Bindings (s t : State) : Prop where
  unit : ∀ u, UnitKept (s.unit u) (t.unit u)
  inFlight : ∀ i, (t.slot i).port.inFlight = (s.slot i).port.inFlight

theorem Bindings.trans {v : State} (h : Bindings s t) (k : Bindings t v) : Bindings s v :=
  ⟨fun u => (h.unit u).trans (k.unit u), fun i => (k.inFlight i).trans (h.inFlight i)⟩

theorem FetchMove.toBindings {A : UnitId → Prop} (h : FetchMove A s t) : Bindings s t :=
  ⟨h.units, fun i => by rw [h.slot]⟩

theorem tell_bindings {o : ServerOut} : Bindings s (tell i o s) := ⟨fun _ => .refl _, fun _ => tell_inFlight⟩

theorem deliver_bindings : ∀ {xs : List Source} {lba : Nat} {s : State}, Bindings s (deliver i u lba xs s).2
  | [], _, _ => ⟨fun _ => .refl _, fun _ => rfl⟩
  | x :: xs, lba, s => by
    unfold deliver
    split
    · exact ⟨fun _ => .refl _, fun _ => rfl⟩
    · exact Bindings.trans
        (tell_bindings.trans (FetchMove.toBindings (A := fun _ => True) fetchMove_countUnit)) deliver_bindings

theorem pumpRead_calm (slot : (s.unit u).slot = some i) : Calm s (pumpRead i u s) := by
  unfold pumpRead
  split
  next lba rest images reads =>
    dsimp only
    generalize imagesIn (rest.take _) = touched
    have delivered : Bindings s (touchLines u touched (deliver i u lba rest s).2) :=
      deliver_bindings.trans (FetchMove.toBindings (A := fun _ => True) touchLines_move)
    have moved : Calm s (touchLines u touched (deliver i u lba rest s).2) :=
      deliver_calm.trans (.fetch touchLines_move)
    generalize touchLines u touched (deliver i u lba rest s).2 = t at delivered moved
    have bound : (t.unit u).slot = some i := (delivered.unit u).slot.trans slot
    have still : isWrite (t.slot i).port.inFlight = false := by rw [delivered.inFlight, reads]; rfl
    split_ifs
    · exact moved.trans (finishRead_calm bound still)
    · exact moved.trans (.read still rfl fun _ => ⟨u, bound⟩)
  · exact .refl s

theorem acceptRead_calm {first : Nat} {xs : List Source} (slot : (s.unit u).slot = some i) (b : Bound s u)
    (free : (s.slot i).port.inFlight = none) : Calm s (acceptRead i u first xs s) := by
  have taken : Calm s (setInFlight i (some (.read first xs (imagesIn xs))) s) :=
    .read (by rw [free]; rfl) rfl fun _ => ⟨u, slot⟩
  have asked : FetchMove (Live (setInFlight i (some (.read first xs (imagesIn xs))) s))
      (setInFlight i (some (.read first xs (imagesIn xs))) s)
      (handOver u false (imagesIn xs) (setInFlight i (some (.read first xs (imagesIn xs))) s)) :=
    handOver_move (.inr (.inr b))
  exact taken.trans (.trans (.fetch asked)
    (.trans (pumpRead_calm ((asked.units u).slot.trans slot)) (.fetch touchLines_move)))

theorem dropRequest_calm {r : PortRequest} (inFlight : (s.slot i).port.inFlight = some r)
    (slot : (s.unit u).slot = some i) : Calm s (dropRequest u r (setInFlight i none s)) := by
  cases r with
  | read lba rest images =>
    exact Calm.trans (.read (by rw [inFlight]; rfl) rfl fun h => absurd rfl h) endRequester_calm
  | write lba left => exact .abort (by rw [inFlight]; rfl) slot

theorem dropRequest_portBusy {r : PortRequest} (slot : (s.unit u).slot = some i) :
    (dropRequest u r (setInFlight i none s)).portBusy u = false := by
  have free := portBusy_setInFlight_none slot
  cases r with
  | read lba rest images =>
    exact (FetchMove.portBusy (A := fun _ => True) endRequester_move).trans free
  | write lba left =>
    rw [portBusy_eq_false] at free ⊢
    exact fun j e => free j ((congrArg MediaUnit.slot modUnit_unit_same).symm.trans e)

/-! ## The prime (R156) -/

theorem prime_calm {p : PrimeState} {images : List Nat} :
    Calm s (s.modUnit u fun m => { m with prime := p, primeImages := images }) :=
  unit_calm ⟨rfl, rfl, rfl, rfl, rfl⟩

theorem reportPrime_path {good : Bool} : Path s (reportPrime u good s) := by
  unfold reportPrime
  dsimp only
  split
  · exact (Path.calm mediaNotice_calm).trans gateReport_path
  · exact .calm mediaNotice_calm

theorem endPrime_path {good : Bool} : Path s (endPrime u good s) :=
  (Path.calm (endRequester_calm.trans prime_calm)).trans reportPrime_path

theorem checkPrime_path : Path s (checkPrime u s) := by
  unfold checkPrime
  split_ifs
  · exact endPrime_path
  · exact .refl s

theorem startPrime_calm (b : Bound s u) : Calm s (startPrime u s) := by
  unfold startPrime
  split
  · exact unit_calm ⟨rfl, rfl, rfl, rfl, rfl⟩
  · split_ifs
    · exact unit_calm ⟨rfl, rfl, rfl, rfl, rfl⟩
    · refine prime_calm.trans (.fetch (handOver_move (.inr (.inr ?_))))
      rwa [Bound, modUnit_unit_same]

theorem reportStart_path : Path s (reportStart u s) := by
  unfold reportStart
  split
  · exact reportPrime_path
  · exact reportPrime_path
  · exact .refl s
  · exact .refl s

theorem takeBind_path {h : Header} {e : StationId} (d : (s.unit u).state = .detached) (free : s.unitOf i = none) :
    Path s (takeBind h u i e s).2 := by
  have bound : Bound (bindUnit u i e h.src s) u := by simp [Bound, bindUnit]
  exact (Path.calm ((Calm.bind d free).trans ((startPrime_calm bound).trans mediaNotice_calm))).trans
    reportStart_path

/-! ## Answers of media stations (R166 to R170) -/

theorem tellReady_path : Path s (tellReady u s) := by
  unfold tellReady
  dsimp only
  split
  next i slot => exact (Path.calm (pumpRead_calm slot)).trans checkPrime_path
  · exact checkPrime_path

theorem takeBlock_path {id : BitVec 16} {b : Nat} {data : Block} : Path s (takeBlock u id b data s) :=
  (Path.calm (.trans (.fetch (setBlock_move.trans (unpend_move.trans fetchMove_countUnit)))
    (.fetch (freeIfEmpty_move entries_live)))).trans tellReady_path

theorem failRead_calm {bs : List Nat} : Calm s (failRead u bs s) := by
  unfold failRead
  split
  · exact .refl s
  next i slot =>
    split
    next reads =>
      split_ifs
      · exact finishRead_calm slot (by rw [reads]; rfl)
      · exact .refl s
    · exact .refl s

theorem failPrime_path {bs : List Nat} : Path s (failPrime u bs s) := by
  unfold failPrime
  split_ifs
  · exact endPrime_path
  · exact .refl s

theorem treatFailed_path {bs : List Nat} : Path s (treatFailed u bs s) :=
  (Path.calm failRead_calm).trans (failPrime_path.trans (.calm (.fetch setBlocks_move)))

theorem fetchNotice_calm {r : FetchRecord} {bs : List Nat} {why : FetchReason} :
    Calm s (fetchNotice u r bs why s) := notify_calm

theorem failRecord_path {r : FetchRecord} : Path s (failRecord r s) :=
  (Path.calm (.trans (.fetch (markFailed_move.trans removeRecord_move)) fetchNotice_calm)).trans
    (treatFailed_path.trans (.calm (.fetch (serveIssue_move entries_live))))

theorem countFetch_calm {f : FetchCounters → FetchCounters} : Calm s (s.countFetch f) := .fetch fetchMove_countFetch

/-! ## Requests (R182, R186, R192) -/

theorem offerHeld_calm {which : State → FetchRecord → Bool} : Calm s (offerHeld which s) := .fetch offerHeld_move

theorem hear_calm {e : StationId} {p : Port} : Calm s (hear e p s) := by
  unfold hear
  dsimp only
  split_ifs
  · exact outer_calm rfl
  · exact (outer_calm rfl).trans offerHeld_calm

theorem unknownStation_calm : Calm s (unknownStation s) := outer_calm rfl

theorem answer_path {h : Header} {id : BitVec 16} {take : UnitId → FetchRecord → State → State}
    (ht : ∀ u r s, Path s (take u r s)) : Path s (answer h id take s) := by
  unfold answer
  split
  · exact .calm unknownStation_calm
  next e _ =>
    dsimp only
    refine (Path.calm (hear_calm (e := e) (p := h.port))).trans ?_
    split
    · exact .calm countFetch_calm
    · split_ifs
      · exact .calm countFetch_calm
      · exact .calm countFetch_calm
      · split
        · exact .calm countFetch_calm
        · exact ht _ _ _

/-- A reply that fills its place leaves the queue as long as it was. -/
theorem fillReply_calm {p : Port} {n : Nat} {k : MsgKind} {a : Answer} : Calm a.2 (fillReply p n k a) := by
  refine .apart (apart_port ?_)
  rintro ⟨own, pass, bytes, share, down⟩
  refine ⟨by simpa using own, pass, bytes, share, fun d => ?_⟩
  obtain ⟨none, rest⟩ := down d
  exact ⟨by simp [none], rest⟩

/-- A request does what its kind's rule does, beside the place of its reply. -/
theorem handle_path {h : Header} {k : MsgKind} {rule : StationId → State → Answer} {e : StationId}
    (hr : ∀ s, Path s (rule e s).2) : Path s (handle h k rule e s) := by
  unfold handle
  dsimp only
  split_ifs with room
  · refine (Path.calm (.fetch (fetchMove_ownAppend (g := s.ownFrame h.src h.target h.tag (.reply k .ok .none))
      room))).trans (Path.trans ?_ (.calm fillReply_calm))
    unfold judge
    split_ifs
    · exact .refl _
    · exact .refl _
    · exact .refl _
    · exact hr _
  · exact .calm countPort_calm

theorem request_path {h : Header} {k : MsgKind} {rule : StationId → State → Answer}
    (hr : ∀ e s, Path s (rule e s).2) : Path s (request h k rule s) := by
  unfold request
  split
  · exact .calm unknownStation_calm
  next e _ => exact (Path.calm (hear_calm (e := e) (p := h.port))).trans (handle_path (hr e))

theorem onSlot_path {h : Header} {rule : SlotId → State → Answer} (hr : ∀ i, Path s (rule i s).2) :
    Path s (onSlot h rule s).2 := by
  unfold onSlot
  split
  · exact .refl s
  · exact hr _

theorem onUnit_path {h : Header} {rule : UnitId → State → Answer} (hr : ∀ u, Path s (rule u s).2) :
    Path s (onUnit h rule s).2 := by
  unfold onUnit
  split
  · exact .refl s
  · exact hr _

theorem eachSlot_path {α : Type} {f : SlotId → State → α × State} (hf : ∀ i s, Path s (f i s).2) :
    ∀ (l : List SlotId) (s : State), Path s (eachSlot f l s).2
  | [], s => .refl s
  | i :: l, s => (hf i s).trans (eachSlot_path hf l _)

/-- An answer that is one of two. -/
theorem answer_ite {c : Prop} [Decidable c] {a b : Answer} (ha : c → Path s a.2) (hb : ¬ c → Path s b.2) :
    Path s (if c then a else b).2 := by
  split_ifs with h
  · exact ha h
  · exact hb h

end

end Sys2Proof.Machine
end

section
/-! PROOFS. Every command of the bridge completes, as a chain of moves. -/

namespace Sys2Proof.Machine

open Sys2Proof

/-- A command answers a next state that a chain of moves reaches. -/
def Does (s : State) (r : Result) : Prop := ∃ t, r = .next t ∧ Path s t

section

variable {s : State}

theorem does_next {t : State} (p : Path s t) : Does s (.next t) := ⟨t, rfl, p⟩

theorem Does.stateOf {r : Result} (d : Does s r) : Path s (stateOf r s) := by
  obtain ⟨t, rfl, p⟩ := d
  exact p

/-- A move that is made only where a condition holds. -/
theorem Path.when {t : State} {c : Prop} [Decidable c] (h : c → Path s t) : Path s (if c then t else s) := by
  split_ifs with e
  · exact h e
  · exact .refl s

/-! ## Console capture and watch times -/

theorem consoleCharacterReceived_does {i : SlotId} {b : Byte} {parity stop : Bool} :
    Does s (execConsoleCharacterReceived i b parity stop s) := by
  refine does_next ?_
  split
  · dsimp only
    split_ifs
    · exact .calm setRx_calm
    · exact .calm takeCharacter_calm
  · exact .refl s

theorem rxReturnToMark_does {i : SlotId} : Does s (execRxReturnToMark i s) := by
  refine does_next ?_
  split
  · exact .calm takeCharacter_calm
  · exact .refl s

theorem breakDetected_does {i : SlotId} : Does s (execBreakDetected i s) := by
  refine does_next ?_
  split
  · exact .calm takeBreakIn_calm
  · exact .calm takeBreakIn_calm
  · exact .refl s
  · exact .refl s

theorem startBitDetected_does {i : SlotId} : Does s (execStartBitDetected i s) := by
  refine does_next ?_
  split
  · exact .calm setRx_calm
  · exact .refl s

theorem rxLineAtMark_does {i : SlotId} : Does s (execRxLineAtMark i s) := by
  refine does_next ?_
  split
  · exact .calm setRx_calm
  · exact .refl s

theorem silenceTick_does {i : SlotId} : Does s (execSilenceTick i s) := by
  refine does_next (.when fun _ => ?_)
  split_ifs
  · exact .calm silenceEnds_calm
  · exact .calm (slot_calm .same)

theorem silenceTerminal_does {i : SlotId} : Does s (execSilenceTerminal i s) :=
  does_next (.when fun _ => .calm silenceEnds_calm)

theorem holdOffExpiry_does {i : SlotId} {w : Nat} : Does s (execHoldOffExpiry i w s) :=
  does_next (.when fun _ => .calm holdOffs_calm)

theorem modRecovery_calm {i : SlotId} {f : Recovery → Recovery} : Calm s (modRecovery i f s) := slot_calm .same

theorem declineReason_none {i : SlotId} {r : RecoveryRequest} (h : declineReason i r s = none) :
    seqBusy (s.slot i).seq.state = false := by
  by_contra busy
  rw [Bool.not_eq_false] at busy
  unfold declineReason at h
  dsimp only at h
  split_ifs at h

theorem startRecovery_path {i : SlotId} {r : RecoveryRequest} (h : seqBusy (s.slot i).seq.state = false) :
    Path s (startRecovery i r s) := by
  have pending : Calm s (setPending i (recoveryCause r.source)
      (modRecovery i (fun x => { x with window := some (countRecovery i s) }) s)) :=
    modRecovery_calm.trans setPending_calm
  unfold startRecovery
  exact (Path.calm pending).trans
    ((accept_path (by rwa [pending.seq])).trans (.calm (notify_calm.trans count_calm)))

theorem recoveryRequestTaken_does {i : SlotId} : Does s (execRecoveryRequestTaken i s) := by
  refine does_next ?_
  split
  · exact .refl s
  next r rest _ =>
    refine (Path.calm (modRecovery_calm (i := i) (f := fun x => { x with waiting := rest }))).trans ?_
    dsimp only
    split
    · exact .calm (notify_calm.trans count_calm)
    next passes => exact startRecovery_path (declineReason_none passes)

theorem recoveryWindowClose_does {i : SlotId} : Does s (execRecoveryWindowClose i s) := by
  refine does_next ?_
  split
  · exact .when fun _ => .calm modRecovery_calm
  · exact .refl s

/-! ## Console input -/

theorem txByteFinished_does {i : SlotId} : Does s (execTxByteFinished i s) := by
  refine does_next ?_
  split
  · exact .calm (count_calm.trans takeHead_calm)
  · exact .refl s

theorem breakItemDeadline_does {i : SlotId} : Does s (execBreakItemDeadline i s) := by
  refine does_next ?_
  split
  · exact .when fun _ => .calm (input_calm id)
  · exact .refl s

theorem breakItemFinished_does {i : SlotId} : Does s (execBreakItemFinished i s) := by
  refine does_next ?_
  split
  · exact .calm (count_calm.trans takeHead_calm)
  · exact .refl s

theorem holderIdleExpiry_does {i : SlotId} : Does s (execHolderIdleExpiry i s) :=
  does_next (.when fun _ => .calm endHold_calm)

theorem holdRule_path {h : Header} {known force : Bool} {e : StationId} {form : SlotId → State → Answer}
    (hf : ∀ i, Path s (form i s).2) : Path s (holdRule h known force e form s).2 :=
  onSlot_path fun i => answer_ite (fun _ => .refl s) fun _ => answer_ite (fun _ => .refl s) fun _ =>
    answer_ite (fun _ => .refl s) fun _ => hf i

theorem takeForm_path {e : StationId} {i : SlotId} : Path s (takeForm e i s).2 := by
  unfold takeForm
  split
  · exact .calm grant_calm
  · exact answer_ite (fun _ => .calm renew_calm) fun _ => .refl s

theorem forceForm_path {e : StationId} {i : SlotId} : Path s (forceForm e i s).2 :=
  answer_ite (fun _ => .calm renew_calm) fun _ => .calm grant_calm

theorem consoleHoldTake_does {h : Header} : Does s (execConsoleHoldTake h s) :=
  does_next (request_path fun _ _ => holdRule_path fun _ => takeForm_path)

theorem consoleHoldForce_does {h : Header} : Does s (execConsoleHoldForce h s) :=
  does_next (request_path fun _ _ => holdRule_path fun _ => forceForm_path)

theorem consoleHoldRelease_does {h : Header} : Does s (execConsoleHoldRelease h s) :=
  does_next (request_path fun _ s => holdRule_path fun _ =>
    answer_ite (fun _ => .calm endHold_calm) fun _ => .refl s)

theorem consoleHoldRenew_does {h : Header} : Does s (execConsoleHoldRenew h s) :=
  does_next (request_path fun _ s => holdRule_path fun _ =>
    answer_ite (fun _ => .calm renew_calm) fun _ => .refl s)

theorem typingRule_path {e : StationId} {quote : BitVec 32} {denied state stale : ReplyData}
    {taken : SlotId → State → Answer} {i : SlotId} (ht : ∀ s, Path s (taken i s).2) :
    Path s (typingRule e quote denied state stale taken i s).2 :=
  answer_ite (fun _ => .refl s) fun _ => answer_ite (fun _ => .refl s) fun _ =>
    (Path.calm renew_calm).trans (answer_ite (fun _ => .refl _) fun _ => ht _)

theorem consoleWrite_does {h : Header} {quote : BitVec 32} {count : BitVec 16} {bytes : List Byte} :
    Does s (execConsoleWrite h quote count bytes s) :=
  does_next (request_path fun _ s => onSlot_path fun _ => answer_ite (fun _ => .refl s) fun _ =>
    typingRule_path fun _ => .calm takeWrite_calm)

theorem consoleBreak_does {h : Header} {quote : BitVec 32} {duration : BitVec 16} :
    Does s (execConsoleBreak h quote duration s) :=
  does_next (request_path fun _ s => onSlot_path fun _ => answer_ite (fun _ => .refl s) fun _ =>
    typingRule_path fun _ => .calm takeBreak_calm)

/-! ## Front-panel lines -/

theorem pgRawChange_does {i : SlotId} {high : Bool} : Does s (execPgRawChange i high s) := by
  refine does_next ?_
  dsimp only
  split_ifs
  · exact .refl s
  · exact .calm (modPg_calm.trans (modPg_calm.trans count_calm))
  · exact .calm modPg_calm
  · exact .calm modPg_calm
  · exact .calm (modPg_calm.trans modPg_calm)

theorem deriveObserved_path {i : SlotId} : Path s (deriveObserved observeBoot meetLow i s) :=
  Moves.ofPath.deriveObserved observeBoot_path fun _ _ => meetLow_path

theorem setLocal_path {i : SlotId} {b : Button} {v : Bool} : Path s (setLocal i b v s) :=
  Moves.ofPath.setClaims observeBoot_path

theorem pgFilterExpiry_does {i : SlotId} : Does s (execPgFilterExpiry i s) :=
  does_next (.when fun _ => (Path.calm modPg_calm).trans (deriveObserved_path.trans (.calm logEdge_calm)))

theorem buttonPressEdge_does {i : SlotId} {b : Button} : Does s (execButtonPressEdge i b s) := by
  refine does_next ?_
  dsimp only
  split_ifs
  · exact .refl s
  · exact .calm (modBtn_calm.trans (logEdge_calm.trans setClass_calm))
  · exact .calm (modBtn_calm.trans logEdge_calm)

theorem endPress_path {i : SlotId} {b : Button} {st : ClassState} : Path s (endPress i b st s) := by
  cases st with
  | released => exact .refl s
  | pending p =>
    rw [endPress]
    exact .calm countBtn_calm
  | passing p => exact setLocal_path.trans (.calm (post_calm.trans pressNotice_calm))
  | blocked p r => exact .calm pressNotice_calm
  | stuck p r => exact .calm pressNotice_calm

theorem buttonReleaseEdge_does {i : SlotId} {b : Button} : Does s (execButtonReleaseEdge i b s) :=
  does_next (.when fun _ =>
    (Path.calm (modBtn_calm.trans logEdge_calm)).trans (endPress_path.trans (.calm setClass_calm)))

theorem decidePress_path {i : SlotId} {b : Button} {p : Press} : Path s (decidePress i b p s) := by
  unfold decidePress
  split
  · exact (Path.calm setClass_calm).trans (setLocal_path.trans (.calm (setPending_calm.trans countBtn_calm)))
  · exact .calm (setClass_calm.trans (pressNotice_calm.trans countBtn_calm))

theorem glitchDeadline_does {i : SlotId} {b : Button} : Does s (execGlitchDeadline i b s) := by
  refine does_next ?_
  split
  · exact .when fun _ => decidePress_path
  · exact .refl s

theorem stuckDeadline_does {i : SlotId} {b : Button} : Does s (execStuckDeadline i b s) := by
  refine does_next ?_
  split
  · exact .when fun _ => (Path.calm setClass_calm).trans (setLocal_path.trans (.calm reportStuck_calm))
  · exact .when fun _ => .calm (setClass_calm.trans reportStuck_calm)
  · exact .refl s

theorem lastAssertAgeOut_does {i : SlotId} : Does s (execLastAssertAgeOut i s) := does_next (.calm (slot_calm .same))

/-! ## Queries -/

theorem linesQuery_does {h : Header} : Does s (execLinesQuery h s) :=
  does_next (request_path fun _ s => onSlot_path fun _ => answer_ite (fun _ => .refl s) fun _ =>
    answer_ite (fun _ => .refl s) fun _ => .refl s)

theorem overMask_path {α : Type} {h : Header} {data : List (SlotId × α) → ReplyData}
    {each : SlotId → State → α × State} (he : ∀ i s, Path s (each i s).2) : Path s (overMask h data each s).2 :=
  answer_ite (fun _ => .refl s) fun _ => answer_ite (fun _ => .refl s) fun _ => eachSlot_path he _ s

theorem slotQuery_does {h : Header} : Does s (execSlotQuery h s) :=
  does_next (request_path fun _ _ => overMask_path fun _ s => .refl s)

theorem slotClear_does {h : Header} : Does s (execSlotClear h s) := by
  refine does_next (request_path fun _ _ => overMask_path fun _ s => ?_)
  split_ifs
  · exact .calm (slot_calm .same)
  · exact .refl s

theorem readRule_path {h : Header} {known : Bool} {e : StationId} {rule : SlotId → State → Answer}
    (hr : ∀ i, Path s (rule i s).2) : Path s (readRule h known e rule s).2 :=
  onSlot_path fun i => answer_ite (fun _ => .refl s) fun _ => answer_ite (fun _ => .refl s) fun _ =>
    answer_ite (fun _ => .refl s) fun _ => hr i

theorem readAnswer_path {i : SlotId} {r : Option ReadStart} {max : BitVec 16} :
    Path s (readAnswer i r max s).2 := by
  cases r <;> exact .refl s

theorem consoleReadAbsolute_does {h : Header} {p : Pos} {max : BitVec 16} :
    Does s (execConsoleReadAbsolute h p max s) :=
  does_next (request_path fun _ _ => readRule_path fun _ => readAnswer_path)

theorem consoleReadCursor_does {h : Header} {max : BitVec 16} : Does s (execConsoleReadCursor h max s) :=
  does_next (request_path fun _ _ => readRule_path fun _ =>
    answer_ite (fun _ => readAnswer_path) fun _ => .calm (outer_calm rfl))

theorem consoleReadMarker_does {h : Header} {sel : MarkerSel} {offset max : BitVec 16} :
    Does s (execConsoleReadMarker h sel offset max s) :=
  does_next (request_path fun _ _ => readRule_path fun _ => readAnswer_path)

theorem historyClear_does {h : Header} : Does s (execHistoryClear h s) := by
  refine does_next (request_path fun _ s => onSlot_path fun _ => answer_ite (fun _ => .refl s) fun _ =>
    answer_ite (fun _ => .refl s) fun _ => .calm (slot_calm ⟨⟨?_, id⟩, rfl, rfl⟩))
  exact fun ⟨_, _, _, rest⟩ => ⟨Nat.zero_le _, Nat.zero_le _, by simp, rest⟩

theorem tableRead_does {h : Header} {t : Option TableName} {n : Nat} : Does s (execTableRead h t n s) := by
  refine does_next (request_path fun _ s => answer_ite (fun _ => .refl s) fun _ => ?_)
  split
  · exact .refl s
  · split
    · exact .refl s
    · exact answer_ite (fun _ => .refl s) fun _ => .refl s

theorem mediaQuery_does {h : Header} : Does s (execMediaQuery h s) :=
  does_next (request_path fun _ s => onUnit_path fun _ => answer_ite (fun _ => .refl s) fun _ =>
    answer_ite (fun _ => .refl s) fun _ => .refl s)

theorem messageUnknownKind_does {h : Header} {k : ForeignKind} : Does s (execMessageUnknownKind h k s) :=
  does_next (request_path fun _ s => .refl s)

/-! ## POWER and the step deadlines -/

theorem powerFailure_none {a : Action} {p : Profile} {q : Quote} {i : SlotId} (h : powerFailure a p q i s = none) :
    seqBusy (s.slot i).seq.state = false := by
  by_contra busy
  rw [Bool.not_eq_false] at busy
  unfold powerFailure at h
  dsimp only at h
  split_ifs at h

theorem powerSlot_path {a : Action} {profile : Option Nat} {q : Quote} {e : StationId} {i : SlotId} :
    Path s (powerSlot a profile q e i s).2 := by
  unfold powerSlot
  dsimp only
  split_ifs
  · exact .refl s
  · split
    · exact .refl s
    next passes =>
      refine (Path.calm (setPending_calm (c := .operator))).trans (accept_path ?_)
      rw [Calm.seq setPending_calm]
      exact powerFailure_none passes

theorem powerRule_path {h : Header} {profile : Option Nat} {quotes : List Quote}
    {each : SlotId → State → PowerOutcome × State} (he : ∀ i s, Path s (each i s).2) :
    Path s (powerRule h profile quotes each s).2 :=
  answer_ite (fun _ => .refl s) fun _ => answer_ite (fun _ => .refl s) fun _ =>
    answer_ite (fun _ => .refl s) fun _ => eachSlot_path he _ s

theorem powerRequest_path {a : Action} {h : Header} {profile : Option Nat} {quotes : List Quote} :
    Path s (powerRequest a h profile quotes s) :=
  request_path fun _ _ => powerRule_path fun _ _ => powerSlot_path

theorem powerAbort_does {h : Header} {profile : Option Nat} {quotes : List Quote} :
    Does s (execPowerAbort h profile quotes s) := by
  refine does_next (request_path fun _ _ => powerRule_path fun _ s => ?_)
  unfold abortSlot
  split_ifs
  · exact .refl s
  · exact abort_path

theorem stepDue_state {i : SlotId} {st : SeqState} {which : Step → Bool} (h : s.stepDue i st which = true) :
    (s.slot i).seq.state = st := by
  unfold State.stepDue at h
  split at h
  · simp only [Bool.and_eq_true, decide_eq_true_eq] at h
    exact h.1.1
  · cases h

theorem pressDeadline_does {i : SlotId} : Does s (execPressDeadline i s) :=
  does_next (.when fun due => (Path.calm setClaims_calm).trans
    (stepEnds_path (Stepping.calm (stepDue_state due) setClaims_calm)))

theorem dwellDeadline_does {i : SlotId} : Does s (execDwellDeadline i s) :=
  does_next (.when fun due => stepEnds_path (stepDue_state due))

theorem expectHighDeadline_does {i : SlotId} : Does s (execExpectHighDeadline i s) :=
  does_next (.when fun _ => halt_path)

theorem lowExpires_path {i : SlotId} (h : Stepping i s) : Path s (lowExpires i s) := by
  unfold lowExpires
  split_ifs
  · exact modRecordOf_path.trans (runSteps_path h.modRecordOf)
  · exact halt_path

theorem expectLowDeadline_does {i : SlotId} : Does s (execExpectLowDeadline i s) :=
  does_next (.when fun due => lowExpires_path (stepDue_state due))

theorem gateWaitDeadline_does {i : SlotId} : Does s (execGateWaitDeadline i s) :=
  does_next (.when fun _ => gateReport_path)

theorem inrushEvaluation_does : Does s (execInrushEvaluation s) := by
  refine does_next ?_
  split
  · exact .refl s
  next w rest queue =>
    refine (Path.calm expireCharges_calm).trans (.when fun _ => goOn_path (giveStart_enters (rest := rest) queue))

theorem inrushUnitUpkeep_does : Does s (execInrushUnitUpkeep s) :=
  does_next (.calm (expireCharges_calm.trans (.apart (apart_inrush rfl))))

theorem coldMarkSet_does {i : SlotId} : Does s (execColdMarkSet i s) := by
  refine does_next ?_
  split
  · exact .when fun _ => .calm (slot_calm .same)
  · exact .refl s

/-! ## Media units, storage ports and fetches -/

theorem mediaBind_does {h : Header} {slot : Byte} : Does s (execMediaBind h slot s) := by
  refine does_next (request_path fun _ s => onUnit_path fun u => ?_)
  split
  · exact .refl s
  · refine answer_ite (fun _ => .refl s) fun _ => answer_ite (fun _ => .refl s) fun _ =>
      answer_ite (fun _ => .refl s) fun free => ?_
    simp only [not_or, not_not] at free
    exact takeBind_path free.1 free.2

theorem mediaUnbind_does {h : Header} : Does s (execMediaUnbind h s) := by
  refine does_next (request_path fun _ s => onUnit_path fun u => answer_ite (fun _ => .refl s) fun _ =>
    answer_ite (fun _ => .refl s) fun presents => answer_ite (fun _ => .refl s) fun _ => eject_path ?_)
  simp [Bound, not_not.mp presents]

theorem turnAway_calm {i : SlotId} {k : RequestKind} {o : PortOutcome} : Calm s (turnAway i k o s) :=
  tell_calm.trans count_calm

/-- A storage port turns a request away, or hands it to a free port's presenting unit. -/
theorem portTakes_path {i : SlotId} {k : RequestKind} {rule : UnitId → State → State}
    (hr : ∀ u, (s.slot i).port.inFlight = none → (s.unit u).slot = some i → Bound s u → Path s (rule u s)) :
    Path s (portTakes i k rule s) := by
  unfold portTakes
  split_ifs with busy
  · exact .refl s
  · split
    · exact .calm turnAway_calm
    next u bound =>
      split_ifs with presents
      · exact .calm ((unit_calm ⟨rfl, rfl, rfl, rfl, rfl⟩).trans turnAway_calm)
      · exact hr u (by simpa using busy) (unitOf_eq_some bound) (by simp [Bound, presents])
      · exact .calm turnAway_calm

theorem storageCheck_does {i : SlotId} : Does s (execStorageCheck i s) :=
  does_next (portTakes_path fun _ _ _ _ => .calm tell_calm)

theorem storageCapacity_does {i : SlotId} : Does s (execStorageCapacity i s) :=
  does_next (portTakes_path fun _ _ _ _ => .calm (tell_calm.trans tell_calm))

theorem refuseMedium_calm {i : SlotId} {u : UnitId} {k : RequestKind} : Calm s (refuseMedium i u k s) :=
  tell_calm.trans countUnit_calm

theorem storageRead_does {i : SlotId} {first count : Nat} : Does s (execStorageRead i first count s) := by
  refine does_next (portTakes_path fun u free slot bound => ?_)
  split_ifs
  · exact .calm tell_calm
  · split
    · exact .calm refuseMedium_calm
    · exact .calm (acceptRead_calm slot bound free)

theorem storageWrite_does {i : SlotId} {first count : Nat} : Does s (execStorageWrite i first count s) := by
  refine does_next (portTakes_path fun u free slot bound => ?_)
  dsimp only
  split_ifs with range _ _ _ space
  · exact .calm tell_calm
  · exact .calm (tell_calm.trans countUnit_calm)
  · exact .calm refuseMedium_calm
  · exact .calm (tell_calm.trans countUnit_calm)
  · exact .calm (tell_calm.trans countUnit_calm)
  · refine .calm (.write free slot ?_ (by simpa using space))
    simp only [rangeGood, Bool.not_eq_true', Bool.not_eq_false, Bool.and_eq_true, decide_eq_true_eq] at range
    exact range.1.1

/-- The end of a write is told to the server as the last block is stored. -/
theorem setInFlight_tell {i : SlotId} {o : ServerOut} {r : Option PortRequest} :
    setInFlight i r (tell i o s) = tell i o (setInFlight i r s) := by
  rw [tell, setInFlight, setInFlight, tell, modSlot_modSlot, modSlot_modSlot]

theorem storageWriteDataBlock_does {i : SlotId} {data : Block} : Does s (execStorageWriteDataBlock i data s) := by
  refine does_next ?_
  split
  next lba left u inFlight bound =>
    have slot := unitOf_eq_some bound
    have stored : Calm s (writeOn i u lba left data s) := .data inFlight slot
    dsimp only
    split_ifs with last
    · rw [writeOn, if_pos last] at stored
      unfold finishWrite
      rw [setInFlight_tell]
      have free : (setInFlight i none (s.modUnit u (storeBlock lba data))).portBusy u = false :=
        portBusy_setInFlight_none ((congrArg MediaUnit.slot modUnit_unit_same).trans slot)
      refine .calm (stored.trans (.trans (tell_calm.trans countUnit_calm) (afterRequest_calm ?_)))
      have told : Bindings (setInFlight i none (s.modUnit u (storeBlock lba data))) _ :=
        (tell_bindings (i := i) (o := .done .write .good)).trans
          (FetchMove.toBindings (A := fun _ => True) (fetchMove_countUnit (u := u)
            (f := fun c => { c with writesGood := bump c.writesGood })))
      rw [portBusy_eq_false] at free ⊢
      intro j e
      rw [told.inFlight]
      exact free j ((told.unit u).slot ▸ e)
    · rw [writeOn, if_neg last] at stored
      exact .calm stored
  · exact .refl s

theorem serverAbort_does {i : SlotId} : Does s (execServerAbort i s) := by
  refine does_next ?_
  split
  next r u inFlight bound =>
    have slot := unitOf_eq_some bound
    refine .calm ((dropRequest_calm inFlight slot).trans (.trans countUnit_calm (afterRequest_calm ?_)))
    exact (FetchMove.portBusy (A := fun _ => True) fetchMove_countUnit).trans (dropRequest_portBusy slot)
  · exact .refl s

theorem fetchDeadline_does {id : BitVec 16} : Does s (execFetchDeadline id s) := by
  refine does_next ?_
  split
  · exact .refl s
  next r found =>
    refine .when fun _ => ?_
    have mem := List.mem_of_find?_eq_some found
    split_ifs
    · exact .calm (.fetch (reAsk_move mem (.inr (.inl ⟨r, mem, rfl⟩))))
    · exact failRecord_path

theorem blockData_does {h : Header} {id : BitVec 16} {block check : BitVec 32} {data : Block} :
    Does s (execBlockData h id block check data s) := by
  refine does_next (answer_path fun u r s => ?_)
  split_ifs
  · exact .calm countFetch_calm
  · exact .calm countFetch_calm
  · exact takeBlock_path

theorem blockAbsent_does {h : Header} {id : BitVec 16} {first : BitVec 32} {count : Nat} {reason : Byte} :
    Does s (execBlockAbsent h id first count reason s) := by
  refine does_next (answer_path fun u r s => ?_)
  dsimp only
  split_ifs
  · exact .calm countFetch_calm
  · exact (Path.calm (.trans (.fetch (markFailed_move.trans unpend_move)) fetchNotice_calm)).trans
      (treatFailed_path.trans (.calm (.fetch (freeIfEmpty_move entries_live))))

end

end Sys2Proof.Machine
end

section
/-! PROOFS. The table writes, BRIDGE_CONTROL, the frame path, the power-up and the restart as chains of moves; then
every command, and the properties that every step keeps. -/

namespace Sys2Proof.Machine

open Sys2Proof

section

variable {s : State}

/-! ## Table writes (R195) -/

theorem writeRule_path {h : Header} {lo n : Nat} {w : WriteHead} {good : Bool} {own : Fin n → State → Answer}
    {e : StationId} (ho : ∀ k, Path s (own k s).2) : Path s (writeRule h lo n w good own e s).2 := by
  refine answer_ite (fun _ => .refl s) fun _ => answer_ite (fun _ => .refl s) fun _ => ?_
  split
  · exact .refl s
  · exact answer_ite (fun _ => .refl s) fun _ => answer_ite (fun _ => .refl s) fun _ => ho _

theorem storeRule_path {α : Type} {judged : Option α} {echo : α → TableEntry} {store : α → Tables → Tables}
    (h : ∀ x, Calm s (modTables (store x) s)) : Path s (storeRule judged echo store s).2 := by
  unfold storeRule
  split
  · exact .refl s
  · exact .calm (h _)

/-- A table that holds no station, no unit setup and no sparse collection is written. -/
theorem tables_calm {f : Tables → Tables} (stations : (f s.tables).stations = s.tables.stations := by rfl)
    (setup : (f s.tables).unitSetup = s.tables.unitSetup := by rfl)
    (canonical : tablesCanonical s.tables = true → tablesCanonical (f s.tables) = true := by exact id) :
    Calm s (modTables f s) :=
  .apart (apart_tables (by rw [stations]; exact id) canonical fun _ _ => by rw [setup])

theorem tablesCanonical_iff {t : Tables} : tablesCanonical t = true ↔
    sparseWf factoryIndex t.classMap = true ∧ sparseWf factoryRow t.automaton = true ∧
      sparseWf factoryIndex t.stateAction = true ∧ sparseWf factoryWatch t.watch = true := by
  simp [tablesCanonical, and_assoc]

/-- Each entry of a fold over slots or units is judged in turn. -/
theorem judgeHolder_calm {k : StationId} {i : SlotId} : Calm s (judgeHolder k s i) := by
  unfold judgeHolder
  split_ifs
  · exact endHold_calm
  · exact .refl s

theorem judgeBinding_path {k : StationId} {old : StationAddr} {u : UnitId} : Path s (judgeBinding k old s u) := by
  unfold judgeBinding
  split_ifs with lost
  · exact eject_path (by simp [Bound, lost.2.1])
  · exact .refl s

/-- What the stations are last known by is written. -/
theorem known_calm {ports : Vector (Option Port) 32} {cursors : Vector (Vector (Option Pos) 8) 32} :
    Calm s { s with lastPorts := ports, cursors := cursors } := outer_calm rfl

theorem takeStation_path {k : StationId} {x : StationEntry}
    (admin : hasAdmin (upd s.tables.stations k fun _ => x) = true) : Path s (takeStation k x s) := by
  have stored : Calm s (modTables (fun t => { t with stations := upd t.stations k fun _ => x }) s) :=
    .apart (apart_tables (fun _ => admin) id fun _ _ => rfl)
  unfold takeStation
  dsimp only
  generalize modTables _ s = t at stored
  exact (Path.calm (stored.trans (known_calm.trans (Calm.foldl (fun _ _ => judgeHolder_calm) _ _)))).trans
    (Moves.ofPath.foldl (fun _ _ => judgeBinding_path) _ _)

theorem tableWriteStation_does {h : Header} {w : WriteHead} {x : StationEntry} :
    Does s (execTableWriteStation h w x s) := by
  refine does_next (request_path fun _ s => writeRule_path fun k => ?_)
  split
  · exact .refl s
  · refine answer_ite (fun _ => .refl s) fun _ => answer_ite (fun _ => .refl s) fun admin => ?_
    dsimp only [written]
    exact takeStation_path (by simpa using admin)

theorem takeSlotSetup_path {i : SlotId} {new : SlotSetup} : Path s (takeSlotSetup i new s) := by
  have stored : Calm s (modTables (fun t => { t with slotSetup := upd t.slotSetup i fun _ => new }) s) := tables_calm
  unfold takeSlotSetup
  dsimp only
  refine Path.trans (.calm (stored.trans (setMatchState_calm.when.trans
    (restartSilence_calm.when.trans restartFilter_calm.when)))) (.when fun _ => ?_)
  exact Moves.ofPath.dropFeed observeBoot_path fun _ _ => meetLow_path

theorem tableWriteSlotSetup_does {h : Header} {w : WriteHead} {x : SlotSetup} :
    Does s (execTableWriteSlotSetup h w x s) := by
  refine does_next (request_path fun _ s => writeRule_path fun i => ?_)
  split
  · exact .refl s
  · exact answer_ite (fun _ => .refl s) fun _ => takeSlotSetup_path

theorem tableWriteConsoleSetup_does {h : Header} {w : WriteHead} {x : ConsoleSetup} :
    Does s (execTableWriteConsoleSetup h w x s) :=
  does_next (request_path fun _ _ => writeRule_path fun _ => storeRule_path fun _ => tables_calm)

theorem tableWriteProfile_does {h : Header} {w : WriteHead} {x : Profile} :
    Does s (execTableWriteProfile h w x s) :=
  does_next (request_path fun _ s => writeRule_path fun _ => answer_ite (fun _ => .refl s) fun _ =>
    storeRule_path fun _ => tables_calm)

theorem tableWriteClassMap_does {h : Header} {w : WriteHead} {cls : Nat} :
    Does s (execTableWriteClassMap h w cls s) := by
  refine does_next (request_path fun _ _ => writeRule_path fun _ => storeRule_path fun _ =>
    tables_calm (canonical := fun c => ?_))
  obtain ⟨classMap, rest⟩ := tablesCanonical_iff.mp c
  exact tablesCanonical_iff.mpr ⟨sparseWf_set classMap, rest⟩

theorem tableWriteAutomaton_does {h : Header} {w : WriteHead} {next : List Nat} :
    Does s (execTableWriteAutomaton h w next s) := by
  refine does_next (request_path fun _ _ => writeRule_path fun _ => storeRule_path fun _ =>
    tables_calm (canonical := fun c => ?_))
  obtain ⟨classMap, automaton, rest⟩ := tablesCanonical_iff.mp c
  exact tablesCanonical_iff.mpr ⟨classMap, sparseWf_set automaton, rest⟩

theorem tableWriteStateAction_does {h : Header} {w : WriteHead} {a : Nat} :
    Does s (execTableWriteStateAction h w a s) := by
  refine does_next (request_path fun _ _ => writeRule_path fun _ => storeRule_path fun _ =>
    tables_calm (canonical := fun c => ?_))
  obtain ⟨classMap, automaton, stateAction, watch⟩ := tablesCanonical_iff.mp c
  exact tablesCanonical_iff.mpr ⟨classMap, automaton, sparseWf_set stateAction, watch⟩

theorem tableWriteWatchAction_does {h : Header} {w : WriteHead} {x : WatchAction} :
    Does s (execTableWriteWatchAction h w x s) := by
  refine does_next (request_path fun _ _ => writeRule_path fun _ => storeRule_path fun _ =>
    tables_calm (canonical := fun c => ?_))
  obtain ⟨classMap, automaton, stateAction, watch⟩ := tablesCanonical_iff.mp c
  exact tablesCanonical_iff.mpr ⟨classMap, automaton, stateAction, sparseWf_set watch⟩

/-- The setup of a DETACHED unit is written (R145). -/
theorem unitSetup_calm {u : UnitId} {x : UnitSetup} (d : (s.unit u).state = .detached) :
    Calm s (modTables (fun t => { t with unitSetup := upd t.unitSetup u fun _ => x }) s) := by
  refine .apart (apart_tables id id fun v b => upd_get_ne _ ?_ _)
  rintro rfl
  exact b d

theorem tableWriteUnitSetup_does {h : Header} {w : WriteHead} {x : UnitSetup} :
    Does s (execTableWriteUnitSetup h w x s) := by
  refine does_next (request_path fun _ s => writeRule_path fun u => ?_)
  split
  · exact .refl s
  · exact answer_ite (fun _ => .refl s) fun d => .calm (unitSetup_calm (not_not.mp d))

theorem storeMap_path {k : Fin 64} {x : Option Region} : Path s (storeMap k x s).2 :=
  .calm (tables_calm (f := fun t => { t with maps := upd t.maps k fun _ => x }))

theorem tableWriteImageMap_does {h : Header} {w : WriteHead} {x : Option Region} :
    Does s (execTableWriteImageMap h w x s) := by
  refine does_next (request_path fun _ s => writeRule_path fun k => answer_ite (fun _ => .refl s) fun _ => ?_)
  split
  · exact answer_ite (fun _ => storeMap_path) fun _ => .refl s
  · split
    · exact .refl s
    · exact answer_ite (fun _ => .refl s) fun _ => storeMap_path

theorem tableWriteBridgeSetup_does {h : Header} {w : WriteHead} {x : BridgeSetup} :
    Does s (execTableWriteBridgeSetup h w x s) :=
  does_next (request_path fun _ _ => writeRule_path fun _ => storeRule_path fun _ => tables_calm)

/-! ## BRIDGE_CONTROL (R197 to R201) -/

theorem controlRule_path {rule : State → Answer} {e : StationId} (hr : Path s (rule s).2) :
    Path s (controlRule rule e s).2 := answer_ite (fun _ => .refl s) fun _ => hr

theorem bridgeControlSave_does {h : Header} : Does s (execBridgeControlSave h s) := by
  refine does_next (request_path fun _ s => controlRule_path (answer_ite (fun _ => .refl s) fun _ =>
    answer_ite (fun _ => .refl s) fun _ => .calm (.apart (apart_store ?_ ?_))))
  · rintro _ ⟨⟩
    exact .inl rfl
  · rintro _ ⟨⟩

theorem saveComplete_does : Does s (execSaveComplete s) := by
  refine does_next ?_
  split
  · exact .refl s
  next j running =>
    refine .calm ((Calm.apart (apart_store (save := none) (store := some j.copy) ?_ ?_)).trans notify_calm)
    · rintro _ ⟨⟩
    · rintro _ ⟨⟩
      exact .inr ⟨j, running, rfl⟩

theorem bridgeControlRestart_does {h : Header} {quote : BitVec 16} : Does s (execBridgeControlRestart h quote s) :=
  does_next (request_path fun _ s => controlRule_path (answer_ite (fun _ => .refl s) fun _ =>
    answer_ite (fun _ => .refl s) fun _ => answer_ite (fun _ => .refl s) fun _ => .calm (outer_calm rfl)))

theorem clearGroup_calm {g : Group} : Calm s (clearGroup s g) := by
  unfold clearGroup
  cases g with
  | port p => exact countPort_calm
  | frame => exact outer_calm rfl
  | slot i => exact count_calm
  | unit u => exact countUnit_calm
  | fetch => exact countFetch_calm
  | inrush => exact .apart (apart_inrush rfl)

theorem bridgeControlCounters_does {h : Header} {g : CounterGroup} {clear : Bool} :
    Does s (execBridgeControlCounters h g clear s) := by
  refine does_next (request_path fun _ s => controlRule_path ?_)
  split
  · exact .refl s
  · exact .refl s
  · exact answer_ite (fun _ => .refl s) fun _ => .when fun _ => .calm clearGroup_calm

/-! ## The frame path (chapter 10) -/

theorem forward_calm {p : Port} {f : Frame} : Calm s (forward p f s) := by
  unfold forward
  dsimp only
  split_ifs with room
  · simp only [Bool.and_eq_true, decide_eq_true_eq] at room
    obtain ⟨⟨up, few⟩, small⟩ := room
    refine .apart (apart_port ?_)
    rintro ⟨own, -, -, share, -⟩
    refine ⟨own, ?_, ?_, share, fun down => by simp [up] at down⟩
    · simp only [List.length_append, List.length_singleton]; omega
    · simpa [passBytes] using small
  · exact countPort_calm

theorem discoverRule_path {h : Header} {e : StationId} : Path s (discoverRule h e s).2 :=
  answer_ite (fun _ => .refl s) fun _ => .refl s

theorem discoverKnown_path {h : Header} : Path s (discoverKnown h s) := by
  unfold discoverKnown
  split
  · exact .refl s
  next e _ => exact (Path.calm (hear_calm (e := e) (p := h.port))).trans (handle_path fun _ => discoverRule_path)

theorem discoverGroup_path {h : Header} {dst : Addr} : Path s (discoverGroup h dst s) :=
  (Path.calm forward_calm).trans discoverKnown_path

theorem discover_does {h : Header} {dest : DiscoverTo} : Does s (execDiscover h dest s) := by
  refine does_next ?_
  split_ifs
  · exact .calm (outer_calm rfl)
  · cases dest with
    | bridge => exact request_path fun _ _ => discoverRule_path
    | group => exact discoverGroup_path
    | broadcast => exact discoverGroup_path

theorem handleMessage_path {h : Header} {m : Message} : Path s (handleMessage h s m) := by
  cases m with
  | discover => exact (discover_does (dest := .bridge)).stateOf
  | slotQuery => exact slotQuery_does.stateOf
  | slotClear => exact slotClear_does.stateOf
  | consoleRead mode max =>
    cases mode with
    | absolute p => exact consoleReadAbsolute_does.stateOf
    | cursor => exact consoleReadCursor_does.stateOf
    | marker sel offset => exact consoleReadMarker_does.stateOf
    | unknown => exact request_path fun _ s => readRule_path fun _ => .refl s
  | historyClear => exact historyClear_does.stateOf
  | consoleHold form =>
    cases form with
    | take => exact consoleHoldTake_does.stateOf
    | force => exact consoleHoldForce_does.stateOf
    | release => exact consoleHoldRelease_does.stateOf
    | renew => exact consoleHoldRenew_does.stateOf
    | unknown => exact request_path fun _ s => holdRule_path fun _ => .refl s
  | consoleWrite quote count bytes => exact consoleWrite_does.stateOf
  | consoleBreak quote duration => exact consoleBreak_does.stateOf
  | linesQuery => exact linesQuery_does.stateOf
  | power a profile quotes =>
    cases a with
    | act a => exact powerRequest_path
    | abort => exact powerAbort_does.stateOf
    | unknown => exact request_path fun _ s => .refl s
  | mediaBind slot => exact mediaBind_does.stateOf
  | mediaUnbind => exact mediaUnbind_does.stateOf
  | mediaQuery => exact mediaQuery_does.stateOf
  | blockData id block check data => exact blockData_does.stateOf
  | blockAbsent id first count reason => exact blockAbsent_does.stateOf
  | tableWrite w e =>
    cases e with
    | station e => exact tableWriteStation_does.stateOf
    | slotSetup e => exact tableWriteSlotSetup_does.stateOf
    | consoleSetup e => exact tableWriteConsoleSetup_does.stateOf
    | profile e => exact tableWriteProfile_does.stateOf
    | classMap cls => exact tableWriteClassMap_does.stateOf
    | automaton next => exact tableWriteAutomaton_does.stateOf
    | stateAction a => exact tableWriteStateAction_does.stateOf
    | watchAction e => exact tableWriteWatchAction_does.stateOf
    | unitSetup e => exact tableWriteUnitSetup_does.stateOf
    | imageMap e => exact tableWriteImageMap_does.stateOf
    | bridgeSetup e => exact tableWriteBridgeSetup_does.stateOf
    | unknownTable => exact request_path fun _ s => answer_ite (fun _ => .refl s) fun _ => .refl s
  | tableRead t n => exact tableRead_does.stateOf
  | bridgeControl form =>
    cases form with
    | save => exact bridgeControlSave_does.stateOf
    | restart quote => exact bridgeControlRestart_does.stateOf
    | counters g clear => exact bridgeControlCounters_does.stateOf
    | unknown => exact request_path fun _ s => controlRule_path (.refl s)
  | foreign k => exact messageUnknownKind_does.stateOf

theorem classify_path {p : Port} {f : Frame} : Path s (classify p f s) := by
  unfold classify
  dsimp only
  split_ifs
  · exact .calm (outer_calm rfl)
  · exact handleMessage_path
  · exact .calm (outer_calm rfl)
  · exact (Path.calm forward_calm).trans discoverKnown_path
  · exact .calm forward_calm

theorem frameReceived_does {p : Port} {f : Frame} : Does s (execFrameReceived p f s) := by
  refine does_next ?_
  split_ifs
  · exact .refl s
  · exact .calm countPort_calm
  · exact .calm countPort_calm
  · exact (Path.calm countPort_calm).trans classify_path

theorem canChoose_up {x : PortState} (h : canChoose x = true) : x.up = true := by
  simp only [canChoose, Bool.and_eq_true] at h
  exact h.1.1

theorem sendOwn_calm {p : Port} {f : OwnFrame} {share : Nat} (up : (s.port p).up = true)
    (h : (s.port p).share < 8 → share < 8) : Calm s (sendOwn p f share s) := by
  refine Calm.trans (.apart (apart_port ?_)) offerHeld_calm
  rintro ⟨own, pass, bytes, low, -⟩
  exact ⟨by simp; omega, pass, bytes, h low, fun down => by simp [up] at down⟩

theorem sendPass_calm {p : Port} {f : Frame} {share : Nat} (up : (s.port p).up = true)
    (h : (s.port p).share < 8 → share < 8) : Calm s (sendPass p f share s) := by
  refine .apart (apart_port ?_)
  rintro ⟨own, pass, bytes, low, -⟩
  refine ⟨own, by simp; omega, le_trans ?_ bytes, h low, fun down => by simp [up] at down⟩
  exact List.Sublist.sum_le_sum ((List.drop_sublist _ _).map _) (by simp)

theorem egressChoice_does {p : Port} : Does s (execEgressChoice p s) := by
  refine does_next (.when fun free => ?_)
  have up := canChoose_up free
  split
  · exact .refl s
  · exact .calm (sendPass_calm up id)
  · exact .calm (sendOwn_calm up id)
  · have next : (s.port p).share < 8 → ((s.port p).share + 1) % 8 < 8 := fun _ => Nat.mod_lt _ (by decide)
    dsimp only
    split_ifs
    · exact .calm (sendOwn_calm up next)
    · exact .calm (sendPass_calm up next)

theorem restartLeaves_calm {b : Bool} : Calm s (restartLeaves b s) := by
  unfold restartLeaves
  split_ifs
  · exact outer_calm rfl
  · exact .refl s

theorem frameSent_does {p : Port} : Does s (execFrameSent p s) := by
  refine does_next (.when fun _ => .calm ((Calm.apart (apart_port ?_)).trans restartLeaves_calm))
  rintro ⟨own, pass, bytes, low, down⟩
  exact ⟨own, pass, bytes, low, fun d => ⟨(down d).1, (down d).2.1, rfl⟩⟩

theorem linkUp_does {p : Port} : Does s (execLinkUp p s) := by
  refine does_next ?_
  split_ifs
  · exact .refl s
  · refine .calm ((Calm.apart (apart_port ?_)).trans offerHeld_calm)
    rintro ⟨-, -, -, low, -⟩
    exact ⟨Nat.zero_le _, Nat.zero_le _, Nat.zero_le _, low, fun down => by simp at down⟩

theorem linkDown_does {p : Port} : Does s (execLinkDown p s) := by
  refine does_next (.when fun _ => .calm ((Calm.apart (apart_port ?_)).trans restartLeaves_calm))
  rintro ⟨-, -, -, low, -⟩
  exact ⟨Nat.zero_le _, Nat.zero_le _, Nat.zero_le _, low, fun _ => ⟨rfl, rfl, rfl⟩⟩

/-! ## The power-up and the restart (R199, R200) -/

theorem portBounded_empty {x : PortState} (own : x.own = []) (pass : x.pass = []) (sending : x.sending = none)
    (share : x.share = 0) : PortBounded x := by
  simp [PortBounded, own, pass, sending, share, passBytes]

theorem factoryTables_admin : hasAdmin factoryTables.stations = true := by decide

/-- The tables that a load gives have an administrator when the store's do. -/
theorem loaded_admin (h : ∀ t, s.store = some t → hasAdmin t.stations = true) :
    hasAdmin (loaded s.store).stations = true := by
  unfold loaded
  cases e : s.store with
  | none => exact factoryTables_admin
  | some t => exact h t e

theorem loaded_canonical (h : ∀ t, s.store = some t → tablesCanonical t = true) :
    tablesCanonical (loaded s.store) = true := by
  unfold loaded
  cases e : s.store with
  | none => rfl
  | some t => exact h t e

theorem poweredSlot_kept {c : SlotSetup} {x : Slot} : SlotKept x (poweredSlot c x) where
  bounded _ := ⟨Nat.zero_le _, Nat.zero_le _, by simp [poweredSlot], Nat.zero_le _, Nat.zero_le _⟩
  canonical _ := ⟨rfl, rfl⟩

theorem poweredUp_slot {i : SlotId} :
    (poweredUp s).slot i = poweredSlot (loaded s.store).slotSetup[i] (s.slot i) := by
  simp [poweredUp, State.slot]

theorem poweredUp_fresh : Fresh s (poweredUp s) where
  kept :=
    { pending := rfl
      slots := fun i => poweredUp_slot ▸ poweredSlot_kept
      ports := fun p _ => by cases p <;> exact portBounded_empty rfl rfl rfl rfl
      admin := fun ⟨_, store, _⟩ => ⟨loaded_admin store, store, by rintro _ ⟨⟩⟩
      canonical := fun ⟨_, store, _⟩ => ⟨loaded_canonical store, store, by rintro _ ⟨⟩⟩ }
  seq i := by rw [poweredUp_slot]; exact ⟨rfl, rfl⟩
  inFlight i := by rw [poweredUp_slot]; rfl
  queue := rfl
  units u := by simp [poweredUp, State.unit, State.reset]
  cache := rfl
  records := rfl
  issue := rfl
  pool := rfl

theorem powerUp_does : Does s (execPowerUp s) :=
  does_next ((Path.fresh poweredUp_fresh).trans
    (.calm ((Calm.foldl (fun _ _ => restartFilter_calm) _ _).trans notify_calm)))

theorem restartedSlot_kept {c : SlotSetup} {x : Slot} : SlotKept x (restartedSlot c x) where
  bounded := fun ⟨retained, markers, inside, _, _⟩ => ⟨retained, markers, inside, Nat.zero_le _, Nat.zero_le _⟩
  canonical := fun ⟨ring, _⟩ => ⟨ring, rfl⟩

theorem restartBlocks_slot {i : SlotId} :
    (restartBlocks s).slot i = restartedSlot s.tables.slotSetup[i] (s.slot i) := by
  simp [restartBlocks, State.slot]

theorem restartedSlot_inFlight {c : SlotSetup} {x : Slot} : (restartedSlot c x).port.inFlight = none := by
  unfold restartedSlot
  dsimp only
  split
  · rfl
  next none => exact none

/-- What a restart takes the blocks to, from a state whose tables are loaded. -/
theorem restartBlocks_fresh {z : State} (pending : s.pending = z.pending) (slots : s.slots = z.slots)
    (store : s.store = z.store) (tables : s.tables = loaded z.store) : Fresh z (restartBlocks s) where
  kept :=
    { pending := pending
      slots := fun i => by
        rw [restartBlocks_slot, show s.slot i = z.slot i from congrArg (·[i]) slots]
        exact restartedSlot_kept
      ports := fun p _ => by cases p <;> exact portBounded_empty rfl rfl rfl rfl
      admin := fun ⟨_, held, _⟩ => by
        refine ⟨?_, ?_, by rintro _ ⟨⟩⟩
        · show hasAdmin s.tables.stations = true
          rw [tables]; exact loaded_admin held
        · show ∀ t, s.store = some t → _
          rwa [store]
      canonical := fun ⟨_, held, _⟩ => by
        refine ⟨?_, ?_, by rintro _ ⟨⟩⟩
        · show tablesCanonical s.tables = true
          rw [tables]; exact loaded_canonical held
        · show ∀ t, s.store = some t → _
          rwa [store] }
  seq i := by
    rw [restartBlocks_slot]
    refine ⟨rfl, ?_⟩
    simp only [restartedSlot]
    split_ifs <;> rfl
  inFlight i := by rw [restartBlocks_slot]; exact restartedSlot_inFlight
  queue := rfl
  units u := by simp [restartBlocks, State.unit]
  cache := rfl
  records := rfl
  issue := rfl
  pool := rfl

theorem reportHalts_calm {old : State} {i : SlotId} : Calm s (reportHalts old s i) := by
  unfold reportHalts
  split
  · exact .refl s
  · split_ifs
    · exact post_calm.trans (notify_calm.trans count_calm)
    · exact .refl s

theorem restartLines_path {i : SlotId} : Path s (restartLines s i) := by
  unfold restartLines
  dsimp only
  have released : Path s (setClaims observeBoot (fun l => { l with rstSeq := false, rstLocal := false }) i s) :=
    Moves.ofPath.setClaims observeBoot_path
  split_ifs
  · exact released
  · exact released.trans (Moves.ofPath.dropFeed observeBoot_path fun _ _ => meetLow_path)

theorem bridgeRestart_does : Does s (execBridgeRestart s) := by
  refine does_next (.when fun _ => ?_)
  have fresh := restartBlocks_fresh (z := s)
    (s := loadTables { s with restartCount := s.restartCount + 1, noticeNumber := 0 }) rfl rfl rfl rfl
  exact (Path.fresh fresh).trans ((Path.calm ((Calm.foldl (fun _ _ => restartFilter_calm) _ _).trans
    (notify_calm.trans (Calm.foldl (fun _ _ => reportHalts_calm) _ _)))).trans
    (Moves.ofPath.foldl (fun _ _ => restartLines_path) _ _))

/-! ## Every command -/

/-- Every command answers a next state that a chain of moves reaches. -/
theorem exec_does (c : Instr) (s : State) : Does s (exec c s) := by
  cases c with
  | powerUp => exact powerUp_does
  | bridgeRestart => exact bridgeRestart_does
  | consoleCharacterReceived => exact consoleCharacterReceived_does
  | rxReturnToMark => exact rxReturnToMark_does
  | breakDetected => exact breakDetected_does
  | silenceTick => exact silenceTick_does
  | silenceTerminal => exact silenceTerminal_does
  | holdOffExpiry => exact holdOffExpiry_does
  | recoveryRequestTaken => exact recoveryRequestTaken_does
  | recoveryWindowClose => exact recoveryWindowClose_does
  | txByteFinished => exact txByteFinished_does
  | breakItemDeadline => exact breakItemDeadline_does
  | breakItemFinished => exact breakItemFinished_does
  | holderIdleExpiry => exact holderIdleExpiry_does
  | pgRawChange => exact pgRawChange_does
  | pgFilterExpiry => exact pgFilterExpiry_does
  | buttonPressEdge => exact buttonPressEdge_does
  | buttonReleaseEdge => exact buttonReleaseEdge_does
  | glitchDeadline => exact glitchDeadline_does
  | stuckDeadline => exact stuckDeadline_does
  | lastAssertAgeOut => exact lastAssertAgeOut_does
  | pressDeadline => exact pressDeadline_does
  | dwellDeadline => exact dwellDeadline_does
  | expectHighDeadline => exact expectHighDeadline_does
  | expectLowDeadline => exact expectLowDeadline_does
  | gateWaitDeadline => exact gateWaitDeadline_does
  | inrushEvaluation => exact inrushEvaluation_does
  | inrushUnitUpkeep => exact inrushUnitUpkeep_does
  | coldMarkSet => exact coldMarkSet_does
  | storageCheck => exact storageCheck_does
  | storageCapacity => exact storageCapacity_does
  | storageRead => exact storageRead_does
  | storageWrite => exact storageWrite_does
  | storageWriteDataBlock => exact storageWriteDataBlock_does
  | serverAbort => exact serverAbort_does
  | fetchDeadline => exact fetchDeadline_does
  | linkUp => exact linkUp_does
  | linkDown => exact linkDown_does
  | frameReceived => exact frameReceived_does
  | messageUnknownKind => exact messageUnknownKind_does
  | egressChoice => exact egressChoice_does
  | frameSent => exact frameSent_does
  | discover => exact discover_does
  | slotQuery => exact slotQuery_does
  | slotClear => exact slotClear_does
  | consoleReadAbsolute => exact consoleReadAbsolute_does
  | consoleReadCursor => exact consoleReadCursor_does
  | consoleReadMarker => exact consoleReadMarker_does
  | historyClear => exact historyClear_does
  | consoleHoldTake => exact consoleHoldTake_does
  | consoleHoldForce => exact consoleHoldForce_does
  | consoleHoldRelease => exact consoleHoldRelease_does
  | consoleHoldRenew => exact consoleHoldRenew_does
  | consoleWrite => exact consoleWrite_does
  | consoleBreak => exact consoleBreak_does
  | linesQuery => exact linesQuery_does
  | powerOn => exact does_next powerRequest_path
  | powerOffSoft => exact does_next powerRequest_path
  | powerOffHard => exact does_next powerRequest_path
  | powerReset => exact does_next powerRequest_path
  | powerCycleSoft => exact does_next powerRequest_path
  | powerCycleFeed => exact does_next powerRequest_path
  | powerFeedOff => exact does_next powerRequest_path
  | powerFeedOn => exact does_next powerRequest_path
  | powerAbort => exact powerAbort_does
  | mediaBind => exact mediaBind_does
  | mediaUnbind => exact mediaUnbind_does
  | mediaQuery => exact mediaQuery_does
  | blockData => exact blockData_does
  | blockAbsent => exact blockAbsent_does
  | tableWriteStation => exact tableWriteStation_does
  | tableWriteSlotSetup => exact tableWriteSlotSetup_does
  | tableWriteConsoleSetup => exact tableWriteConsoleSetup_does
  | tableWriteProfile => exact tableWriteProfile_does
  | tableWriteClassMap => exact tableWriteClassMap_does
  | tableWriteAutomaton => exact tableWriteAutomaton_does
  | tableWriteStateAction => exact tableWriteStateAction_does
  | tableWriteWatchAction => exact tableWriteWatchAction_does
  | tableWriteUnitSetup => exact tableWriteUnitSetup_does
  | tableWriteImageMap => exact tableWriteImageMap_does
  | tableWriteBridgeSetup => exact tableWriteBridgeSetup_does
  | tableRead => exact tableRead_does
  | bridgeControlSave => exact bridgeControlSave_does
  | saveComplete => exact saveComplete_does
  | bridgeControlRestart => exact bridgeControlRestart_does
  | bridgeControlCounters => exact bridgeControlCounters_does
  | startBitDetected => exact startBitDetected_does
  | rxLineAtMark => exact rxLineAtMark_does

/-! ## Every step -/

/-- A property that the moves keep, and that neither the time base nor the queue of commands takes part in, is
kept by every step. -/
theorem step_keeps {P : State → Prop} (path : ∀ {s t}, Path s t → P s → P t)
    (beside : ∀ (s : State) now ms ticks cs, P s →
      P { s with now := now, msInUnit := ms, unitTicks := ticks, pending := cs })
    {s t : State} (w : P s) (h : step s = .next t) : P t := by
  unfold step at h
  split at h
  · obtain rfl : idle s = t := by injection h
    unfold idle
    dsimp only
    split_ifs
    · unfold advance
      split_ifs <;> exact beside s _ _ _ _ w
    · exact beside s s.now s.msInUnit s.unitTicks _ w
  next c cs _ =>
    obtain ⟨u, e, p⟩ := exec_does c { s with pending := cs }
    obtain rfl : u = t := by rw [e] at h; injection h
    exact path p (beside s s.now s.msInUnit s.unitTicks cs w)

end

/-! ## The obligations -/

/-- Settles O1: a step takes the command in front of the queue. -/
theorem stepTakesFront : Obligations.StepTakesFront := fun _ _ _ => rfl

/-- Settles O3: each command answers, and its moves leave the queue of commands. -/
theorem everyCommandCompletes : Obligations.EveryCommandCompletes := fun c s =>
  have ⟨t, e, p⟩ := exec_does c s
  ⟨t, e, p.kept.pending⟩

/-- Settles O5: each move keeps the buffers of each slot within their sizes. -/
theorem buffersStayBounded : Obligations.BuffersStayBounded := fun _ _ =>
  step_keeps (P := BuffersBounded) (fun p h i => (p.kept.slots i).bounded (h i)) fun _ _ _ _ _ h => h

/-- Settles O6: each move keeps the queues of each port within their sizes. -/
theorem queuesStayBounded : Obligations.QueuesStayBounded := fun _ _ =>
  step_keeps (P := QueuesBounded) (fun p h q => p.kept.ports q (h q)) fun _ _ _ _ _ h q => ports_of_eq rfl rfl q (h q)

/-- Settles O7: a write without an administrator is refused, and a SAVE and a load copy tables that have one. -/
theorem adminAlwaysHeld : Obligations.AdminAlwaysHeld := fun _ _ =>
  step_keeps (P := AdminHeld) (fun p => p.kept.admin) fun _ _ _ _ _ h => h

/-- Settles O8: the moves of the sequencers keep their records and their places in the Inrush Queue. -/
theorem sequencersStaySound : Obligations.SequencersStaySound := fun _ _ =>
  step_keeps (P := SequencersSound) (fun p => p.sequencers) fun _ _ _ _ _ h => h

/-- Settles O9: units are bound and released, and asked for, only as the rules allow. -/
theorem bindingsStaySound : Obligations.BindingsStaySound := fun _ _ =>
  step_keeps (P := BindingsSound) (fun p => p.bindings) fun _ _ _ _ _ h => h

/-- Settles O10: blocks move between the pool, the reservations and the indices of the units. -/
theorem poolConserved : Obligations.PoolConserved := fun _ _ =>
  step_keeps (P := PoolSound) (fun p => p.pool) fun _ _ _ _ _ h => h

theorem canonical_iff {s : State} : Canonical s ↔ TablesCanonical s ∧ ∀ i, SlotCanonical (s.slot i) :=
  ⟨fun ⟨a, b, c, d⟩ => ⟨⟨a, b, c⟩, d⟩, fun ⟨⟨a, b, c⟩, d⟩ => ⟨a, b, c, d⟩⟩

/-- Settles O11: each write of a sparse collection keeps its canonical form. -/
theorem canonicalKept : Obligations.CanonicalKept := fun _ _ =>
  step_keeps (P := Canonical) (fun p h => by
    obtain ⟨tables, slots⟩ := canonical_iff.mp h
    exact canonical_iff.mpr ⟨p.kept.canonical tables, fun i => (p.kept.slots i).canonical (slots i)⟩)
    fun _ _ _ _ _ h => h

end Sys2Proof.Machine
end

section
/-! PROOFS. The state after the power-up of a part with a blank store (chapters 1 to 11). -/

namespace Sys2Proof.Machine

open Sys2Proof

theorem reset_slot (i : SlotId) : State.reset.slot i = Slot.reset := by simp [State.slot, State.reset]

theorem reset_unit (u : UnitId) : State.reset.unit u = {} := by simp [State.unit, State.reset]

theorem reset_port (p : Port) : State.reset.port p = {} := by cases p <;> rfl

theorem reset_buffersBounded : BuffersBounded State.reset := by
  intro i
  rw [reset_slot]
  exact ⟨Nat.zero_le _, Nat.zero_le _, by simp [Slot.reset], Nat.zero_le _, Nat.zero_le _⟩

theorem reset_queuesBounded : QueuesBounded State.reset := by
  intro p
  rw [reset_port]
  exact portBounded_empty rfl rfl rfl rfl

theorem reset_adminHeld : AdminHeld State.reset := ⟨factoryTables_admin, by rintro _ ⟨⟩, by rintro _ ⟨⟩⟩

/-- Power-up leaves the units, the fetch path and the sequencers as a restart does. -/
theorem reset_fresh : Fresh State.reset State.reset where
  kept := .refl _
  seq i := by rw [reset_slot]; exact ⟨rfl, rfl⟩
  inFlight i := by rw [reset_slot]; rfl
  queue := rfl
  units := reset_unit
  cache := rfl
  records := rfl
  issue := rfl
  pool := rfl

theorem reset_canonical : Canonical State.reset := by
  refine ⟨rfl, by rintro _ ⟨⟩, by rintro _ ⟨⟩, fun i => ?_⟩
  rw [reset_slot]
  exact ⟨rfl, rfl⟩

theorem reset_station (e : StationId) (h : e ≠ 0) : State.reset.station e = {} := by
  revert e
  decide

theorem reset_known (e : StationId) : State.reset.lastPorts[e] = none ∧ ∀ i, State.reset.cursor e i = none := by
  simp [State.reset, State.cursor]

/-- Settles O4: the power-up values, and the properties that every step keeps. -/
theorem resetValues : Obligations.ResetValues := by
  refine ⟨fun i => ?_, reset_unit, rfl, rfl, rfl, rfl, rfl, rfl, rfl, rfl, rfl, rfl, reset_known, rfl,
    reset_station, reset_buffersBounded, reset_queuesBounded, reset_adminHeld, reset_fresh.sequencers,
    reset_fresh.bindings, reset_fresh.poolSound, reset_canonical⟩
  rw [reset_slot]
  exact ⟨rfl, rfl, rfl, rfl, rfl, rfl, rfl, rfl, rfl, rfl, rfl, rfl, rfl, rfl, rfl, rfl, rfl, rfl, rfl, rfl, rfl⟩

end Sys2Proof.Machine
end

section
/-! PROOFS. Notices and replies beside the other changes of the state: a notice is the same before and after a
change that its copies take no part in (R187, R194), and a reply enters its place whatever joins the queue
behind it (R193). -/

namespace Sys2Proof.Machine

open Sys2Proof

/-! ## Changes that the ports take no part in -/

/-- A change of the state that goes on beside the ports, the notices and what they are made from. -/
structure Beside (g : State → State) : Prop where
  modPort : ∀ s p f, g (s.modPort p f) = (g s).modPort p f
  number : ∀ s n, g { s with noticeNumber := n } = { g s with noticeNumber := n }
  port : ∀ s p, (g s).port p = s.port p
  now : ∀ s, (g s).now = s.now
  tables : ∀ s, (g s).tables = s.tables
  lastPorts : ∀ s, (g s).lastPorts = s.lastPorts
  noticeNumber : ∀ s, (g s).noticeNumber = s.noticeNumber

section

variable {g : State → State} {s : State}

theorem offerCopy_beside (h : Beside g) {b : OwnBody} {o : Option SlotId} {e : StationId} :
    offerCopy b o (g s) e = g (offerCopy b o s e) := by
  have route : (g s).route e = s.route e := by rw [State.route, State.route, h.lastPorts]
  have room : ∀ p, (g s).ownRoom p = s.ownRoom p := fun p => by rw [State.ownRoom, State.ownRoom, h.port]
  have addr : (g s).noticeAddr e = s.noticeAddr e := by simp only [State.noticeAddr, State.station, h.tables]
  unfold offerCopy
  simp only [route, room, addr, State.ownFrame, h.tables, State.ownAppend, State.countPort, ← h.modPort]
  split_ifs <;> rfl

/-- A notice beside a change of the state. -/
theorem notify_beside (h : Beside g) {o : Option SlotId} {b : NoticeBody} : (g s).notify o b = g (s.notify o b) := by
  have numbered : ({ g s with noticeNumber := (g s).noticeNumber + 1 } : State) =
      g { s with noticeNumber := s.noticeNumber + 1 } := by
    rw [h.noticeNumber]
    exact (h.number s _).symm
  have recipients : ∀ z, (g z).recipients o = z.recipients o := fun z => by
    simp only [State.recipients, State.station, h.tables]
  have copies : ∀ (body : OwnBody) (l : List StationId) (z : State),
      l.foldl (offerCopy body o) (g z) = g (l.foldl (offerCopy body o) z) := by
    intro body l
    induction l with
    | nil => exact fun _ => rfl
    | cons e l ih => exact fun z => by rw [List.foldl_cons, offerCopy_beside h, ih]; rfl
  unfold State.notify
  dsimp only
  rw [numbered, recipients, h.now, h.noticeNumber, copies]

theorem placed_beside (b : Beside g) {h : Header} {k : MsgKind} : placed h k (g s) = g (placed h k s) := by
  simp only [placed, State.ownAppend, State.ownFrame, b.tables, b.modPort]

theorem replied_beside (b : Beside g) {h : Header} {k : MsgKind} {st : Status} {d : ReplyData} :
    replied h k st d (g s) = g (replied h k st d s) := by
  simp only [replied, replyFrame, State.ownAppend, State.ownFrame, b.tables, b.modPort]

end

theorem Beside.comp {f g : State → State} (hf : Beside f) (hg : Beside g) : Beside fun s => f (g s) where
  modPort s p k := by rw [hg.modPort, hf.modPort]
  number s n := by rw [hg.number, hf.number]
  port s p := (hf.port _ p).trans (hg.port s p)
  now s := (hf.now _).trans (hg.now s)
  tables s := (hf.tables _).trans (hg.tables s)
  lastPorts s := (hf.lastPorts _).trans (hg.lastPorts s)
  noticeNumber s := (hf.noticeNumber _).trans (hg.noticeNumber s)

theorem beside_modSlot {i : SlotId} {f : Slot → Slot} : Beside fun s => s.modSlot i f :=
  ⟨fun _ p _ => by cases p <;> rfl, fun _ _ => rfl, fun _ p => by cases p <;> rfl, fun _ => rfl, fun _ => rfl,
    fun _ => rfl, fun _ => rfl⟩

theorem beside_modUnit {u : UnitId} {f : MediaUnit → MediaUnit} : Beside fun s => s.modUnit u f :=
  ⟨fun _ p _ => by cases p <;> rfl, fun _ _ => rfl, fun _ p => by cases p <;> rfl, fun _ => rfl, fun _ => rfl,
    fun _ => rfl, fun _ => rfl⟩

theorem beside_modInrush {f : Inrush → Inrush} : Beside fun s => s.modInrush f :=
  ⟨fun _ p _ => by cases p <;> rfl, fun _ _ => rfl, fun _ p => by cases p <;> rfl, fun _ => rfl, fun _ => rfl,
    fun _ => rfl, fun _ => rfl⟩

theorem beside_fetch {f : FetchTable → FetchTable} : Beside fun s => { s with fetch := f s.fetch } :=
  ⟨fun _ p _ => by cases p <;> rfl, fun _ _ => rfl, fun _ p => by cases p <;> rfl, fun _ => rfl, fun _ => rfl,
    fun _ => rfl, fun _ => rfl⟩

theorem beside_cache {f : List CacheLine → List CacheLine} : Beside fun s => { s with cache := f s.cache } :=
  ⟨fun _ p _ => by cases p <;> rfl, fun _ _ => rfl, fun _ p => by cases p <;> rfl, fun _ => rfl, fun _ => rfl,
    fun _ => rfl, fun _ => rfl⟩

theorem beside_poolFree {f : Nat → Nat} : Beside fun s => { s with poolFree := f s.poolFree } :=
  ⟨fun _ p _ => by cases p <;> rfl, fun _ _ => rfl, fun _ p => by cases p <;> rfl, fun _ => rfl, fun _ => rfl,
    fun _ => rfl, fun _ => rfl⟩

/-- A change of a slot before a notice, rather than after it. -/
theorem modSlot_notify {s : State} {i : SlotId} {f : Slot → Slot} {o : Option SlotId} {b : NoticeBody} :
    (s.notify o b).modSlot i f = (s.modSlot i f).notify o b := (notify_beside beside_modSlot).symm

theorem modUnit_notify {s : State} {u : UnitId} {f : MediaUnit → MediaUnit} {o : Option SlotId} {b : NoticeBody} :
    (s.notify o b).modUnit u f = (s.modUnit u f).notify o b := (notify_beside beside_modUnit).symm

theorem modInrush_notify {s : State} {f : Inrush → Inrush} {o : Option SlotId} {b : NoticeBody} :
    (s.notify o b).modInrush f = (s.modInrush f).notify o b := (notify_beside beside_modInrush).symm

theorem replied_modSlot {h : Header} {k : MsgKind} {st : Status} {d : ReplyData} {s : State} {i : SlotId}
    {f : Slot → Slot} : replied h k st d (s.modSlot i f) = (replied h k st d s).modSlot i f :=
  replied_beside beside_modSlot

/-! ## A reply enters its place (R193) -/

/-- What a rule does once the place of its reply is taken: it adds at most behind what waits in the Own Queues. -/
structure Behind (F : State → State) : Prop where
  grows : ∀ s p, (s.port p).own.length ≤ ((F s).port p).own.length
  fill : ∀ s p n k x, n < (s.port p).own.length → fillReply p n k (x, F s) = F (fillReply p n k (x, s))

theorem Behind.comp {F G : State → State} (hF : Behind F) (hG : Behind G) : Behind fun s => F (G s) where
  grows s p := (hG.grows s p).trans (hF.grows _ p)
  fill s p n k x h := by
    rw [hF.fill _ p n k x (h.trans_le (hG.grows s p)), hG.fill s p n k x h]

theorem behind_id : Behind fun s => s := ⟨fun _ _ => le_rfl, fun _ _ _ _ _ _ => rfl⟩

theorem Beside.behind {g : State → State} (h : Beside g) : Behind g where
  grows s p := by rw [h.port]
  fill s p n k x _ := by simp only [fillReply, h.modPort]

/-- What a filled place leaves to the copies of a notice. -/
theorem fillReply_frame {p : Port} {n : Nat} {k : MsgKind} {x : Status × ReplyData} {s : State} :
    (fillReply p n k (x, s)).now = s.now ∧ (fillReply p n k (x, s)).tables = s.tables ∧
      (fillReply p n k (x, s)).lastPorts = s.lastPorts ∧ (fillReply p n k (x, s)).noticeNumber = s.noticeNumber := by
  cases p <;> exact ⟨rfl, rfl, rfl, rfl⟩

theorem fillReply_room {p q : Port} {n : Nat} {k : MsgKind} {x : Status × ReplyData} {s : State} :
    (fillReply p n k (x, s)).ownRoom q = s.ownRoom q := by
  unfold State.ownRoom fillReply
  by_cases e : q = p
  · subst e; rw [modPort_port_same]; simp
  · rw [modPort_port_ne e]

theorem modPort_comm {s : State} {p q : Port} (h : q ≠ p) {f g : PortState → PortState} :
    (s.modPort p f).modPort q g = (s.modPort q g).modPort p f := by
  cases p <;> cases q
  · exact absurd rfl h
  · rfl
  · rfl
  · exact absurd rfl h


/-- An element changed before what joins the list. -/
theorem modify_before {α : Type} {f : α → α} {a : α} :
    ∀ {l : List α} {n : Nat}, n < l.length → (l ++ [a]).modify n f = l.modify n f ++ [a]
  | _ :: _, 0, _ => rfl
  | b :: l, n + 1, h => congrArg (b :: ·) (modify_before (l := l) (by simpa using h))

/-- A frame joins the queue behind a place that is filled before or after it. -/
theorem behind_ownAppend {q : Port} {f : OwnFrame} : Behind fun s => s.ownAppend q f where
  grows s p := by
    by_cases e : p = q
    · subst e; rw [State.ownAppend, modPort_port_same]; simp
    · rw [State.ownAppend, modPort_port_ne e]
  fill s p n k x h := by
    unfold fillReply State.ownAppend
    dsimp only
    by_cases e : p = q
    · subst e
      rw [modPort_modPort, modPort_modPort]
      exact modPort_congr (congrArg (fun l => { s.port p with own := l }) (modify_before h))
    · exact modPort_comm e

theorem behind_countPort {q : Port} {f : PortCounters → PortCounters} : Behind fun s => s.countPort q f where
  grows s p := by
    by_cases e : p = q
    · subst e; rw [State.countPort, modPort_port_same]
    · rw [State.countPort, modPort_port_ne e]
  fill s p n k x _ := by
    unfold fillReply State.countPort
    dsimp only
    by_cases e : p = q
    · subst e; rw [modPort_modPort, modPort_modPort]
    · exact modPort_comm e

theorem behind_offerCopy {b : OwnBody} {o : Option SlotId} {e : StationId} :
    Behind fun s => offerCopy b o s e where
  grows s p := by
    unfold offerCopy
    dsimp only
    split_ifs
    · exact behind_ownAppend.grows s p
    · exact behind_countPort.grows s p
  fill s p n k x h := by
    obtain ⟨-, tables, lastPorts, -⟩ := fillReply_frame (p := p) (n := n) (k := k) (x := x) (s := s)
    have route : (fillReply p n k (x, s)).route e = s.route e := by simp only [State.route, lastPorts]
    unfold offerCopy
    dsimp only
    rw [route, fillReply_room]
    by_cases room : s.ownRoom (s.route e) = true
    · simp only [room, if_true, State.noticeAddr, State.station, State.ownFrame, tables]
      exact behind_ownAppend.fill s p n k x h
    · simp only [room, Bool.false_eq_true, if_false]
      exact behind_countPort.fill s p n k x h

theorem behind_foldl {α : Type} {f : State → α → State} (h : ∀ a, Behind fun s => f s a) :
    ∀ l : List α, Behind fun s => l.foldl f s
  | [] => behind_id
  | a :: l => (behind_foldl h l).comp (h a)

/-- A notice is sent behind a place that is filled before or after it. -/
theorem behind_notify {o : Option SlotId} {b : NoticeBody} : Behind fun s => s.notify o b where
  grows s p := by
    obtain ⟨l, e⟩ := notify_grows (s := s) (o := o) (b := b) (q := p)
    rw [e]; simp
  fill s p n k x h := by
    obtain ⟨now, tables, -, number⟩ := fillReply_frame (p := p) (n := n) (k := k) (x := x) (s := s)
    have recipients : ∀ z w : State, z.tables = w.tables → z.recipients o = w.recipients o := fun z w e => by
      simp only [State.recipients, State.station, e]
    have numbered : ({ fillReply p n k (x, s) with noticeNumber := s.noticeNumber + 1 } : State) =
        fillReply p n k (x, { s with noticeNumber := s.noticeNumber + 1 }) := by cases p <;> rfl
    unfold State.notify
    dsimp only
    rw [number, numbered, now, recipients (fillReply p n k _) { s with noticeNumber := s.noticeNumber + 1 } ?_]
    · refine (behind_foldl (fun e => behind_offerCopy) _).fill _ p n k x ?_
      cases p <;> exact h
    · cases p <;> rfl

/-- A request that is taken leaves its reply, and behind it what its rule does. -/
theorem request_behind {h : Header} {e : StationId} {s : State} (taken : Taken h e s) {k : MsgKind}
    (hk : isForeign k = false) {rule : StationId → State → Answer} {st : Status} {d : ReplyData}
    {F : State → State} (behind : Behind F)
    (answers : rule e (placed h k (hear e h.port s)) = ((st, d), F (placed h k (hear e h.port s)))) :
    request h k rule s = F (replied h k st d (hear e h.port s)) := by
  have place : ((hear e h.port s).port h.port).own.length <
      ((placed h k (hear e h.port s)).port h.port).own.length := by
    rw [placed, State.ownAppend, modPort_port_same]; simp
  rw [request_taken taken k hk rule, answers, behind.fill _ _ _ _ _ place, fillReply_placed]

end Sys2Proof.Machine
end

section
/-! PROOFS. Where the copies of a notice go (R187, R194), and the queries (R15, R16, R95, R157, R195, R196). -/

namespace Sys2Proof.Machine

open Sys2Proof

/-! ## Counters that stop at their maximum (R4) -/

theorem bump_toNat {c : Counter} : (bump c).toNat = min (c.toNat + 1) (2 ^ 32 - 1) := by
  have max : (BitVec.allOnes 32).toNat = 2 ^ 32 - 1 := rfl
  unfold bump
  split_ifs with full
  · rw [full, max]; rfl
  · have below : c.toNat ≠ 2 ^ 32 - 1 := fun e => full (BitVec.eq_of_toNat_eq e)
    have bound := c.isLt
    have one : (1 : Counter).toNat = 1 := rfl
    rw [BitVec.toNat_add, one]
    omega

theorem bumpBy_toNat {n : Nat} {c : Counter} : (bumpBy n c).toNat = min (c.toNat + n) (2 ^ 32 - 1) := by
  rw [bumpBy, BitVec.toNat_ofNat]
  omega

@[simp] theorem bumpBy_zero {c : Counter} : bumpBy 0 c = c := by
  have bound := c.isLt
  refine BitVec.eq_of_toNat_eq ?_
  rw [bumpBy_toNat]
  omega

theorem bumpBy_bump {n : Nat} {c : Counter} : bumpBy n (bump c) = bumpBy (n + 1) c := by
  refine BitVec.eq_of_toNat_eq ?_
  rw [bumpBy_toNat, bumpBy_toNat, bump_toNat]
  omega

@[simp] theorem bumpBy_one {c : Counter} : bumpBy 1 c = bump c := by rw [← bumpBy_bump, bumpBy_zero]

/-! ## The copies of a notice -/

/-- A port that is offered some copies: those that find a place join its Own Queue, the others are counted. -/
def withCopies (fs : List OwnFrame) (x : PortState) : PortState :=
  { x with
    own := x.own ++ fs.take (ownSpace x)
    counters := { x.counters with noticeDrop := bumpBy (fs.length - ownSpace x) x.counters.noticeDrop } }

theorem withCopies_nil {x : PortState} : withCopies [] x = x := by simp [withCopies]

theorem withCopies_fits {f : OwnFrame} {fs : List OwnFrame} {x : PortState} (up : x.up = true)
    (room : x.own.length < 24) : withCopies fs { x with own := x.own ++ [f] } = withCopies (f :: fs) x := by
  have space : 24 - x.own.length = 24 - (x.own.length + 1) + 1 := by omega
  simp [withCopies, ownSpace, up, space]

theorem withCopies_dropped {f : OwnFrame} {fs : List OwnFrame} {x : PortState} (full : ownSpace x = 0) :
    withCopies fs { x with counters := { x.counters with noticeDrop := bump x.counters.noticeDrop } } =
      withCopies (f :: fs) x := by
  have full' : ownSpace { x with counters := { x.counters with noticeDrop := bump x.counters.noticeDrop } } = 0 := full
  simp [withCopies, full, full', bumpBy_bump]

theorem offerCopy_port_ne {b : OwnBody} {o : Option SlotId} {s : State} {e : StationId} {p : Port}
    (h : s.route e ≠ p) : (offerCopy b o s e).port p = s.port p := by
  unfold offerCopy
  dsimp only
  split_ifs
  · exact modPort_port_ne h.symm
  · exact modPort_port_ne h.symm

/-- The frame of a copy. -/
def copyFrame (b : OwnBody) (o : Option SlotId) (s : State) (e : StationId) : OwnFrame :=
  s.ownFrame (s.noticeAddr e) (match o with | some i => BitVec.ofNat 8 i | none => 0) 0 b

theorem withCopies_offerCopy {b : OwnBody} {o : Option SlotId} {s : State} {e : StationId} {fs : List OwnFrame} :
    withCopies fs ((offerCopy b o s e).port (s.route e)) =
      withCopies (copyFrame b o s e :: fs) (s.port (s.route e)) := by
  unfold offerCopy
  dsimp only
  by_cases room : s.ownRoom (s.route e) = true
  · rw [if_pos room, State.ownAppend, modPort_port_same]
    obtain ⟨up, fits⟩ : (s.port (s.route e)).up = true ∧ (s.port (s.route e)).own.length < 24 := by
      simpa [State.ownRoom] using room
    exact withCopies_fits up fits
  · rw [if_neg room, State.countPort, modPort_port_same]
    refine withCopies_dropped ?_
    rw [State.ownRoom, Bool.and_eq_true, decide_eq_true_iff] at room
    unfold ownSpace
    split_ifs with up
    · exact Nat.sub_eq_zero_of_le (not_lt.mp fun fits => room ⟨up, fits⟩)
    · rfl

/-- The copies offered to some stations, in order, come to the ports through which they were last heard. -/
theorem copies_port {b : OwnBody} {o : Option SlotId} {p : Port} : ∀ {l : List StationId} {s : State},
    (l.foldl (offerCopy b o) s).port p =
      withCopies ((l.filter fun e => decide (s.route e = p)).map (copyFrame b o s)) (s.port p)
  | [], s => withCopies_nil.symm
  | e :: l, s => by
    have route : (offerCopy b o s e).route = s.route := by
      funext d; simp only [State.route, offerCopy_lastPorts]
    have frame : copyFrame b o (offerCopy b o s e) = copyFrame b o s := by
      funext d; simp only [copyFrame, State.ownFrame, State.noticeAddr, State.station, offerCopy_tables]
    rw [List.foldl_cons, copies_port, route, frame]
    by_cases h : s.route e = p
    · subst h
      simp [withCopies_offerCopy]
    · simp [h, offerCopy_port_ne h]

theorem recipientsAt_eq {o : Option SlotId} {p : Port} {s : State} :
    recipientsAt o p s = (s.recipients o).filter fun e => decide (s.route e = p) := by
  rw [State.recipients, List.filter_filter]
  refine List.filter_congr fun e _ => ?_
  cases o <;> simp [State.route, Bool.and_comm] <;> rfl

/-- Settles O12: the copies are offered one after another, and each finds its place or is counted. -/
theorem noticesSent : Obligations.NoticesSent := by
  unfold Obligations.NoticesSent
  intro s o b
  dsimp only
  refine ⟨notify_frame, fun p => ?_⟩
  have port : ({ s with noticeNumber := s.noticeNumber + 1 } : State).port p = s.port p := by cases p <;> rfl
  have copy : copyFrame (.notice (s.noticeNumber + 1) s.now o b) o { s with noticeNumber := s.noticeNumber + 1 } =
      noticeCopy o b s := by
    funext e
    cases o <;> rfl
  unfold State.notify
  dsimp only
  rw [copies_port, port, copy]
  simp only [withCopies, List.map_take, List.length_map, recipientsAt_eq]
  rfl

/-! ## Queries -/

/-- The visits of a mask that change nothing answer slot by slot. -/
theorem eachSlot_reads {α : Type} (f : SlotId → State → α) (s : State) :
    ∀ l : List SlotId, eachSlot (fun i s => (f i s, s)) l s = (l.map fun i => (i, f i s), s)
  | [] => rfl
  | i :: l => by
    have rest := eachSlot_reads f s l
    simp only [eachSlot, rest, List.map_cons]

section

variable {h : Header} {k : MsgKind} {e : StationId} {s : State}

theorem station_placed_hear (d : StationId) : (placed h k (hear e h.port s)).station d = s.station d := by
  simp [State.station]

theorem linesReport_placed_hear (i : SlotId) : linesReport (placed h k (hear e h.port s)) i = linesReport s i := by
  simp [linesReport, State.pgRaw, State.setup]

theorem slot_of_hear_unit (u : UnitId) : ((hear e h.port s).unit u).slot = (s.unit u).slot := by rw [hear_unit]

theorem unitOf_placed_hear (i : SlotId) : (placed h k (hear e h.port s)).unitOf i = s.unitOf i := by
  simp [State.unitOf, slot_of_hear_unit]

theorem slotReport_placed_hear (i : SlotId) : slotReport (placed h k (hear e h.port s)) i = slotReport s i := by
  simp [slotReport, unitOf_placed_hear]

theorem mediaReport_placed_hear (u : UnitId) : mediaReport (placed h k (hear e h.port s)) u = mediaReport s u := by
  simp only [mediaReport, placed_unit, placed_slot, hear_slot, State.unitSetup, State.capacity, State.regions,
    placed_tables, hear_tables, placed_poolFree, hear_poolFree]
  rw [hear_unit]
  rfl

theorem discoverReport_placed_hear : discoverReport (placed h k (hear e h.port s)) e = discoverReport s e := by
  simp [discoverReport, station_placed_hear]

theorem entryAt_placed (t : TableName) (n : Nat) : entryAt (placed h k s) t n = entryAt s t n := by
  cases t <;> simp [entryAt, State.station, State.setup, State.console, State.unitSetup]

end

theorem forward_eq (q : Port) (f : Frame) (s : State) : forward q f s = passedOn q f s := by
  unfold forward passedOn passBytes State.countPort
  dsimp only
  simp only [Bool.and_eq_true, decide_eq_true_eq, and_assoc]
  split_ifs with fits
  · exact modPort_congr (if_pos fits).symm
  · exact modPort_congr (if_neg fits).symm

/-! ## A frame passed on beside what the bridge sends -/

/-- A change of a port that takes no part in its Own Queue. -/
structure PassOnly (g : PortState → PortState) : Prop where
  up : ∀ x, (g x).up = x.up
  own : ∀ x, (g x).own = x.own
  with_own : ∀ x l, g { x with own := l } = { g x with own := l }

section

variable {g : PortState → PortState} {q : Port} {s : State}

theorem ownRoom_passOnly (h : PassOnly g) (p : Port) : (s.modPort q g).ownRoom p = s.ownRoom p := by
  unfold State.ownRoom
  by_cases e : p = q
  · subst e; rw [modPort_port_same, h.up, h.own]
  · rw [modPort_port_ne e]

theorem ownAppend_passOnly (h : PassOnly g) {p : Port} {f : OwnFrame} :
    (s.modPort q g).ownAppend p f = (s.ownAppend p f).modPort q g := by
  unfold State.ownAppend
  by_cases e : p = q
  · subst e
    rw [modPort_modPort, modPort_modPort]
    exact modPort_congr ((congrArg (fun l => { g (s.port p) with own := l ++ [f] }) (h.own _)).trans
      (h.with_own _ _).symm)
  · exact modPort_comm e

theorem offerFetch_passOnly (h : PassOnly g) {r : FetchRecord} :
    offerFetch (s.modPort q g) r = (offerFetch s r).modPort q g := by
  unfold offerFetch
  rw [modPort_unit]
  split
  · rfl
  · have route : ∀ d, (s.modPort q g).route d = s.route d := fun d => by simp only [State.route, modPort_lastPorts]
    dsimp only
    rw [route, ownRoom_passOnly h]
    split_ifs
    · simp only [State.ownFrame, State.after, State.unitSetup, modPort_tables, modPort_now]
      rw [ownAppend_passOnly h]
      cases q <;> rfl
    · rfl

theorem offerHeld_passOnly (h : PassOnly g) (k : StationId) :
    offerHeld (viaEntry k) (s.modPort q g) = (offerHeld (viaEntry k) s).modPort q g := by
  have fold : ∀ (l : List FetchRecord) (z : State),
      l.foldl (fun s r => if viaEntry k s r then offerFetch s r else s) (z.modPort q g) =
        (l.foldl (fun s r => if viaEntry k s r then offerFetch s r else s) z).modPort q g := by
    intro l
    induction l with
    | nil => exact fun _ => rfl
    | cons r l ih =>
      intro z
      have via : viaEntry k (z.modPort q g) r = viaEntry k z r := by simp only [viaEntry, modPort_unit]
      rw [List.foldl_cons, List.foldl_cons, via, offerFetch_passOnly h, ← ih]
      split_ifs <;> rfl
  unfold offerHeld
  rw [modPort_fetch, fold]

theorem hear_passOnly (h : PassOnly g) {k : StationId} {p : Port} :
    hear k p (s.modPort q g) = (hear k p s).modPort q g := by
  have known : ({ s.modPort q g with lastPorts := upd s.lastPorts k fun _ => some p } : State) =
      ({ s with lastPorts := upd s.lastPorts k fun _ => some p } : State).modPort q g := by cases q <;> rfl
  unfold hear
  dsimp only
  rw [modPort_lastPorts, known, offerHeld_passOnly h]
  split_ifs <;> rfl

end

theorem passedOn_passOnly (f : Frame) : PassOnly fun x =>
    if x.up = true ∧ x.pass.length < 32 ∧ (x.pass.map (·.length)).sum + f.length ≤ 32768 then
      { x with pass := x.pass ++ [f] }
    else { x with counters := { x.counters with passDrop := bump x.counters.passDrop } } :=
  ⟨fun x => by split_ifs <;> rfl, fun x => by split_ifs <;> rfl, fun x l => by dsimp only; split_ifs <;> rfl⟩

theorem hear_passedOn {k : StationId} {p q : Port} {f : Frame} {s : State} :
    hear k p (passedOn q f s) = passedOn q f (hear k p s) := hear_passOnly (passedOn_passOnly f)

@[simp] theorem passedOn_tables {q : Port} {f : Frame} {s : State} : (passedOn q f s).tables = s.tables :=
  modPort_tables

/-- A request that is taken is taken too where a frame has been passed on before it. -/
theorem Taken.passedOn {h : Header} {e : StationId} {s : State} (taken : Taken h e s) (q : Port) (f : Frame) :
    Taken h e (passedOn q f s) := by
  obtain ⟨known, room, rest⟩ := taken
  refine ⟨?_, ?_, rest⟩
  · rw [← known]
    simp only [State.lookup, State.station, passedOn_tables]
    rfl
  · rw [hear_passedOn, ← room]
    exact ownRoom_passOnly (passedOn_passOnly f) _

theorem discoverReport_passedOn {q : Port} {f : Frame} {s : State} {e : StationId} :
    discoverReport (passedOn q f s) e = discoverReport s e := by
  simp [discoverReport, passedOn, State.station]

section

variable {h : Header} {e : StationId} {s : State}

theorem discover_replied (taken : Taken h e s) : request h .discover (discoverRule h) s =
    replied h .discover .ok (.discover (discoverReport s e)) (hear e h.port s) := by
  obtain ⟨-, -, -, -, exactBody⟩ := id taken
  refine request_replied taken rfl ?_
  simp [discoverRule, exactBody, discoverReport_placed_hear]

theorem discoverKnown_replied (taken : Taken h e s) : discoverKnown h s =
    replied h .discover .ok (.discover (discoverReport s e)) (hear e h.port s) := by
  obtain ⟨known, -⟩ := id taken
  rw [← discover_replied taken, discoverKnown, request, known]

theorem discoverGroup_replied (taken : Taken h e s) (dst : Addr) : discoverGroup h dst s =
    replied h .discover .ok (.discover (discoverReport s e))
      (hear e h.port (passedOn (otherPort h.port) (discoverFrame h dst s) s)) := by
  unfold discoverGroup
  rw [forward_eq, discoverKnown_replied (taken.passedOn _ _), discoverReport_passedOn]

theorem slotQuery_rule (exactBody : h.bodyExact = true) (k : MsgKind) (some : h.target ≠ 0) :
    overMask h (.slotQuery (placed h k (hear e h.port s)).now)
        (fun i s => (if s.holdsOn e (·.read) i then Option.some (slotReport s i) else none, s))
        (placed h k (hear e h.port s)) =
      ((.ok, .slotQuery s.now ((slotsOf h.target).map fun i =>
        (i, if s.holdsOn e (·.read) i then Option.some (slotReport s i) else none))),
        placed h k (hear e h.port s)) := by
  rw [overMask_taken exactBody some,
    eachSlot_reads fun i s => if s.holdsOn e (·.read) i then Option.some (slotReport s i) else none]
  simp only [holdsOn_placed_hear, slotReport_placed_hear, placed_now, hear_now]

end

/-- Settles O13: each query's rule answers from what neither hearing its station nor the place of its reply has
changed. -/
theorem queriesOnlyReply : Obligations.QueriesOnlyReply := by
  unfold Obligations.QueriesOnlyReply
  intro h e s taken
  obtain ⟨-, -, -, -, exactBody⟩ := id taken
  dsimp only
  refine ⟨fun i slot read => ?_, fun u unit may => ?_, fun t n x admin entry => ?_, fun other => ?_, fun self dest => ?_,
    fun some => ?_, fun none => ?_⟩
  · refine congrArg Host.Outcome.next (request_replied taken rfl ?_)
    rw [onSlot_named slot]
    simp only [exactBody, holdsOn_placed_hear, read, linesReport_placed_hear]
    rfl
  · refine congrArg Host.Outcome.next (request_replied taken rfl ?_)
    simp only [onUnit, unit, exactBody, station_placed_hear, may, mediaReport_placed_hear]
    rfl
  · refine congrArg Host.Outcome.next (request_replied taken rfl ?_)
    simp only [station_placed_hear, admin, entryAt_placed, entry, exactBody]
    rfl
  · have next : ∀ dest, exec (.discover h dest) s = .next (match dest with
        | .bridge => request h .discover (discoverRule h) s
        | .group => discoverGroup h s.tables.bridge.group s
        | .broadcast => discoverGroup h broadcast s) := fun dest =>
      congrArg Host.Outcome.next (if_neg other)
    refine ⟨?_, ?_, ?_⟩
    · rw [next, discover_replied taken]
    · exact (next _).trans (congrArg Host.Outcome.next (discoverGroup_replied taken _))
    · exact (next _).trans (congrArg Host.Outcome.next (discoverGroup_replied taken _))
  · exact congrArg Host.Outcome.next (if_pos self)
  · exact congrArg Host.Outcome.next (request_replied taken rfl (slotQuery_rule exactBody _ some))
  · refine congrArg Host.Outcome.next (request_replied taken rfl ?_)
    simp [overMask, exactBody, none, refuse]

end Sys2Proof.Machine
end

section
/-! PROOFS. The console receiver, the walk of the Pattern Matcher, the Silence Timer and the times of the watch
(chapters 2 and 4). -/

namespace Sys2Proof.Machine

open Sys2Proof

variable {s : State} {i : SlotId}

theorem post_when {c : Prop} [Decidable c] {d : MarkerDetail} : (if c then s.post i d else s) =
    s.modSlot i fun x => { x with hist := if c then postTo x.hist s.now d else x.hist } := by
  split_ifs
  · rfl
  · exact (modSlot_self rfl).symm

/-- A notice sent on a condition, before a change of a slot rather than after it. -/
theorem ite_notify {c : Prop} [Decidable c] {f : Slot → Slot} {o : Option SlotId} {b : NoticeBody} :
    (if c then (s.notify o b).modSlot i f else s.modSlot i f) = (if c then s.notify o b else s).modSlot i f := by
  split_ifs <;> rfl

/-! ## Recovery requests raised (R70) -/

/-- The recovery of a slot on which a request is raised, or discarded while one from its source waits. -/
def raised (a : RecoveryAction) (src : RecoverySource) (w : Nat) (x : Slot) : Recovery :=
  if ∀ r ∈ x.recovery.waiting, r.source ≠ src then
    { x.recovery with waiting := x.recovery.waiting ++
      [{ action := a, source := src, watch := w, quote := x.record.bootCount }] }
  else x.recovery

theorem raiseRecovery_eq {a : RecoveryAction} {src : RecoverySource} {w : Nat} :
    raiseRecovery i a src w s = s.modSlot i fun x => { x with recovery := raised a src w x } := by
  have waits : ((s.slot i).recovery.waiting.any fun r => decide (r.source = src)) = true ↔
      ¬ ∀ r ∈ (s.slot i).recovery.waiting, r.source ≠ src := by simp
  unfold raiseRecovery
  by_cases h : ∀ r ∈ (s.slot i).recovery.waiting, r.source ≠ src
  · rw [if_neg (not_not.mpr h ∘ waits.mp)]
    exact modSlot_congr (by simp only [raised, if_pos h])
  · rw [if_pos (waits.mpr h)]
    exact (modSlot_self (by simp only [raised, if_neg h])).symm

theorem raise_when {c : Prop} [Decidable c] {a : RecoveryAction} {src : RecoverySource} {w : Nat} :
    (if c then raiseRecovery i a src w s else s) =
      s.modSlot i fun x => { x with recovery := if c then raised a src w x else x.recovery } := by
  split_ifs
  · exact raiseRecovery_eq
  · exact (modSlot_self rfl).symm

/-! ## The walk (R63 to R65) -/

/-- The watch action that a byte brings the matcher of a slot to, 0 for none. -/
def actionAt (i : SlotId) (b : Byte) (s : State) : Nat :=
  sparseGet factoryIndex s.tables.stateAction (nextMatchState s.tables (s.slot i).matcher.state b)

theorem walk_off {b : Byte} (off : (s.setup i).matchEnable = false) : walk i b s = s := by
  unfold walk
  rw [off]
  rfl

section

variable {b : Byte} (on : (s.setup i).matchEnable = true)

include on

theorem walk_on : walk i b s =
    if actionAt i b s = 0 then setMatchState i (nextMatchState s.tables (s.slot i).matcher.state b) s
    else if (sparseGet none (s.slot i).matcher.holdOffs (actionAt i b s)).isSome then
      holdOffMatch i (actionAt i b s) (setMatchState i (nextMatchState s.tables (s.slot i).matcher.state b) s)
    else fireMatch i (actionAt i b s) (setMatchState i (nextMatchState s.tables (s.slot i).matcher.state b) s) := by
  unfold walk
  rw [if_pos on]
  dsimp only
  rw [setMatchState, modSlot_slot_same]
  rfl

theorem walk_quiet (none : actionAt i b s = 0) : walk i b s =
    s.modSlot i fun x => { x with matcher := { x.matcher with
      state := nextMatchState s.tables x.matcher.state b } } := by
  rw [walk_on on, if_pos none, setMatchState]
  exact modSlot_congr rfl

theorem walk_held (some : actionAt i b s ≠ 0)
    (runs : sparseGet none (s.slot i).matcher.holdOffs (actionAt i b s) ≠ none) : walk i b s =
    s.modSlot i fun x => { x with
      matcher := { x.matcher with state := (s.watchAction (actionAt i b s)).returnState }
      counters := { x.counters with matchesHeld := bump x.counters.matchesHeld } } := by
  rw [walk_on on, if_neg some, if_pos (Option.isSome_iff_ne_none.mpr runs), holdOffMatch,
    setMatchState, setMatchState, State.count, modSlot_modSlot, modSlot_modSlot]
  rfl

/-- The slot of a match that fires. -/
def firedSlot (w : Nat) (a : WatchAction) (s : State) (x : Slot) : Slot :=
  { x with
    hist := if a.mark then postTo x.hist s.now (.match_ w) else x.hist
    matcher := {
      state := a.returnState
      holdOffs := if a.holdOff = 0 then x.matcher.holdOffs
        else sparseSet none x.matcher.holdOffs w (some (s.after (a.holdOff * 1000))) }
    recovery := if a.recover then raised a.action .pattern w x else x.recovery
    counters := { x.counters with matchesFired := bump x.counters.matchesFired } }

omit on in
theorem fireMatch_eq {w : Nat} : fireMatch i w s =
    (if (s.watchAction w).notify then
      s.notify (some i) (.patternMatch w (s.slot i).hist.next (s.slot i).record.bootCount
        (s.watchAction w).returnState)
    else s).modSlot i (firedSlot w (s.watchAction w) s) := by
  have next : ∀ h : History, (if (s.watchAction w).mark = true then postTo h s.now (.match_ w) else h).next = h.next :=
    fun h => by split_ifs <;> rfl
  unfold fireMatch
  by_cases hold : (s.watchAction w).holdOff = 0 <;> cases notify : (s.watchAction w).notify
  all_goals
    simp [post_when, next, ← modSlot_notify, raise_when, setMatchState, State.count, hold, notify]
    refine modSlot_congr ?_
    simp [firedSlot, raised, hold, State.after]

theorem walk_fires (some : actionAt i b s ≠ 0)
    (stopped : sparseGet none (s.slot i).matcher.holdOffs (actionAt i b s) = none) : walk i b s =
    (if (s.watchAction (actionAt i b s)).notify then
      s.notify (Option.some i) (.patternMatch (actionAt i b s) (s.slot i).hist.next (s.slot i).record.bootCount
        (s.watchAction (actionAt i b s)).returnState)
    else s).modSlot i (firedSlot (actionAt i b s) (s.watchAction (actionAt i b s)) s) := by
  rw [walk_on on, if_neg some, stopped, if_neg (by decide), fireMatch_eq, setMatchState, modSlot_slot_same]
  simp only [← modSlot_notify, ite_notify, modSlot_modSlot]
  rfl

end

/-! ## A character is taken (R21, R22, R26) -/

/-- The slot once the History Store has taken the byte of a character. -/
def storedSlot (c : ConsoleSetup) (b : Byte) (parityMark stopMark : Bool) (x : Slot) : Slot :=
  { x with
    hist := storeByte x.hist b
    counters := { x.counters with
      parityErrors := if parityWrong c b parityMark then bump x.counters.parityErrors else x.counters.parityErrors
      framingErrors := if stopMark then x.counters.framingErrors else bump x.counters.framingErrors
      overwritten := if 131072 ≤ x.hist.retained then bump x.counters.overwritten else x.counters.overwritten } }

/-- The slot once the byte that its matcher has walked on is handed on. -/
def handedSlot (stopMark : Bool) (x : Slot) : Slot :=
  { x with
    rx := if stopMark then .waiting else .needMark true
    silence := {}
    counters := { x.counters with received := bump x.counters.received } }

variable {c : ConsoleSetup} {b : Byte} {parityMark stopMark : Bool}

theorem historyTakes_eq : historyTakes i b s = s.modSlot i fun x => { x with
    hist := storeByte x.hist b
    counters := { x.counters with
      overwritten := if 131072 ≤ x.hist.retained then bump x.counters.overwritten else x.counters.overwritten } } := by
  unfold historyTakes
  dsimp only
  by_cases full : 131072 ≤ (s.slot i).hist.retained
  · rw [decide_eq_true full, if_pos rfl, State.count, modSlot_modSlot]
    exact modSlot_congr (by simp only [if_pos full])
  · rw [decide_eq_false full, if_neg (by decide)]
    exact modSlot_congr (by simp only [if_neg full])

theorem takeCharacter_eq : takeCharacter i c b parityMark stopMark s =
    (walk i b (s.modSlot i (storedSlot c b parityMark stopMark))).modSlot i (handedSlot stopMark) := by
  unfold takeCharacter handOn
  dsimp only
  rw [historyTakes_eq]
  unfold restartSilence setRx State.count
  rw [modSlot_modSlot, modSlot_modSlot, modSlot_modSlot]
  rfl

theorem exec_character {marks : Byte} (rx : (s.slot i).rx = .reception c false)
    (mark : allSpace c (byteOf c marks) parityMark stopMark = false) :
    exec (.consoleCharacterReceived i marks parityMark stopMark) s =
      .next (takeCharacter i c (byteOf c marks) parityMark stopMark s) := by
  refine congrArg Host.Outcome.next ?_
  simp only [rx, mark, Bool.false_eq_true, if_false]

theorem exec_returnToMark {held : Bool} (rx : (s.slot i).rx = .reception c held) :
    exec (.rxReturnToMark i) s = .next (takeCharacter i c 0 false false s) := by
  refine congrArg Host.Outcome.next ?_
  simp only [rx]

theorem completes_takes {cmd : Instr} (h : Completes i cmd b s) :
    ∃ c parityMark stopMark, exec cmd s = .next (takeCharacter i c b parityMark stopMark s) := by
  rcases h with ⟨c, marks, parityMark, stopMark, rx, mark, rfl, rfl⟩ | ⟨c, held, rx, rfl, rfl⟩
  · exact ⟨c, parityMark, stopMark, exec_character rx mark⟩
  · exact ⟨c, false, false, exec_returnToMark rx⟩

/-- Settles O18: by the branch of the walk. -/
theorem matcherWalks : Obligations.MatcherWalks := by
  unfold Obligations.MatcherWalks
  intro i cmd b s completes
  obtain ⟨c, parityMark, stopMark, exec⟩ := completes_takes completes
  rw [exec, takeCharacter_eq]
  generalize stored : s.modSlot i (storedSlot c b parityMark stopMark) = y
  have setup : y.setup i = s.setup i := stored ▸ rfl
  have slot : y.slot i = storedSlot c b parityMark stopMark (s.slot i) := stored ▸ modSlot_slot_same
  have action : actionAt i b y = actionAt i b s := by
    rw [actionAt, slot, ← stored]
    rfl
  rw [← setup]
  dsimp only
  refine ⟨fun off => ?_, fun on => ⟨fun none => ?_, fun some runs => ?_, fun some stopped => ?_⟩⟩
  · rw [walk_off off, ← stored, modSlot_modSlot]
    exact ⟨_, rfl, rfl, fun j hj => modSlot_slot_ne hj, by rw [modSlot_slot_same]; rfl⟩
  · rw [walk_quiet on (action.trans none), ← stored, modSlot_modSlot, modSlot_modSlot]
    exact ⟨_, rfl, rfl, fun j hj => modSlot_slot_ne hj, by rw [modSlot_slot_same]; rfl⟩
  · rw [walk_held on (action.symm ▸ some) (by rw [action, slot]; exact runs), action, ← stored, modSlot_modSlot,
      modSlot_modSlot]
    exact ⟨_, rfl, rfl, fun j hj => modSlot_slot_ne hj, by rw [modSlot_slot_same]; rfl⟩
  · rw [walk_fires on (action.symm ▸ some) (by rw [action, slot]; exact stopped), action, slot, ← stored,
      ← modSlot_notify, ite_notify, modSlot_modSlot, modSlot_modSlot]
    have kept : ∀ (z : State) (m : NoticeBody) (j : SlotId) (n : Bool),
        (if n then z.notify (Option.some i) m else z).slot j = z.slot j := fun z m j n => by
      split_ifs
      · exact notify_slot
      · rfl
    refine ⟨_, rfl, rfl, fun j hj => (modSlot_slot_ne hj).trans (kept ..), ?_⟩
    rw [modSlot_slot_same, kept, ite_and]
    rfl

/-! ## The receiver (R20 to R24) -/

/-- What a walk keeps of its slot: the history but for a marker, and the receiver's counters. -/
structure WalkKept (x y : Slot) : Prop where
  next : y.hist.next = x.hist.next
  retained : y.hist.retained = x.hist.retained
  ring : y.hist.ring = x.hist.ring
  received : y.counters.received = x.counters.received
  framingErrors : y.counters.framingErrors = x.counters.framingErrors
  parityErrors : y.counters.parityErrors = x.counters.parityErrors

theorem firedSlot_kept {w : Nat} {a : WatchAction} {z : State} (x : Slot) : WalkKept x (firedSlot w a z x) := by
  unfold firedSlot
  cases a.mark <;> exact ⟨rfl, rfl, rfl, rfl, rfl, rfl⟩

theorem walk_kept : OnlySlot i s (walk i b s) ∧ WalkKept (s.slot i) ((walk i b s).slot i) := by
  have changed : ∀ f : Slot → Slot, WalkKept (s.slot i) (f (s.slot i)) →
      OnlySlot i s (s.modSlot i f) ∧ WalkKept (s.slot i) ((s.modSlot i f).slot i) := fun f kept =>
    ⟨onlySlot_modSlot, modSlot_slot_same (f := f) ▸ kept⟩
  by_cases on : (s.setup i).matchEnable = true
  · by_cases none : actionAt i b s = 0
    · rw [walk_quiet on none]
      exact changed _ ⟨rfl, rfl, rfl, rfl, rfl, rfl⟩
    · by_cases stopped : sparseGet Option.none (s.slot i).matcher.holdOffs (actionAt i b s) = Option.none
      · rw [walk_fires on none stopped]
        split_ifs
        · refine ⟨onlySlot_trans onlySlot_notify onlySlot_modSlot, ?_⟩
          rw [modSlot_slot_same, notify_slot]
          exact firedSlot_kept _
        · exact changed _ (firedSlot_kept _)
      · rw [walk_held on none stopped]
        exact changed _ ⟨rfl, rfl, rfl, rfl, rfl, rfl⟩
  · rw [walk_off (Bool.eq_false_iff.mpr on)]
    exact ⟨onlySlot_refl, rfl, rfl, rfl, rfl, rfl, rfl⟩

/-- A slot whose receiver has taken a character of byte `b` under setup `c` (R21, R22, R26, R68). -/
structure TookCharacter (c : ConsoleSetup) (b : Byte) (parityMark stopMark : Bool) (x y : Slot) : Prop where
  hist : StoredIn b x.hist y.hist
  silence : y.silence = {}
  received : y.counters.received = bump x.counters.received
  framingErrors : y.counters.framingErrors =
    if stopMark then x.counters.framingErrors else bump x.counters.framingErrors
  parityErrors : y.counters.parityErrors =
    if parityWrong c b parityMark then bump x.counters.parityErrors else x.counters.parityErrors
  rx : y.rx = if stopMark then .waiting else .needMark true

theorem storedIn_storeByte {h k : History} (bound : h.retained ≤ 131072) (ring : sparseWf 0 h.ring = true)
    (next : k.next = (storeByte h b).next) (retained : k.retained = (storeByte h b).retained)
    (same : k.ring = (storeByte h b).ring) : StoredIn b h k := by
  have read : ∀ p, ringAt k p = ringAt (storeByte h b) p := fun p => by rw [ringAt, ringAt, same]
  refine ⟨next, ?_, (read _).trans (storeByte_ringAt_same ring), fun p hp => ?_⟩
  · rw [retained, storeByte_retained bound]
  · rw [read, storeByte_ringAt_ne hp]

theorem takeCharacter_takes (bound : (s.slot i).hist.retained ≤ 131072)
    (ring : sparseWf 0 (s.slot i).hist.ring = true) :
    TookCharacter c b parityMark stopMark (s.slot i) ((takeCharacter i c b parityMark stopMark s).slot i) ∧
      OnlySlot i s (takeCharacter i c b parityMark stopMark s) := by
  rw [takeCharacter_eq]
  obtain ⟨only, kept⟩ := walk_kept (s := s.modSlot i (storedSlot c b parityMark stopMark)) (i := i) (b := b)
  rw [modSlot_slot_same] at kept
  refine ⟨?_, onlySlot_trans onlySlot_modSlot (onlySlot_trans only onlySlot_modSlot)⟩
  rw [modSlot_slot_same]
  exact {
    hist := storedIn_storeByte bound ring kept.next kept.retained kept.ring
    silence := rfl
    received := congrArg bump kept.received
    framingErrors := kept.framingErrors
    parityErrors := kept.parityErrors
    rx := rfl }

theorem takeBreakIn_eq : takeBreakIn i s = s.modSlot i fun x => { x with
    rx := .needMark false
    hist := postTo x.hist s.now .breakIn
    counters := { x.counters with breaks := bump x.counters.breaks } } := by
  unfold takeBreakIn setRx State.post State.count
  rw [modSlot_modSlot, modSlot_modSlot]

/-- Settles O15: by the state of the receiver. -/
theorem receiverMoves : Obligations.ReceiverMoves := by
  unfold Obligations.ReceiverMoves
  intro i s
  dsimp only
  refine ⟨fun rx => ?_, fun half rx => ?_, fun rx => ?_, fun rx => ?_, fun bound ring =>
    ⟨fun c marks parityMark stopMark rx mark => ?_, fun c held rx => ?_⟩⟩
  · refine congrArg Host.Outcome.next ?_
    simp only [rx, setRx]
  · refine congrArg Host.Outcome.next ?_
    simp only [rx, setRx]
  · rw [← takeBreakIn_eq]
    refine congrArg Host.Outcome.next ?_
    rcases rx with ⟨c, held, rx⟩ | rx <;> simp only [rx]
  · refine congrArg Host.Outcome.next ?_
    rcases rx with rx | rx <;> simp only [rx]
  · obtain ⟨took, only⟩ := takeCharacter_takes (c := c) (b := byteOf c marks) (parityMark := parityMark)
      (stopMark := stopMark) bound ring
    exact ⟨_, exec_character rx mark, took.hist, took.silence, took.received, took.framingErrors, took.parityErrors,
      took.rx, only⟩
  · obtain ⟨took, only⟩ := takeCharacter_takes (c := c) (b := 0) (parityMark := false) (stopMark := false) bound ring
    exact ⟨_, exec_returnToMark rx, took.hist, took.framingErrors, took.rx, only⟩

/-! ## The Silence Timer, hold-offs and the recovery window (R65, R68, R69, R73) -/

theorem silenceEnds_eq : silenceEnds i s =
    (if (s.setup i).silenceAction ≠ 0 ∧ (s.watchAction (s.setup i).silenceAction).notify = true then
      s.notify (some i) (.consoleSilent (s.setup i).silenceAction (s.setup i).silenceLimit (s.setup i).silenceUnit
        (s.slot i).hist.next)
    else s).modSlot i fun x => { x with
      silence := { count := (s.setup i).silenceLimit, terminal := true }
      hist := postTo x.hist s.now (.silence (s.setup i).silenceAction)
      recovery :=
        if (s.setup i).silenceAction ≠ 0 ∧ (s.watchAction (s.setup i).silenceAction).recover = true then
          raised (s.watchAction (s.setup i).silenceAction).action .silence (s.setup i).silenceAction x
        else x.recovery
      counters := { x.counters with silences := bump x.counters.silences } } := by
  unfold silenceEnds
  dsimp only
  rw [raise_when, State.post, State.count, modSlot_modSlot]
  simp only [← modSlot_notify, ite_notify, modSlot_modSlot]
  rfl

theorem silenceCounts_iff : s.silenceCounts i = true ↔ Counts i s := by
  simp [State.silenceCounts, Counts, and_assoc]

theorem silenceReaches_iff : s.silenceReaches i = true ↔ (s.setup i).silenceLimit ≤ (s.slot i).silence.count + 1 :=
  decide_eq_true_iff

/-- Settles O19: a tick that counts reaches the limit or not; a deadline is reached or not. -/
theorem watchTimesPass : Obligations.WatchTimesPass := by
  unfold Obligations.WatchTimesPass
  refine ⟨fun i s counts => ⟨fun below => ?_, fun reaches cmd which => ?_⟩, fun i s => ⟨fun w due runs => ?_,
    fun v window => ?_⟩⟩
  · refine congrArg Host.Outcome.next ?_
    rw [if_pos (silenceCounts_iff.mpr counts), if_neg (silenceReaches_iff.not.mpr (not_le.mpr below))]
  · have ends : exec cmd s = .next (silenceEnds i s) := by
      have counted := silenceCounts_iff.mpr counts
      have reached := silenceReaches_iff.mpr reaches
      rw [List.mem_pair] at which
      rcases which with rfl | rfl
      · exact congrArg Host.Outcome.next ((if_pos counted).trans (if_pos reached))
      · exact congrArg Host.Outcome.next (if_pos (Bool.and_eq_true_iff.mpr ⟨counted, reached⟩))
    rw [ends, silenceEnds_eq]
    simp only [raised, ← ite_and, and_assoc]
  · refine ⟨fun yes => congrArg Host.Outcome.next ?_, fun no => congrArg Host.Outcome.next ?_⟩
    · simp only [runs, expired, yes, if_true]
    · simp only [runs, expired, no, Bool.false_eq_true, if_false]
  · refine ⟨fun yes => congrArg Host.Outcome.next ?_, fun no => congrArg Host.Outcome.next ?_⟩
    · simp only [window, yes, if_true, modRecovery]
    · simp only [window, no, Bool.false_eq_true, if_false]

end Sys2Proof.Machine
end

section
/-! PROOFS. The transmitter, the holder, and typing (chapter 3). -/

namespace Sys2Proof.Machine

open Sys2Proof

variable {s : State} {i : SlotId} {h : Header} {e : StationId}

/-! ## The transmitter (R43 to R45) -/

theorem takeHead_eq : takeHead i s =
    s.modSlot i fun x => { x with input := afterItem (s.console i) s x.input.items x.input } := by
  unfold takeHead modInput
  rcases items : (s.slot i).input.items with _ | ⟨_ | _, rest⟩ <;> dsimp only <;>
    refine modSlot_congr ?_ <;> simp only [items, afterItem, startItem]

theorem takeHead_count {f : SlotCounters → SlotCounters} : takeHead i (s.count i f) =
    s.modSlot i fun x => { x with
      input := afterItem (s.console i) s x.input.items x.input, counters := f x.counters } := by
  rw [takeHead_eq, State.count, modSlot_modSlot]
  rfl

/-- Settles O21: by the item that ends. -/
theorem transmitterMoves : Obligations.TransmitterMoves := by
  unfold Obligations.TransmitterMoves
  intro i s
  refine ⟨fun b baud bits tx => ?_, fun baud tx => ?_, fun due tx late => ?_⟩
  · refine congrArg Host.Outcome.next ?_
    simp only [tx, takeHead_count]
  · refine congrArg Host.Outcome.next ?_
    simp only [tx, takeHead_count]
  · refine congrArg Host.Outcome.next ?_
    simp only [tx, late, if_true, modInput]

/-! ## The holder (R46 to R52) -/

theorem idleDue_placed_hear (k : MsgKind) : (placed h k (hear e h.port s)).idleDue i = s.idleDue i := by
  simp [State.idleDue, State.after, State.console]

/-- The slot of a holding that is granted. -/
def heldSlot (e : StationId) (due now : Time) (x : Slot) : Slot :=
  { x with
    hist := postTo x.hist now (.holder (some e))
    input := { x.input with holder := some e, count := 0, idleDue := some due } }

theorem grant_eq {why : HolderReason} : grant i e why s =
    (s.modSlot i (heldSlot e (s.idleDue i) s.now)).notify (some i)
      (.holderChanged (s.slot i).input.holder (some e) why 0) := by
  unfold grant reportHolder modInput State.post
  simp only [modSlot_slot_same, modSlot_modSlot]
  rfl

theorem endHold_eq {why : HolderReason} : endHold i why s =
    (s.modSlot i (holdingEnded s.now)).notify (some i)
      (.holderChanged (s.slot i).input.holder none why (s.slot i).input.count) := by
  unfold endHold reportHolder modInput State.post
  simp only [modSlot_slot_same, modSlot_modSlot]
  rfl

/-- What changes a slot and sends a notice lets a reply before it enter its place. -/
theorem behind_reported {f : Slot → Slot} {o : Option SlotId} {b : NoticeBody} :
    Behind fun s => (s.modSlot i f).notify o b := behind_notify.comp beside_modSlot.behind

/-- The answer of a form with the data of CONSOLE_HOLD. -/
theorem holdAnswer_of {st : Status} {q : InputQueue} (input : (s.slot i).input = q) :
    holdAnswer i st s = ((st, .hold q.holder q.count q.idleDue), s) := by
  unfold holdAnswer holdData
  rw [input]

/-- A CONSOLE_HOLD that reaches its form (R47). -/
theorem holdRule_reached (types : Types h e i s) (force : Bool) (form : SlotId → State → Answer)
    (forced : force = true → (s.station e).rights.force = true) :
    holdRule h true force e form (placed h .consoleHold (hear e h.port s)) =
      form i (placed h .consoleHold (hear e h.port s)) := by
  obtain ⟨⟨-, -, -, -, exactBody⟩, slot, typed⟩ := types
  unfold holdRule
  rw [onSlot_named slot]
  cases force
  · simp [exactBody, holdsOn_placed_hear, typed]
  · simp [exactBody, holdsOn_placed_hear, typed, station_placed_hear, forced rfl]

theorem placed_input (k : MsgKind) :
    ((placed h k (hear e h.port s)).slot i).input = (s.slot i).input := by rw [placed_slot, hear_slot]

theorem unforced {p : Prop} : false = true → p := fun f => absurd f Bool.false_ne_true

/-- A form that grants the holding. -/
theorem hold_granted (types : Types h e i s) {force : Bool} {form : StationId → SlotId → State → Answer}
    (forced : force = true → (s.station e).rights.force = true) {why : HolderReason}
    (grants : form e i (placed h .consoleHold (hear e h.port s)) =
      holdAnswer i .ok (grant i e why (placed h .consoleHold (hear e h.port s)))) :
    request h .consoleHold (fun e s => holdRule h true force e (form e) s) s =
      ((replied h .consoleHold .ok (.hold (some e) 0 (some (s.idleDue i))) (hear e h.port s)).modSlot i
        (heldSlot e (s.idleDue i) s.now)).notify (some i)
          (.holderChanged (s.slot i).input.holder (some e) why 0) := by
  refine request_behind types.1 rfl behind_reported ?_
  rw [holdRule_reached types force (form e) forced, grants, grant_eq, idleDue_placed_hear, placed_input, placed_now, hear_now]
  exact holdAnswer_of (q := (heldSlot e (s.idleDue i) s.now (s.slot i)).input)
    (by rw [notify_slot, modSlot_slot_same, placed_slot, hear_slot])

/-- A form that refuses, with what the slot holds. -/
theorem hold_refused (types : Types h e i s) {force : Bool} {form : StationId → SlotId → State → Answer}
    (forced : force = true → (s.station e).rights.force = true) {st : Status}
    (refuses : form e i (placed h .consoleHold (hear e h.port s)) =
      holdAnswer i st (placed h .consoleHold (hear e h.port s))) :
    request h .consoleHold (fun e s => holdRule h true force e (form e) s) s =
      replied h .consoleHold st (.hold (s.slot i).input.holder (s.slot i).input.count (s.slot i).input.idleDue)
        (hear e h.port s) := by
  refine request_replied types.1 rfl ?_
  rw [holdRule_reached types force (form e) forced, refuses]
  exact holdAnswer_of (placed_input _)

/-- A form that arms the idle deadline anew. -/
theorem hold_renewed (types : Types h e i s) (holds : (s.slot i).input.holder = some e) {force : Bool}
    {form : StationId → SlotId → State → Answer} (forced : force = true → (s.station e).rights.force = true)
    (renews : form e i (placed h .consoleHold (hear e h.port s)) =
      holdAnswer i .ok (renew i (placed h .consoleHold (hear e h.port s)))) :
    request h .consoleHold (fun e s => holdRule h true force e (form e) s) s =
      replied h .consoleHold .ok (.hold (some e) (s.slot i).input.count (some (s.idleDue i)))
        ((hear e h.port s).modSlot i fun x => { x with input := { x.input with idleDue := some (s.idleDue i) } }) := by
  refine request_leaves types.1 rfl ?_ modSlot_port
  rw [holdRule_reached types force (form e) forced, renews, renew, idleDue_placed_hear, placed_modSlot, ← holds]
  exact holdAnswer_of (q := { (s.slot i).input with idleDue := some (s.idleDue i) })
    (by unfold modInput; rw [modSlot_slot_same, placed_slot, hear_slot])

/-- RENEW, and RELEASE by another entry (R50, R51). -/
def heldForm (e : StationId) (held : SlotId → State → State) (i : SlotId) (s : State) : Answer :=
  if (s.slot i).input.holder = some e then holdAnswer i .ok (held i s) else holdAnswer i .state s

/-- Settles O22: who holds the slot decides each form. -/
theorem holdDecided : Obligations.HoldDecided := by
  unfold Obligations.HoldDecided
  intro h e i s types
  have input := placed_input (s := s) (i := i) (h := h) (e := e) .consoleHold
  dsimp only
  refine ⟨fun free => ?_, fun other right => ?_, fun holds cmd which => ?_, fun other cmd which => ?_,
    fun e' holder other => ?_⟩
  · refine congrArg Host.Outcome.next (hold_granted (force := false) (form := takeForm) types unforced ?_)
    simp only [takeForm, input, free]
  · refine congrArg Host.Outcome.next (hold_granted (form := forceForm) types (fun _ => right) ?_)
    simp only [forceForm, input, other, if_false]
  · have renewed : cmd = .consoleHoldRenew h ∨ cmd = .consoleHoldTake h ∨
        (s.station e).rights.force = true ∧ cmd = .consoleHoldForce h := by
      cases right : (s.station e).rights.force <;> simpa [right] using which
    rcases renewed with rfl | rfl | ⟨right, rfl⟩
    · refine congrArg Host.Outcome.next (hold_renewed (force := false) (form := (heldForm · renew)) types holds unforced ?_)
      simp only [heldForm, input, holds, if_true]
    · refine congrArg Host.Outcome.next (hold_renewed (force := false) (form := takeForm) types holds unforced ?_)
      simp only [takeForm, input, holds, if_true]
    · refine congrArg Host.Outcome.next (hold_renewed (form := forceForm) types holds (fun _ => right) ?_)
      simp only [forceForm, input, holds, if_true]
  · rw [List.mem_pair] at which
    rcases which with rfl | rfl
    · refine congrArg Host.Outcome.next (hold_refused (force := false) (form := (heldForm · renew)) types unforced ?_)
      simp only [heldForm, input, other, if_false]
    · refine congrArg Host.Outcome.next
        (hold_refused (force := false) (form := (heldForm · (endHold · .release))) types unforced ?_)
      simp only [heldForm, input, other, if_false]
  · refine congrArg Host.Outcome.next (hold_refused (force := false) (form := takeForm) types unforced ?_)
    simp only [takeForm, input, holder, other, if_false]

/-- Settles O23: the end of a holding, behind the reply of its RELEASE or alone. -/
theorem holdEnded : Obligations.HoldEnded := by
  unfold Obligations.HoldEnded
  intro i s
  refine ⟨fun h e types holds => congrArg Host.Outcome.next ?_, fun e due holds armed late =>
    congrArg Host.Outcome.next ?_⟩
  · refine request_behind types.1 rfl behind_reported ?_
    rw [holdRule_reached types false _ unforced, placed_input, if_pos holds, endHold_eq, placed_input, holds, placed_now,
      hear_now]
    exact holdAnswer_of (q := (holdingEnded s.now (s.slot i)).input)
      (by rw [notify_slot, modSlot_slot_same, placed_slot, hear_slot])
  · rw [if_pos (by simp [holds, armed, expired, late]), endHold_eq, holds]

/-! ## Typing (R54 to R56) -/

theorem renew_eq : renew i s = s.modSlot i fun x => { x with
    input := { x.input with idleDue := some (s.idleDue i) } } := rfl

theorem appendItems_eq {xs : List InputItem} : appendItems i xs s =
    s.modSlot i fun x => { x with input := joined (s.console i) s xs x.input } := by
  unfold appendItems modInput
  dsimp only
  rw [takeHead_eq, modSlot_slot_same, modSlot_modSlot]
  split_ifs with idle
  · refine modSlot_congr ?_
    simp only [joined, if_pos (show (s.slot i).input.tx = .idle from idle)]
    rcases (s.slot i).input.items ++ xs with _ | ⟨_ | _, rest⟩ <;> rfl
  · exact modSlot_congr (by simp only [joined, if_neg (show ¬(s.slot i).input.tx = .idle from idle)])

/-- What joins the queue is timed by bridge time alone. -/
theorem joined_of_now {c : ConsoleSetup} {t : State} (now : t.now = s.now) {xs : List InputItem} {q : InputQueue} :
    joined c t xs q = joined c s xs q := by
  have after : ∀ d, t.after d = s.after d := fun d => by rw [State.after, State.after, now]
  unfold joined afterItem
  simp only [after]

@[simp] theorem joined_count {c : ConsoleSetup} {xs : List InputItem} {q : InputQueue} :
    (joined c s xs q).count = q.count := by
  unfold joined afterItem
  split_ifs
  · split <;> rfl
  · rfl

section

variable {k : MsgKind} {quote : BitVec 32} {denied held stale : ReplyData} {take : SlotId → State → Answer}

/-- The slot with another Input Queue. -/
def inputInto (i : SlotId) (q : InputQueue) (s : State) : State := s.modSlot i fun x => { x with input := q }

theorem placed_inputInto {q : InputQueue} : placed h k (inputInto i q s) = inputInto i q (placed h k s) :=
  placed_modSlot

theorem inputInto_slot {q : InputQueue} : ((inputInto i q s).slot i).input = q := by
  rw [inputInto, modSlot_slot_same]

theorem renew_placed_hear : renew i (placed h k (hear e h.port s)) =
    inputInto i { (s.slot i).input with idleDue := some (s.idleDue i) } (placed h k (hear e h.port s)) := by
  rw [renew_eq, idleDue_placed_hear]
  exact modSlot_congr (by rw [placed_slot, hear_slot])

theorem typing_denied (typed : s.holdsOn e (·.type) i = false) :
    typingRule e quote denied held stale take i s = ((.denied, denied), s) := by
  simp only [typingRule, typed, Bool.not_false, if_true]

variable (typed : s.holdsOn e (·.type) i = true)

include typed

theorem typing_other (other : (s.slot i).input.holder ≠ some e) :
    typingRule e quote denied held stale take i s = ((.state, held), s) := by
  unfold typingRule
  rw [if_neg (by simp [typed]), if_pos other]

theorem typing_holder (holds : (s.slot i).input.holder = some e) :
    typingRule e quote denied held stale take i s =
      if quote ≠ (s.slot i).input.count then ((.stale, stale), renew i s) else take i (renew i s) := by
  unfold typingRule
  dsimp only
  rw [if_neg (by simp [typed]), if_neg (not_not.mpr holds), renew_eq, modSlot_slot_same]

end

/-- A CONSOLE_WRITE that is taken, with the idle deadline armed anew (R55). -/
theorem takeWrite_eq {bytes : List Byte} {q : InputQueue} {n : Nat} (count : n = min bytes.length (256 - q.items.length)) :
    takeWrite bytes i (inputInto i q s) =
      ((.ok, writeData n (joined (s.console i) s ((bytes.take n).map .byte)
          { q with count := q.count + BitVec.ofNat 32 n })),
        inputInto i (joined (s.console i) s ((bytes.take n).map .byte)
          { q with count := q.count + BitVec.ofNat 32 n }) s) := by
  subst count
  unfold takeWrite modInput
  simp only [appendItems_eq, inputInto_slot, freeSpace]
  simp only [inputInto, modSlot_modSlot, modSlot_slot_same]
  rfl

/-- A CONSOLE_BREAK that finds free space (R56). -/
theorem takeBreak_eq {duration : BitVec 16} {q : InputQueue} (space : q.items.length < 256) :
    takeBreak duration i (inputInto i q s) =
      ((.ok, brkData (clamp 10 2000 duration.toNat)
          (joined (s.console i) s [.brk (clamp 10 2000 duration.toNat)] q)),
        inputInto i (joined (s.console i) s [.brk (clamp 10 2000 duration.toNat)] q) s) := by
  unfold takeBreak
  simp only [appendItems_eq, inputInto_slot, freeSpace]
  rw [if_neg (by omega)]
  simp only [inputInto, modSlot_modSlot, modSlot_slot_same]
  rfl

theorem takeBreak_full {duration : BitVec 16} {q : InputQueue} (full : 256 ≤ q.items.length) :
    takeBreak duration i (inputInto i q s) = refuse .full (inputInto i q s) := by
  unfold takeBreak
  simp only [inputInto_slot, freeSpace]
  rw [if_pos (by omega)]

/-- Settles O24: the tests of R54 in order, and then the free space. -/
theorem inputQueued : Obligations.InputQueued := by
  unfold Obligations.InputQueued
  intro h e i quote s taken slot
  obtain ⟨-, -, -, -, exactBody⟩ := id taken
  have typing := fun k => holdsOn_placed_hear h k e (·.type) i s
  have console : ∀ k, (placed h k (hear e h.port s)).console i = s.console i := fun k => by simp [State.console]
  have joins : ∀ k c xs q, joined c (placed h k (hear e h.port s)) xs q = joined c s xs q :=
    fun k c xs q => joined_of_now (by simp)
  have renewed : ((hear e h.port s).modSlot i fun x => { x with
      input := { x.input with idleDue := some (s.idleDue i) } }) =
      inputInto i { (s.slot i).input with idleDue := some (s.idleDue i) } (hear e h.port s) :=
    modSlot_congr (by rw [hear_slot])
  dsimp only
  rw [renewed]
  refine ⟨fun count bytes => ⟨fun bad => ?_, fun least most same => ?_⟩, fun duration => ?_⟩
  · refine congrArg Host.Outcome.next (request_replied taken rfl ?_)
    rw [onSlot_named slot]
    dsimp only
    rw [placed_input, if_pos (by tauto)]
    rfl
  · have good : ¬(count = 0 ∨ 512 < count.toNat ∨ count.toNat ≠ bytes.length ∨ h.bodyExact = false) := by
      rintro (rfl | big | other | short)
      · exact absurd least (by decide)
      · omega
      · exact other same
      · exact absurd exactBody (by simp [short])
    have rule : ∀ {st d t}, (typingRule e quote (writeData 0 (s.slot i).input)
          (.writeHeld 0 (s.slot i).input.count (freeSpace (s.slot i).input) (s.slot i).input.holder)
          (writeData 0 (s.slot i).input) (takeWrite bytes) i (placed h .consoleWrite (hear e h.port s)) =
            ((st, d), placed h .consoleWrite t)) → t.port h.port = (hear e h.port s).port h.port →
        exec (.consoleWrite h quote count bytes) s = .next (replied h .consoleWrite st d t) := by
      intro st d t answers port
      refine congrArg Host.Outcome.next (request_leaves taken rfl ?_ port)
      rw [onSlot_named slot]
      dsimp only
      rw [placed_input, if_neg good, answers]
    refine ⟨fun denied => rule (typing_denied ((typing _).trans denied)) rfl, fun typed other => ?_,
      fun typed holds stale => ?_, fun typed holds quoted => ?_⟩
    · exact rule (typing_other ((typing _).trans typed) (by rw [placed_input]; exact other)) rfl
    · refine rule ?_ modSlot_port
      rw [typing_holder ((typing _).trans typed) (by rw [placed_input]; exact holds), placed_input, if_pos stale,
        renew_placed_hear]
      exact congrArg (Prod.mk _) placed_inputInto.symm
    · refine rule ?_ modSlot_port
      rw [typing_holder ((typing _).trans typed) (by rw [placed_input]; exact holds), placed_input,
        if_neg (not_not.mpr quoted), renew_placed_hear, takeWrite_eq rfl, console, joins, writeData,
        joined_count]
      exact congrArg (Prod.mk _) placed_inputInto.symm
  · have rule : ∀ {st d t}, (typingRule e quote .none (.brkHeld (s.slot i).input.holder)
          (.brkStale (s.slot i).input.count (freeSpace (s.slot i).input)) (takeBreak duration) i
            (placed h .consoleBreak (hear e h.port s)) = ((st, d), placed h .consoleBreak t)) →
          t.port h.port = (hear e h.port s).port h.port →
        exec (.consoleBreak h quote duration) s = .next (replied h .consoleBreak st d t) := by
      intro st d t answers port
      refine congrArg Host.Outcome.next (request_leaves taken rfl ?_ port)
      rw [onSlot_named slot]
      dsimp only
      rw [exactBody, placed_input, ← answers]
      rfl
    refine ⟨fun denied => rule (typing_denied ((typing _).trans denied)) rfl, fun typed other => ?_,
      fun typed holds stale => ?_, fun typed holds quoted => ⟨fun space => ?_, fun full => ?_⟩⟩
    · exact rule (typing_other ((typing _).trans typed) (by rw [placed_input]; exact other)) rfl
    · refine rule ?_ modSlot_port
      rw [typing_holder ((typing _).trans typed) (by rw [placed_input]; exact holds), placed_input, if_pos stale,
        renew_placed_hear]
      exact congrArg (Prod.mk _) placed_inputInto.symm
    · refine rule ?_ modSlot_port
      rw [typing_holder ((typing _).trans typed) (by rw [placed_input]; exact holds), placed_input,
        if_neg (not_not.mpr quoted), renew_placed_hear,
        takeBreak_eq (q := { (s.slot i).input with idleDue := some (s.idleDue i) }) space,
        console, joins, brkData, joined_count]
      exact congrArg (Prod.mk _) placed_inputInto.symm
    · refine rule ?_ modSlot_port
      rw [typing_holder ((typing _).trans typed) (by rw [placed_input]; exact holds), placed_input,
        if_neg (not_not.mpr quoted), renew_placed_hear,
        takeBreak_full (q := { (s.slot i).input with idleDue := some (s.idleDue i) }) full]
      exact congrArg (Prod.mk _) placed_inputInto.symm

end Sys2Proof.Machine
end

section
/-! PROOFS. The boot observation and the moves of RST_OUT as the changes they make (R8, R9, R10, R79, R144). -/

namespace Sys2Proof.Machine

open Sys2Proof

variable {s : State} {i : SlotId}

/-! ## The boot observation (R9, R10) -/

theorem notify_setup {o : Option SlotId} {b : NoticeBody} {j : SlotId} : (s.notify o b).setup j = s.setup j := by
  rw [State.setup, notify_tables, State.setup]

theorem notify_console {o : Option SlotId} {b : NoticeBody} {j : SlotId} : (s.notify o b).console j = s.console j := by
  rw [State.console, notify_tables, State.console]

theorem bootedRecord_eq (r : SlotRecord) : bootedRecord r = booted r := rfl

theorem recordBoot_eq {before : Power} : recordBoot i before s =
    (s.modSlot i fun x => { x with
      record := booted x.record
      hist := postTo x.hist s.now (.boot (booted x.record).bootCount (booted x.record).lastCause) }).notify (some i)
        (.powerChanged before (s.slot i).record.observed true (booted (s.slot i).record).bootCount
          (booted (s.slot i).record).lastCause) := by
  have observed : ∀ r : SlotRecord, (booted r).observed = r.observed := fun _ => rfl
  unfold recordBoot State.post
  simp only [modSlot_slot_same, modSlot_modSlot, bootedRecord_eq, observed]
  exact congrArg (State.notify · _ _) (modSlot_congr rfl)

theorem flushInput_eq : flushInput i s = s.modSlot i fun x => { x with
    input := if (s.console i).flushOnBoot then { x.input with items := [] } else x.input
    counters := if (s.console i).flushOnBoot then
        { x.counters with flushed := bumpBy x.input.items.length x.counters.flushed }
      else x.counters } := by
  unfold flushInput
  split_ifs
  · rw [State.count, modSlot_modSlot]
    exact modSlot_congr rfl
  · exact (modSlot_self rfl).symm

theorem resetMatcher_eq : resetMatcher i s = s.modSlot i fun x => { x with
    matcher := if (s.setup i).resetOnBoot then { x.matcher with state := (s.setup i).startState } else x.matcher } := by
  unfold resetMatcher
  split_ifs
  · rfl
  · exact (modSlot_self rfl).symm

/-- What a boot observation of slot `i` leaves before the boots-left rule. -/
def bootSeen (i : SlotId) (before : Power) (s : State) : State :=
  bootNotice i before (s.slot i).record (s.modSlot i (bootedSlot i s))

theorem bootWith_eq (on : (s.slot i).record.observed = .on) (eject : UnitId → EjectReason → State → State)
    (meet : SlotId → State → State) (before : Power) :
    bootWith eject meet i before s = meet i (bootsLeft eject i (bootSeen i before s)) := by
  have seen : restartSilence i (resetMatcher i (flushInput i (recordBoot i before s))) = bootSeen i before s := by
    rw [recordBoot_eq, flushInput_eq, notify_console, modSlot_notify, resetMatcher_eq, notify_setup, modSlot_notify,
      restartSilence,
      modSlot_notify, modSlot_modSlot, modSlot_modSlot, modSlot_modSlot, on]
    rfl
  rw [bootWith, seen]

/-! ## The boots-left rule (R144) -/

section

variable {eject : UnitId → EjectReason → State → State} {t : State}

/-- The boots-left rule reads the binding, the unit and its setup. -/
structure SameUnits (s t : State) : Prop where
  units : t.units = s.units
  tables : t.tables = s.tables

theorem SameUnits.unit (h : SameUnits s t) (u : UnitId) : t.unit u = s.unit u := congrArg (·[u]) h.units

theorem SameUnits.unitOf (h : SameUnits s t) (j : SlotId) : t.unitOf j = s.unitOf j := by
  simp only [State.unitOf, h.unit]

theorem SameUnits.unitSetup (h : SameUnits s t) (u : UnitId) : t.unitSetup u = s.unitSetup u := by
  simp only [State.unitSetup, h.tables]

theorem SameUnits.bootsFree (h : SameUnits s t) (free : BootsFree i s) : BootsFree i t := by
  intro u bound presents
  rw [h.unitSetup]
  exact free u (h.unitOf i ▸ bound) (h.unit u ▸ presents)

theorem sameUnits_bootSeen (before : Power) : SameUnits s (bootSeen i before s) :=
  ⟨by simp [bootSeen, bootNotice], by simp [bootSeen, bootNotice]⟩

theorem bootsLeft_free (free : BootsFree i s) : bootsLeft eject i s = s := by
  unfold bootsLeft
  split
  · rfl
  · next u bound => exact if_neg fun h => h.2 (free u bound h.1)

theorem bootsLeft_counts {u : UnitId} (bound : s.unitOf i = some u) (presents : (s.unit u).state = .presenting)
    (counts : (s.unitSetup u).presentBoots ≠ 0) : bootsLeft eject i s =
      if (s.unit u).bootsLeft = 0 then eject u .bootsUsed s
      else s.modUnit u fun m => { m with bootsLeft := m.bootsLeft - 1 } := by
  unfold bootsLeft
  rw [bound]
  exact if_pos ⟨presents, counts⟩

theorem bootWith_free (on : (s.slot i).record.observed = .on) (free : BootsFree i s)
    (meet : SlotId → State → State) (before : Power) :
    bootWith eject meet i before s = meet i (bootSeen i before s) := by
  rw [bootWith_eq on, bootsLeft_free ((sameUnits_bootSeen before).bootsFree free)]

theorem bootInStep_free (on : (s.slot i).record.observed = .on) (free : BootsFree i s) (before : Power) :
    bootInStep i before s = bootSeen i before s := bootWith_free on free _ before

/-- A boot observation that no sequence hears. -/
theorem observeBoot_free (on : (s.slot i).record.observed = .on) (free : BootsFree i s) (quiet : Quiet i s)
    (before : Power) : observeBoot i before s = bootSeen i before s := by
  rw [observeBoot, bootWith_free on free, meetHigh, if_neg]
  have seq : ((bootSeen i before s).slot i).seq = (s.slot i).seq := by
    rw [bootSeen, bootNotice, notify_slot, modSlot_slot_same]
    rfl
  unfold State.currentIs
  rw [seq]
  split
  · have idle : (s.slot i).seq.state ≠ .stepping := fun e => by simp [Quiet, e, seqBusy] at quiet
    simp [idle]
  · exact Bool.false_ne_true

end

/-! ## Moves of RST_OUT (R8, R79) -/

section

variable {boot : SlotId → Power → State → State} {f : Lines → Lines}

/-- RST_OUT is asserted: the reset-while-on flag of a slot that is ON is set (R8). -/
theorem setClaims_asserts (before : rstAsserted (s.slot i).lines = false)
    (after : rstAsserted (f (s.slot i).lines) = true) : setClaims boot f i s = s.modSlot i fun x => { x with
      lines := f x.lines
      record := { x.record with
        resetWhileOn := if x.record.observed = .on then true else x.record.resetWhileOn } } := by
  unfold setClaims rstAssertedNow
  simp only [modSlot_slot_same, before, after, Bool.not_false, Bool.and_self, if_true, modSlot_modSlot]
  split_ifs with on
  · exact modSlot_congr (by simp only [if_pos on])
  · exact modSlot_congr (by simp only [if_neg on])

/-- The slot whose last claim on RST_OUT has been withdrawn. -/
def rstCleared (f : Lines → Lines) (x : Slot) : Slot :=
  { x with lines := f x.lines, record := { x.record with resetWhileOn := false } }

/-- RST_OUT is released: with the slot ON and the flag set that is a boot observation (R8). -/
theorem setClaims_releases (before : rstAsserted (s.slot i).lines = true)
    (after : rstAsserted (f (s.slot i).lines) = false) : setClaims boot f i s =
      if (s.slot i).record.observed = .on ∧ (s.slot i).record.resetWhileOn = true then
        boot i .on (s.modSlot i (rstCleared f))
      else s.modSlot i (rstCleared f) := by
  unfold setClaims rstReleasedNow
  simp only [modSlot_slot_same, before, after, Bool.not_true, Bool.and_self, Bool.not_false, if_true, modSlot_modSlot,
    Bool.false_eq_true, if_false]
  rfl

theorem bootSeen_cleared : bootSeen i .on (s.modSlot i (rstCleared f)) =
    bootNotice i .on (s.slot i).record (s.modSlot i fun x => bootedSlot i s (rstCleared f x)) := by
  unfold bootSeen
  rw [modSlot_modSlot, modSlot_slot_same]
  rfl

theorem bootsFree_modSlot {g : Slot → Slot} (free : BootsFree i s) : BootsFree i (s.modSlot i g) := free

end

/-- A sequence withdraws the only claim on RST_OUT. -/
theorem setClaims_rstReleased (seq : (s.slot i).lines.rstSeq = true) (loc : (s.slot i).lines.rstLocal = false)
    (free : BootsFree i s) :
    setClaims bootInStep (fun l => { l with rstSeq := false }) i s = rstReleased i s := by
  rw [setClaims_releases (by simp [rstAsserted, seq]) (by simp [rstAsserted, loc])]
  unfold rstReleased
  dsimp only
  split_ifs with boots
  · rw [bootInStep_free ?_ (bootsFree_modSlot free), bootSeen_cleared]
    · rfl
    · rw [modSlot_slot_same]; exact boots.1
  · rfl

/-! ## Slots that an eject leaves alone (R141, R142) -/

theorem invalidate_frame {u : UnitId} : FetchMove (fun _ => True) s (invalidate u s) :=
  invalidate_move fun _ _ => trivial

theorem detach_slots {u : UnitId} : (detach u s).slots = s.slots := by
  simp [detach, mediaNotice, invalidate_frame.slots]

theorem ejectEnd_slots {u : UnitId} : (ejectEnd u s).slots = s.slots := by
  unfold ejectEnd
  split_ifs
  · rfl
  · exact detach_slots

theorem endRequester_frame {u : UnitId} {prime : Bool} {images : List Nat} :
    FetchMove (fun _ => True) s (endRequester u prime images s) := endRequester_move

theorem ejectStart_slots {u : UnitId} {why : EjectReason} : (ejectStart u why s).slots = s.slots := by
  unfold ejectStart mediaNotice
  dsimp only
  rw [notify_slots]
  split_ifs
  · exact (endRequester_frame (prime := true)).slots
  · rfl

end Sys2Proof.Machine
end

section
/-! PROOFS. The edges and the presses of the buttons and of the power-good line (chapter 5). -/

namespace Sys2Proof.Machine

open Sys2Proof

variable {s : State} {i : SlotId} {b : Button}

/-! ## Buttons as changes of the slot -/

theorem modBtn_eq {f : Classifier → Classifier} :
    modBtn i b f s = s.modSlot i fun x => withButton b (f (btnOf x b)) x.log x := by
  cases b <;> rfl

theorem countBtn_eq {f : ButtonCounters → ButtonCounters} : countBtn i b f s = s.modSlot i (countedAt b f) := by
  cases b <;> rfl

@[simp] theorem btnOf_withButton {c : Classifier} {l : LineLog} {x : Slot} : btnOf (withButton b c l x) b = c := by
  cases b <;> rfl

theorem setClass_eq {st : ClassState} : setClass i b st s = s.modSlot i (inClass b st) := modBtn_eq

theorem logEdge_modBtn {f : Classifier → Classifier} {assert : Bool} :
    logEdge i (lineOf b) assert (modBtn i b f s) =
      s.modSlot i fun x => withButton b (f (btnOf x b)) (captureEdge (lineOf b) assert s.now x.log) x := by
  unfold logEdge
  rw [modBtn_eq, modSlot_modSlot]
  cases b <;> rfl

/-- The slot whose button input has been released. -/
def edgeSlot (b : Button) (now : Time) (x : Slot) : Slot :=
  withButton b { btnOf x b with pressed := false, seen := true } (captureEdge (lineOf b) false now x.log) x

theorem exec_release (held : (btnOf (s.slot i) b).pressed = true) : exec (.buttonReleaseEdge i b) s =
    .next (setClass i b .released (endPress i b (btnOf (s.slot i) b).state (s.modSlot i (edgeSlot b s.now)))) := by
  refine congrArg Host.Outcome.next ?_
  rw [if_pos held]
  dsimp only
  rw [logEdge_modBtn]
  rfl

/-- Settles O26: by what the edge finds. -/
theorem edgesTaken : Obligations.EdgesTaken := by
  unfold Obligations.EdgesTaken
  intro i s
  refine ⟨fun high => ⟨fun moved differs armed => ?_, fun moved agrees armed => ?_, fun same => ?_⟩,
    fun b => ⟨fun free seen state => ?_, fun p held state => ?_, fun held state => ?_⟩⟩
  · refine congrArg Host.Outcome.next ?_
    have raw : (modPg i (fun g => { g with pin := high }) s).pgRaw i = (high == (s.setup i).pgHigh) := by
      unfold State.pgRaw modPg
      rw [modSlot_slot_same]
      rfl
    rw [if_neg moved]
    dsimp only
    rw [raw]
    unfold modPg
    rw [modSlot_slot_same, if_neg differs, armed, if_neg (by decide), modSlot_modSlot]
    rfl
  · refine congrArg Host.Outcome.next ?_
    have raw : (modPg i (fun g => { g with pin := high }) s).pgRaw i = (high == (s.setup i).pgHigh) := by
      unfold State.pgRaw modPg
      rw [modSlot_slot_same]
      rfl
    rw [if_neg moved]
    dsimp only
    rw [raw]
    unfold modPg State.count
    rw [modSlot_slot_same, if_pos agrees, if_pos (Option.isSome_iff_ne_none.mpr armed), modSlot_modSlot,
      modSlot_modSlot]
  · exact congrArg Host.Outcome.next (if_pos same)
  · refine congrArg Host.Outcome.next ?_
    rw [free, if_neg Bool.false_ne_true]
    dsimp only
    rw [logEdge_modBtn, modSlot_slot_same, btnOf_withButton, if_pos ⟨state, seen⟩, setClass_eq, modSlot_modSlot]
    refine modSlot_congr ?_
    cases b <;> simp only [inClass, withButton, btnOf, newPress] at seen ⊢ <;> rw [seen] <;> rfl
  · rw [exec_release held, state]
    refine congrArg Host.Outcome.next ?_
    simp only [endPress, countBtn_eq, setClass_eq, modSlot_modSlot]
    refine modSlot_congr ?_
    cases b <;> rfl
  · rw [exec_release held, state]
    refine congrArg Host.Outcome.next ?_
    simp only [endPress, setClass_eq, modSlot_modSlot]
    refine modSlot_congr ?_
    cases b <;> rfl

/-! ## The decision at the glitch deadline (R87) -/

theorem blockReason_none (pass : (s.setup i).panel = .pass) (idle : seqBusy (s.slot i).seq.state = false)
    (enabled : outputEnabled (s.setup i) b = true) : blockReason s i b = none := by
  simp [blockReason, pass, idle, enabled]

theorem blockReason_some (blocked : (s.setup i).panel = .block ∨ seqBusy (s.slot i).seq.state = true ∨
    outputEnabled (s.setup i) b = false) : blockReason s i b =
      some (if (s.setup i).panel = .block then .mode else if seqBusy (s.slot i).seq.state then .sequence
        else .disabled) := by
  unfold blockReason
  split_ifs with mode busy enabled
  · rfl
  · rfl
  · rfl
  · simp [mode, busy] at blocked
    simp [blocked] at enabled

theorem exec_glitch {p : Press} (due : reached p.glitchDue s.now = true) (pending : (btnOf (s.slot i) b).state = .pending p) :
    exec (.glitchDeadline i b) s = .next (decidePress i b p s) := by
  refine congrArg Host.Outcome.next ?_
  rw [pending]
  exact if_pos due

/-- Settles O27: by the first test that blocks the press. -/
theorem pressDecided : Obligations.PressDecided := by
  unfold Obligations.PressDecided
  intro i b p s due pending
  rw [exec_glitch due pending]
  dsimp only
  refine ⟨fun pass idle enabled => ⟨?_, ?_⟩, fun r why blocked => ?_⟩
  · rintro rfl
    refine congrArg Host.Outcome.next ?_
    unfold decidePress
    rw [blockReason_none (b := .pwr) pass idle enabled]
    simp only [setLocal, setClaims_pwrLocal, setClass_eq, countBtn_eq, setPending, modSlot_modSlot]
    rfl
  · rintro rfl free
    refine congrArg Host.Outcome.next ?_
    unfold decidePress
    rw [blockReason_none (b := .rst) pass idle enabled]
    simp only [setLocal, setClass_eq, countBtn_eq, setPending]
    rw [setClaims_asserts (by rw [modSlot_slot_same]; exact free) (by rw [modSlot_slot_same]; simp [rstAsserted])]
    simp only [modSlot_modSlot]
    rfl
  · refine congrArg Host.Outcome.next ?_
    unfold decidePress
    rw [blockReason_some (by cases b <;> exact blocked), ← why]
    simp only [pressNotice, setClass_eq, countBtn_eq, modSlot_notify, modSlot_modSlot]
    rfl

/-! ## The end of a press (R88 to R91) -/

theorem exec_stuck_passing {p : Press} (due : reached p.stuckDue s.now = true)
    (passing : (btnOf (s.slot i) b).state = .passing p) : exec (.stuckDeadline i b) s =
      .next (reportStuck i b p none (setLocal i b false (setClass i b (.stuck p none) s))) := by
  refine congrArg Host.Outcome.next ?_
  rw [passing]
  exact if_pos due

theorem exec_stuck_blocked {p : Press} {r : BlockReason} (due : reached p.stuckDue s.now = true)
    (blocked : (btnOf (s.slot i) b).state = .blocked p r) : exec (.stuckDeadline i b) s =
      .next (reportStuck i b p (some r) (setClass i b (.stuck p (some r)) s)) := by
  refine congrArg Host.Outcome.next ?_
  rw [blocked]
  exact if_pos due

theorem eventOf_ite {c : Prop} [Decidable c] :
    eventOf (if c then PressClass.tap else .hold) = if c then .tap else .hold := by split_ifs <;> rfl

theorem eventOf_pressClass {p : Press} {w : BitVec 32} :
    eventOf (pressClass p w) = if decide (w.toNat < p.limits.hold) = true then .tap else .hold := by
  unfold pressClass
  by_cases h : w.toNat < p.limits.hold <;> simp [h, eventOf]

theorem pressClass_eq {p : Press} {w : BitVec 32} :
    pressClass p w = if decide (w.toNat < p.limits.hold) = true then .tap else .hold := by
  unfold pressClass
  by_cases h : w.toNat < p.limits.hold <;> simp [h]

/-- The local claim on RST_OUT is withdrawn. -/
theorem setLocal_released (loc : (s.slot i).lines.rstLocal = true) (seq : (s.slot i).lines.rstSeq = false) :
    setLocal i .rst false s =
      if (s.slot i).record.observed = .on ∧ (s.slot i).record.resetWhileOn = true then
        observeBoot i .on (s.modSlot i (rstCleared fun l => { l with rstLocal := false }))
      else s.modSlot i (rstCleared fun l => { l with rstLocal := false }) :=
  setClaims_releases (by simp [rstAsserted, loc]) (by simp [rstAsserted, seq])

/-- A press that has become STUCK is reported (R90). -/
theorem reportStuck_eq {p : Press} {r : Option BlockReason} : reportStuck i b p r s =
    (s.modSlot i fun x => countedAt b (fun k => { k with stuck := bump k.stuck })
      { x with hist := postTo x.hist s.now (.localPress b .stuck) }).notify (some i)
        (.localPress b .stuck (decide (r = none)) r none p.time) := by
  have passed : r.isNone = decide (r = none) := by cases r <;> rfl
  simp only [reportStuck, pressNotice, countBtn_eq, State.post, modSlot_notify, modSlot_modSlot, passed]


theorem ejectStart_slot {u v : UnitId} {why : EjectReason} : ((ejectStart u why s).unit v).slot = (s.unit v).slot := by
  have started : ∀ f : MediaUnit → MediaUnit, (∀ m, (f m).slot = m.slot) →
      ((s.modUnit u f).unit v).slot = (s.unit v).slot := fun f h => by
    rw [modUnit_unit]
    split_ifs
    · exact h _
    · rfl
  unfold ejectStart mediaNotice
  dsimp only
  rw [notify_unit]
  split_ifs
  · rw [modUnit_unit]
    split_ifs with e
    · subst e
      exact ((endRequester_frame (prime := true)).units _).slot.trans (started _ fun _ => rfl)
    · exact ((endRequester_frame (prime := true)).units _).slot.trans (started _ fun _ => rfl)
  · exact started _ fun _ => rfl

theorem gateReport_idle {primed : Bool} (h : (s.slot i).seq.state ≠ .waitGate) : gateReport i primed s = s :=
  if_neg h

/-- An eject of the unit of a slot that waits in no GATE leaves the slots alone. -/
theorem eject_slots {u : UnitId} {why : EjectReason} (bound : (s.unit u).slot = some i)
    (h : (s.slot i).seq.state ≠ .waitGate) : (eject u why s).slots = s.slots := by
  have slots := ejectStart_slots (s := s) (u := u) (why := why)
  unfold eject
  dsimp only
  rw [ejectEnd_slots, ejectStart_slot, bound]
  dsimp only
  rw [gateReport_idle (by rw [State.slot, slots]; exact h), slots]

theorem bootsLeft_slots (quiet : Quiet i s) : (bootsLeft eject i s).slots = s.slots := by
  unfold bootsLeft
  split
  · rfl
  · next u bound =>
    dsimp only
    split_ifs
    · exact eject_slots (unitOf_eq_some bound) fun e => by simp [Quiet, e, seqBusy] at quiet
    · rfl
    · rfl

theorem meetHigh_quiet (quiet : Quiet i s) : meetHigh i s = s := by
  refine if_neg ?_
  unfold State.currentIs
  split
  · have idle : (s.slot i).seq.state ≠ .stepping := fun e => by simp [Quiet, e, seqBusy] at quiet
    simp [idle]
  · exact Bool.false_ne_true

theorem quiet_of_slots {t : State} (slots : t.slots = s.slots) (quiet : Quiet i s) : Quiet i t := by
  unfold Quiet State.slot
  rw [slots]
  exact quiet

theorem quiet_bootSeen {before : Power} (quiet : Quiet i s) : Quiet i (bootSeen i before s) := by
  unfold Quiet bootSeen bootNotice
  rw [notify_slot, modSlot_slot_same]
  exact quiet

/-- A boot observation that no sequence hears changes its slot as the blocks of the slot do, whatever becomes of
the bound unit. -/
theorem observeBoot_slots (on : (s.slot i).record.observed = .on) (quiet : Quiet i s) (before : Power) :
    (observeBoot i before s).slots = (s.modSlot i (bootedSlot i s)).slots := by
  have left := bootsLeft_slots (quiet_bootSeen (before := before) quiet)
  rw [observeBoot, bootWith_eq on, meetHigh_quiet (quiet_of_slots left (quiet_bootSeen quiet)), left]
  exact notify_slots

/-! ## The end of a passed press of RST_IN (R8, R88, R90) -/

section

variable {p : Press} (loc : (s.slot i).lines.rstLocal = true) (seq : (s.slot i).lines.rstSeq = false)
  (passing : (btnOf (s.slot i) .rst).state = .passing p)

/-- The slot whose local claim on RST_OUT has been withdrawn. -/
def localReleased : Slot → Slot := rstCleared fun l => { l with rstLocal := false }

/-- What the withdrawal of the local claim leaves of a slot: a boot observation may follow it. -/
def localWithdrawn (i : SlotId) (f : Slot → Slot) (s : State) : State :=
  if (s.slot i).record.observed = .on ∧ (s.slot i).record.resetWhileOn = true then
    observeBoot i .on (s.modSlot i fun x => localReleased (f x))
  else s.modSlot i fun x => localReleased (f x)

/-- A change of a slot that touches neither its record, nor its lines, nor its sequence. -/
structure OffLines (f : Slot → Slot) : Prop where
  record : ∀ x, (f x).record = x.record
  lines : ∀ x, (f x).lines = x.lines
  seq : ∀ x, (f x).seq = x.seq

theorem offLines_edge : OffLines (edgeSlot .rst s.now) := ⟨fun _ => rfl, fun _ => rfl, fun _ => rfl⟩

theorem offLines_class {st : ClassState} : OffLines (inClass .rst st) := ⟨fun _ => rfl, fun _ => rfl, fun _ => rfl⟩

include loc seq

theorem setLocal_modSlot {f : Slot → Slot} (off : OffLines f) :
    setLocal i .rst false (s.modSlot i f) = localWithdrawn i f s := by
  rw [setLocal_released (by rw [modSlot_slot_same, off.lines]; exact loc)
    (by rw [modSlot_slot_same, off.lines]; exact seq), modSlot_slot_same, off.record, modSlot_modSlot]
  rfl

end

section

variable {f : Slot → Slot}

theorem localReleased_on (on : (s.slot i).record.observed = .on) (off : OffLines f) :
    ((s.modSlot i fun x => localReleased (f x)).slot i).record.observed = .on := by
  rw [modSlot_slot_same, localReleased, rstCleared, off.record]
  exact on

theorem localReleased_quiet (quiet : Quiet i s) (off : OffLines f) :
    Quiet i (s.modSlot i fun x => localReleased (f x)) := by
  unfold Quiet
  rw [modSlot_slot_same, localReleased, rstCleared, off.seq]
  exact quiet

variable (off : OffLines f)
  (boots : (s.slot i).record.observed = .on ∧ (s.slot i).record.resetWhileOn = true) (quiet : Quiet i s)

include off boots quiet

theorem localWithdrawn_boots (free : BootsFree i s) : localWithdrawn i f s =
    bootNotice i .on (s.slot i).record (s.modSlot i fun x => bootedSlot i s (localReleased (f x))) := by
  have record : booted (localReleased (f (s.slot i))).record = booted { (s.slot i).record with resetWhileOn := false } := by
    rw [localReleased, rstCleared, off.record]
  rw [localWithdrawn, if_pos boots,
    observeBoot_free (localReleased_on boots.1 off) free (localReleased_quiet quiet off), bootSeen,
    modSlot_modSlot, modSlot_slot_same, bootNotice, record]
  rfl

theorem localWithdrawn_slots : (localWithdrawn i f s).slots =
    (s.modSlot i fun x => bootedSlot i s (localReleased (f x))).slots := by
  rw [localWithdrawn, if_pos boots,
    observeBoot_slots (localReleased_on boots.1 off) (localReleased_quiet quiet off), modSlot_modSlot]
  rfl

end

/-- The slot once a press has ended with its marker. -/
def pressOver (now : Time) (c : PressClass) (x : Slot) : Slot :=
  inClass .rst .released { x with hist := postTo x.hist now (.localPress .rst c) }

section

variable {p : Press} (loc : (s.slot i).lines.rstLocal = true) (seq : (s.slot i).lines.rstSeq = false)
  (passing : (btnOf (s.slot i) .rst).state = .passing p)

include loc seq passing

theorem exec_release_rst (held : (s.slot i).rstBtn.pressed = true) : exec (.buttonReleaseEdge i .rst) s =
    .next (((localWithdrawn i (edgeSlot .rst s.now) s).modSlot i
      (pressOver (localWithdrawn i (edgeSlot .rst s.now) s).now (pressClass p (s.now - p.time)))).notify (some i)
        (.localPress .rst (eventOf (pressClass p (s.now - p.time))) true none (some (s.now - p.time)) p.time)) := by
  rw [exec_release (b := .rst) held, passing]
  refine congrArg Host.Outcome.next ?_
  simp only [endPress]
  rw [setLocal_modSlot loc seq offLines_edge, State.post, pressNotice, setClass_eq, modSlot_notify, modSlot_modSlot]
  rfl

theorem exec_stuck_rst (due : reached p.stuckDue s.now = true) : exec (.stuckDeadline i .rst) s =
    .next (reportStuck i .rst p none (localWithdrawn i (inClass .rst (.stuck p none)) s)) := by
  rw [exec_stuck_passing due passing, setClass_eq, setLocal_modSlot loc seq offLines_class]

end

/-- Settles O28: by the state of the classifier, and for RST_IN by whether the release is a boot observation. -/
theorem pressesEnd : Obligations.PressesEnd := by
  unfold Obligations.PressesEnd
  intro i b p s
  dsimp only
  refine ⟨?_, ?_, fun r blocked => ⟨fun held => ?_, fun due => ?_⟩, fun r stuck held => ?_⟩
  · rintro rfl passing
    refine ⟨fun held => ?_, fun due => ?_⟩
    · rw [exec_release (b := .pwr) held, passing]
      refine congrArg Host.Outcome.next ?_
      simp only [endPress, setLocal, setClaims_pwrLocal, setClass_eq, State.post, pressNotice, modSlot_notify,
        modSlot_modSlot, eventOf_ite, pressClass_eq]
      rfl
    · rw [exec_stuck_passing due passing, reportStuck_eq]
      refine congrArg Host.Outcome.next ?_
      simp only [setLocal, setClaims_pwrLocal, setClass_eq, modSlot_modSlot]
      rfl
  · rintro ⟨rfl, loc, seq⟩ passing
    refine ⟨fun boots held => ?_, fun boots due => ?_, fun boots quiet free => ⟨fun held => ?_, fun due => ?_⟩,
      fun boots quiet held => ?_⟩
    · rw [exec_release_rst loc seq passing held, localWithdrawn, if_neg boots, modSlot_modSlot, eventOf_pressClass,
        pressClass_eq]
      rfl
    · rw [exec_stuck_rst loc seq passing due, reportStuck_eq, localWithdrawn, if_neg boots, modSlot_modSlot]
      rfl
    · rw [exec_release_rst loc seq passing held, localWithdrawn_boots offLines_edge boots quiet free, bootNotice,
        notify_now, modSlot_notify, modSlot_modSlot, eventOf_pressClass, pressClass_eq]
      rfl
    · rw [exec_stuck_rst loc seq passing due, reportStuck_eq, localWithdrawn_boots offLines_class boots quiet free,
        bootNotice, notify_now, modSlot_notify, modSlot_modSlot]
      rfl
    · have slots := localWithdrawn_slots (offLines_edge (s := s)) boots quiet
      refine ⟨_, exec_release_rst loc seq passing held, ?_⟩
      simp only [notify_slot]
      refine ⟨fun j hj => ?_, ?_⟩
      · rw [modSlot_slot_ne hj, State.slot, slots]
        exact modSlot_slot_ne hj
      · rw [modSlot_slot_same, State.slot, slots, ← State.slot, modSlot_slot_same]
        exact ⟨rfl, rfl, rfl⟩
  · rw [exec_release held, blocked]
    refine congrArg Host.Outcome.next ?_
    simp only [endPress, setClass_eq, pressNotice, modSlot_notify, modSlot_modSlot, eventOf_ite, pressClass_eq]
    cases b <;> rfl
  · rw [exec_stuck_blocked due blocked, reportStuck_eq]
    refine congrArg Host.Outcome.next ?_
    simp only [setClass_eq, modSlot_modSlot]
    cases b <;> rfl
  · rw [exec_release held, stuck]
    refine congrArg Host.Outcome.next ?_
    simp only [endPress, setClass_eq, pressNotice, modSlot_notify, modSlot_modSlot]
    cases b <;> cases r <;> rfl

end Sys2Proof.Machine
end

section
/-! PROOFS. The Frame Classifier, requests that are refused, and the ranges of entry fields (chapters 10 and 11). -/

namespace Sys2Proof.Machine

open Sys2Proof

variable {s : State} {h : Header} {e : StationId}

/-! ## Frames (R177, R179) -/

theorem exec_powerCommand (a : Action) (profile : Option Nat) (quotes : List Quote) :
    exec (powerCommand a h profile quotes) s = .next (powerRequest a h profile quotes s) := by
  cases a <;> rfl

/-- A message that the manual knows is handled as its command. -/
theorem exec_commandOf {m : Message} {cmd : Instr} (known : commandOf h m = some cmd) :
    exec cmd s = .next (handleMessage h s m) := by
  cases m with
  | consoleRead mode max => cases mode <;> cases known <;> rfl
  | consoleHold form => cases form <;> cases known <;> rfl
  | power a profile quotes =>
    cases a with
    | act a => cases known; exact exec_powerCommand a profile quotes
    | abort => cases known; rfl
    | unknown => cases known
  | tableWrite w x => cases x <;> cases known <;> rfl
  | bridgeControl form => cases form <;> cases known <;> rfl
  | _ => cases known; rfl

theorem discoverKnown_unknown (unknown : s.lookup h.src = none) : discoverKnown h s = s := by
  rw [discoverKnown, unknown]

section

variable {p : Port} {f : Frame}

/-- A frame that is received comes to the classifier. -/
theorem exec_frame (good : (s.port p).up = true ∧ f.fcsGood = true ∧ 64 ≤ f.length ∧ f.length ≤ 1522) :
    exec (.frameReceived p f) s =
      .next (classify p f (s.modPort p fun x => { x with
        counters := { x.counters with received := bump x.counters.received } })) := by
  obtain ⟨up, fcs, least, most⟩ := good
  refine congrArg Host.Outcome.next ?_
  rw [up, fcs, if_neg (by decide), if_neg (by decide), if_neg (by omega)]
  rfl

theorem classify_own (other : f.src ≠ s.tables.bridge.address) (mine : f.dst = s.tables.bridge.address)
    (type : f.etype = s.tables.bridge.frameType) : classify p f s = handleMessage (headerOf p f) s (messageOf f) := by
  unfold classify
  rw [if_neg other, if_pos mine, if_pos type]

theorem classify_toAll (other : f.src ≠ s.tables.bridge.address) (mine : f.dst ≠ s.tables.bridge.address)
    (toAll : (f.dst = s.tables.bridge.group ∨ f.dst = broadcast) ∧ f.etype = s.tables.bridge.frameType ∧
      isDiscover f = true) :
    classify p f s = discoverKnown (headerOf p f) (forward (otherPort p) f s) := by
  unfold classify
  rw [if_neg other, if_neg mine, if_pos toAll]

theorem classify_pass (other : f.src ≠ s.tables.bridge.address) (mine : f.dst ≠ s.tables.bridge.address)
    (rest : ¬((f.dst = s.tables.bridge.group ∨ f.dst = broadcast) ∧ f.etype = s.tables.bridge.frameType ∧
      isDiscover f = true)) :
    classify p f s = forward (otherPort p) f s := by
  unfold classify
  rw [if_neg other, if_neg mine, if_neg rest]

theorem headerOf_bridge {version target : Byte} {tag bodyLength : BitVec 16} {fieldsExact : Bool} {m : Message}
    (payload : f.payload = .bridge version target tag bodyLength fieldsExact m) : headerOf p f =
      { port := p, src := f.src, version, target, tag, bodyLength, frameLength := f.length
        bodyExact := if m.hasNoFields then decide (bodyLength = 0)
                     else fieldsExact && decide (bodyLength.toNat ≤ 1482) } := by
  rw [headerOf, payload]
  rfl

end

/-- Settles O50: by the first test that drops the frame, and then by its destination and payload. -/
theorem framesSorted : Obligations.FramesSorted := by
  unfold Obligations.FramesSorted
  intro p f s
  have lookup : ∀ a q g z, (passedOn q g z : State).lookup a = z.lookup a := fun a q g z => by
    simp only [State.lookup, State.station, passedOn_tables]
    rfl
  dsimp only
  refine ⟨fun down => ?_, fun up bad => ?_, fun up fcs length => ?_, fun good self => ?_,
    fun good other mine type => ?_, fun good other mine rest => ?_, fun version target tag bodyLength exact m payload =>
      ⟨fun cmd ⟨good, other, mine, type⟩ known => ?_, fun good other mine ⟨dst, type, discover⟩ =>
        ⟨fun unknown => ?_, fun e taken => ?_⟩⟩, fun bs ⟨good, other, mine, type⟩ payload => ?_⟩
  · exact congrArg Host.Outcome.next (by rw [down]; rfl)
  · exact congrArg Host.Outcome.next (by rw [up, bad]; rfl)
  · refine congrArg Host.Outcome.next ?_
    rw [up, fcs, if_neg (by decide), if_neg (by decide), if_pos length]
    rfl
  · rw [exec_frame good]
    refine congrArg Host.Outcome.next ?_
    unfold classify
    dsimp only
    rw [modPort_tables, if_pos self, dropSelf, modPort_frameCounters]
    cases p <;> rfl
  · rw [exec_frame good]
    refine congrArg Host.Outcome.next ?_
    unfold classify
    dsimp only
    rw [modPort_tables, if_neg other, if_pos mine, if_neg type, modPort_frameCounters]
  · rw [exec_frame good, classify_pass (by rw [modPort_tables]; exact other) (by rw [modPort_tables]; exact mine)
      (by rw [modPort_tables]; exact rest), forward_eq]
  · rw [exec_frame good, classify_own (by rw [modPort_tables]; exact other) (by rw [modPort_tables]; exact mine)
      (by rw [modPort_tables]; exact type), headerOf_bridge payload, messageOf, payload]
    exact (exec_commandOf known).symm
  · rw [exec_frame good, classify_toAll (by rw [modPort_tables]; exact other) (by rw [modPort_tables]; exact mine)
      (by rw [modPort_tables]; exact ⟨dst, type, discover⟩), forward_eq, discoverKnown_unknown]
    · rw [lookup, headerOf_bridge payload, ← unknown]
      simp only [State.lookup, State.station, modPort_tables]
      rfl
  · rw [exec_frame good, classify_toAll (by rw [modPort_tables]; exact other) (by rw [modPort_tables]; exact mine)
      (by rw [modPort_tables]; exact ⟨dst, type, discover⟩), forward_eq, headerOf_bridge payload,
      discoverKnown_replied (Taken.passedOn taken _ _), discoverReport_passedOn]
    refine congrArg (fun r => Host.Outcome.next (replied _ _ _ (.discover r) _)) ?_
    simp [discoverReport, State.station]
  · rw [exec_frame good, classify_own (by rw [modPort_tables]; exact other) (by rw [modPort_tables]; exact mine)
      (by rw [modPort_tables]; exact type), headerOf, messageOf, payload]
    exact (exec_commandOf rfl).symm

/-! ## Requests that are refused (R179, R186, R192, R195) -/

/-- A request command is handled as a request of its kind, but for a DISCOVER from the bridge's own address. -/
theorem exec_requestOf {c : Instr} {k : MsgKind} (request_ : requestOf c = some (k, h))
    (other : k = .discover → h.src ≠ s.tables.bridge.address) :
    ∃ rule, exec c s = .next (request h k rule s) := by
  cases c with
  | discover h' dest =>
    cases dest <;> cases request_
    exact ⟨_, congrArg Host.Outcome.next (if_neg (other rfl))⟩
  | _ => cases request_ <;> exact ⟨_, rfl⟩

section

variable {k : MsgKind} {rule : StationId → State → Answer}

theorem request_unknown (unknown : s.lookup h.src = none) : request h k rule s = unknownStation s := by
  rw [request, unknown]

variable (known : s.lookup h.src = some e)

include known

theorem request_full (full : (hear e h.port s).ownRoom h.port = false) : request h k rule s =
    (hear e h.port s).countPort h.port fun c => { c with replySpace := bump c.replySpace } := by
  simp only [request, known, handle, full, Bool.false_eq_true, if_false]

/-- A request whose judgement refuses it leaves its reply. -/
theorem request_refused (room : (hear e h.port s).ownRoom h.port = true) {st : Status}
    (refuses : ∀ z, judge h k rule e z = refuse st z) :
    request h k rule s = replied h k st .none (hear e h.port s) := by
  simp only [request, known, handle, room, if_true, refuses, refuse]
  exact fillReply_placed

end

/-- A TABLE_WRITE of entry fields, as the common judgement and its table's own rule. -/
theorem exec_writeCommand (h : Header) (w : WriteHead) (x : TableEntry) (s : State) :
    ∃ good own, (entryLength x = true → good = true) ∧
      exec (writeCommand h w x) s = .next (request h .tableWrite
        (writeRule h (indexRange x).1 (indexRange x).2 w good own) s) := by
  cases x with
  | imageMap x => exact ⟨_, _, fun length => by rw [show regionLength x = true from length, Bool.or_true], rfl⟩
  | automaton next => exact ⟨_, _, id, rfl⟩
  | _ => exact ⟨_, _, fun _ => rfl, rfl⟩

/-- Settles O51: by the first test that a request fails. -/
theorem requestsRefused : Obligations.RequestsRefused := by
  unfold Obligations.RequestsRefused
  refine ⟨fun c k h s kind other => ?_, fun h e w x s taken => ?_⟩
  · obtain ⟨rule, exec⟩ := exec_requestOf kind other
    rw [exec]
    refine ⟨fun unknown => ?_, fun e known => ⟨fun full => ?_, fun room => ⟨fun bad => ?_, fun version own length => ?_⟩⟩⟩
    · rw [request_unknown unknown, unknownStation]
    · rw [request_full known full]
      rfl
    · refine congrArg Host.Outcome.next (request_refused known room fun z => ?_)
      unfold judge
      rcases bad with version | foreign_
      · exact if_pos version
      · rw [foreign_, if_pos rfl]
        exact ite_self _
    · refine congrArg Host.Outcome.next (request_refused known room fun z => ?_)
      have short : h.bodyFits = false := decide_eq_false (by omega)
      unfold judge
      rw [if_neg (not_not.mpr version), own, short]
      rfl
  · obtain ⟨good, own, length, exec⟩ := exec_writeCommand h w x s
    obtain ⟨-, -, -, -, exactBody⟩ := id taken
    rw [exec]
    have answers : ∀ {st}, writeRule h (indexRange x).1 (indexRange x).2 w good own e
        (placed h .tableWrite (hear e h.port s)) = refuse st (placed h .tableWrite (hear e h.port s)) →
        (Host.Outcome.next (request h .tableWrite (writeRule h (indexRange x).1 (indexRange x).2 w good own) s) : Result) =
          .next (replied h .tableWrite st .none (hear e h.port s)) := fun {st} refuses =>
      congrArg Host.Outcome.next (request_replied taken rfl refuses)
    refine ⟨fun admin => answers ?_, fun admin => ⟨fun outside => answers ?_, fun least most fields busy => answers ?_⟩⟩
    · simp only [writeRule, station_placed_hear, admin, Bool.not_false, if_true]
    · unfold writeRule
      rw [station_placed_hear, admin, if_neg (by decide)]
      by_cases low : w.index < (indexRange x).1
      · rw [if_pos low]
      · rw [if_neg low, finOf_eq_none (outside.resolve_left low)]
    · unfold writeRule
      rw [station_placed_hear, admin, if_neg (by decide), if_neg (not_lt.mpr least),
        finOf_eq_some (i := ⟨w.index, most⟩) rfl, length fields, exactBody]
      simp [Option.isSome_iff_ne_none, busy]

/-! ## Ranges of entry fields -/

theorem le_clamp {lo hi n : Nat} : lo ≤ clamp lo hi n := le_max_left _ _

theorem clamp_le {lo hi n : Nat} (h : lo ≤ hi) : clamp lo hi n ≤ hi := max_le h (min_le_right _ _)

/-- Settles O54: what is clamped lies in its range, and what is not is refused outside it. -/
theorem entriesInRange : Obligations.EntriesInRange := by
  unfold Obligations.EntriesInRange
  refine ⟨?_, ?_, ?_, ?_, ?_, ?_, ?_⟩
  · intro c e y judged
    unfold judgeSlotSetup at judged
    split_ifs at judged with good
    cases judged
    simp [silenceUnits] at good
    simp [le_clamp, clamp_le, good]
  · intro c e y judged
    unfold judgeConsole at judged
    split_ifs at judged with good
    cases judged
    simp at good
    simp [le_clamp, clamp_le, good]
  · intro c e y judged
    unfold judgeProfile at judged
    split_ifs at judged
    cases judged
    simp [le_clamp, clamp_le]
  · intro c e y judged
    unfold judgeWatch at judged
    split_ifs at judged with good
    cases judged
    simp at good
    simp [clamp_le, good]
  · intro c e y judged
    unfold judgeUnit at judged
    split_ifs at judged with good
    cases judged
    simp [fits16] at good
    simp [le_clamp, clamp_le]
    tauto
  · intro c e y judged
    unfold judgeRegion at judged
    dsimp only at judged
    split_ifs at judged with good
    cases judged
    simp [storedRegion] at good
    cases kind : e.kind <;> simp [kind, hasBase, storedRegion, le_clamp, clamp_le] at good ⊢ <;> omega
  · intro c e y judged
    unfold judgeBridge clampLimits at judged
    dsimp only at judged
    split_ifs at judged with good
    cases judged
    simp at good
    simp [le_clamp, clamp_le, good]

end Sys2Proof.Machine
end

section
/-! PROOFS. HELD records offered to a port, the Egress Arbiter and the links (chapters 9 and 10). -/

namespace Sys2Proof.Machine

open Sys2Proof

/-! ## Records offered to a port -/

/-- The BLOCK_FETCH of the records `sent` enter the Own Queue of `p`, whatever its room. -/
def sentFrom (p : Port) (sent : List FetchRecord) (s : State) : State :=
  { s.modPort p fun x => { x with own := x.own ++ sent.flatMap (fetchFrame s) } with
    fetch := { s.fetch with records := s.fetch.records.map fun r =>
      if r ∈ sent then { r with phase := .out (s.after (s.unitSetup r.unit).fetchDeadline) } else r }
    units := Vector.ofFn fun u =>
      let m := s.unit u
      { m with counters := { m.counters with
          fetches := bumpBy (sent.filter fun r => decide (r.unit = u)).length m.counters.fetches } } }

theorem offered_eq {which : FetchRecord → Bool} {p : Port} {s : State} : offered which p s =
    sentFrom p ((s.fetch.records.filter fun r => isHeld r && which r).take (ownSpace (s.port p))) s := rfl

theorem sentFrom_unit {p : Port} {l : List FetchRecord} {s : State} {u : UnitId} :
    (sentFrom p l s).unit u = { s.unit u with counters := { (s.unit u).counters with
      fetches := bumpBy (l.filter fun r => decide (r.unit = u)).length (s.unit u).counters.fetches } } := by
  simp [sentFrom, State.unit]

@[simp] theorem sentFrom_station {p : Port} {l : List FetchRecord} {s : State} {u : UnitId} :
    ((sentFrom p l s).unit u).station = (s.unit u).station := by rw [sentFrom_unit]

@[simp] theorem sentFrom_lastPorts {p : Port} {l : List FetchRecord} {s : State} :
    (sentFrom p l s).lastPorts = s.lastPorts := by simp [sentFrom]

@[simp] theorem sentFrom_tables {p : Port} {l : List FetchRecord} {s : State} :
    (sentFrom p l s).tables = s.tables := by simp [sentFrom]

@[simp] theorem sentFrom_now {p : Port} {l : List FetchRecord} {s : State} :
    (sentFrom p l s).now = s.now := by simp [sentFrom]

theorem sentFrom_port {p : Port} {l : List FetchRecord} {s : State} : (sentFrom p l s).port p =
    { s.port p with own := (s.port p).own ++ l.flatMap (fetchFrame s) } := by
  cases p <;> rfl

theorem sentFrom_records {p : Port} {l : List FetchRecord} {s : State} : (sentFrom p l s).fetch.records =
    s.fetch.records.map fun r =>
      if r ∈ l then { r with phase := .out (s.after (s.unitSetup r.unit).fetchDeadline) } else r := rfl

theorem sentFrom_fetchFrame {p : Port} {l : List FetchRecord} {s : State} :
    fetchFrame (sentFrom p l s) = fetchFrame s := by
  funext r
  simp [fetchFrame]

theorem sentFrom_nil {p : Port} {s : State} : sentFrom p [] s = s := by
  have units : (Vector.ofFn fun u => { s.unit u with counters := { (s.unit u).counters with
      fetches := (s.unit u).counters.fetches } }) = s.units := by
    ext u hu
    simp [State.unit]
  cases p <;> simp [sentFrom, State.modPort, bumpBy_zero, State.unit]

theorem sentFrom_frame {p : Port} {l : List FetchRecord} {s : State} : sentFrom p l s = { s with
    uplink := (sentFrom p l s).port .uplink
    chain := (sentFrom p l s).port .chain
    fetch := { s.fetch with records := (sentFrom p l s).fetch.records }
    units := (sentFrom p l s).units } := by
  cases p <;> rfl

/-- Records that are sent one after the other are sent together. -/
theorem sentFrom_cons {p : Port} {r : FetchRecord} {l : List FetchRecord} {s : State} (held : ∀ x ∈ l, isHeld x)
    (apart : r ∉ l) : sentFrom p l (sentFrom p [r] s) = sentFrom p (r :: l) s := by
  have records : (sentFrom p l (sentFrom p [r] s)).fetch.records = (sentFrom p (r :: l) s).fetch.records := by
    simp only [sentFrom_records, List.map_map]
    refine List.map_congr_left fun x _ => ?_
    have out : ∀ due, ({ r with phase := .out due } : FetchRecord) ∉ l := fun due h => by
      simpa [isHeld] using held _ h
    by_cases hx : x = r
    · subst hx
      simp [out]
    · simp [hx, State.after, State.unitSetup]
  have units : (sentFrom p l (sentFrom p [r] s)).units = (sentFrom p (r :: l) s).units := by
    apply Vector.ext
    intro u hu
    have := sentFrom_unit (p := p) (l := l) (s := sentFrom p [r] s) (u := ⟨u, hu⟩)
    have whole := sentFrom_unit (p := p) (l := r :: l) (s := s) (u := ⟨u, hu⟩)
    refine this.trans (Eq.trans ?_ whole.symm)
    rw [sentFrom_unit]
    by_cases hr : r.unit = ⟨u, hu⟩ <;> simp [hr, bumpBy_one, bumpBy_zero, bumpBy_bump]
  have ports (q : Port) : (sentFrom p l (sentFrom p [r] s)).port q = (sentFrom p (r :: l) s).port q := by
    by_cases hq : q = p
    · subst hq
      simp [sentFrom_port, sentFrom_fetchFrame]
    · have other (m : List FetchRecord) (t : State) : (sentFrom p m t).port q = t.port q :=
        modPort_port_ne (s := t) hq
      simp only [other]
  rw [sentFrom_frame (s := sentFrom p [r] s), sentFrom_frame (l := r :: l), records, units, ports .uplink,
    ports .chain, sentFrom_frame]

/-- A HELD record whose station is reached through `p` is offered there. -/
theorem offerFetch_eq {p : Port} {r : FetchRecord} {e : StationId} {a : Addr} {s : State}
    (station : (s.unit r.unit).station = some (e, a)) (route : s.route e = p)
    (alone : ∀ x ∈ s.fetch.records, x.id = r.id → x = r) :
    offerFetch s r = if s.ownRoom p then sentFrom p [r] s else s := by
  unfold offerFetch
  rw [station]
  dsimp only
  rw [route]
  refine if_congr Iff.rfl ?_ rfl
  have records : (s.fetch.records.map fun x =>
      if x.id = r.id then { x with phase := .out (s.after (s.unitSetup r.unit).fetchDeadline) } else x) =
      (sentFrom p [r] s).fetch.records := by
    rw [sentFrom_records]
    refine List.map_congr_left fun x hx => ?_
    by_cases same : x = r
    · simp [same]
    · rw [if_neg fun h => same (alone x hx h), if_neg (by simpa using same)]
  have units : upd s.units r.unit (fun m => { m with
      counters := { m.counters with fetches := bump m.counters.fetches } }) = (sentFrom p [r] s).units := by
    apply Vector.ext
    intro u hu
    have sent := sentFrom_unit (p := p) (l := [r]) (s := s) (u := ⟨u, hu⟩)
    refine Eq.trans (upd_get s.units r.unit ⟨u, hu⟩ _) (Eq.trans ?_ sent.symm)
    by_cases hr : r.unit = ⟨u, hu⟩
    · simp [hr, State.unit]
    · simp [hr, Ne.symm hr, State.unit]
  rw [sentFrom_frame, ← records, ← units]
  have frame : s.ownFrame a (BitVec.ofNat 8 r.unit) 0 (.blockFetch r.unit r.id r.first r.count r.reAsk) ∈
      fetchFrame s r := by simp [fetchFrame, station, State.ownFrame]
  cases p <;> simp [sentFrom, State.ownAppend, State.modPort, State.modRecord, State.countUnit, State.modUnit,
    State.port, fetchFrame, station, State.ownFrame]

/-- What decides whether a record is offered speaks of stations and of where they were last heard alone, and
holds of none that is not reached through `p`. -/
def ReachedThrough (which : State → FetchRecord → Bool) (p : Port) : Prop :=
  (∀ s t : State, (∀ u, (t.unit u).station = (s.unit u).station) → t.lastPorts = s.lastPorts →
    which t = which s) ∧
  ∀ s r, which s r = true → ∃ e a, (s.unit r.unit).station = some (e, a) ∧ s.route e = p

theorem offerEach_eq {which : State → FetchRecord → Bool} {p : Port} (through : ReachedThrough which p)
    (l : List FetchRecord) (s : State) (held : ∀ x ∈ l, isHeld x) (once : (l.map (·.id)).Nodup)
    (alone : ∀ r ∈ l, ∀ x ∈ s.fetch.records, x.id = r.id → x = r) :
    l.foldl (fun s r => if which s r then offerFetch s r else s) s =
      sentFrom p ((l.filter (which s)).take (ownSpace (s.port p))) s := by
  obtain ⟨local_, reach⟩ := through
  induction l generalizing s with
  | nil => exact (by simp [sentFrom_nil])
  | cons r l ih =>
    obtain ⟨fresh, once⟩ := List.nodup_cons.mp once
    have later := fun x hx => held x (List.mem_cons_of_mem r hx)
    have still := fun x hx => alone x (List.mem_cons_of_mem r hx)
    rw [List.foldl_cons]
    by_cases chosen : which s r = true
    · obtain ⟨e, a, station, route⟩ := reach s r chosen
      rw [if_pos chosen, offerFetch_eq station route (alone r List.mem_cons_self), List.filter_cons_of_pos chosen]
      by_cases room : s.ownRoom p = true
      · have space : ownSpace (s.port p) = ownSpace ((sentFrom p [r] s).port p) + 1 := by
          simp [State.ownRoom] at room
          simp [sentFrom_port, ownSpace, room, fetchFrame, station]
          omega
        have same : which (sentFrom p [r] s) = which s := local_ _ _ (by simp) (by simp)
        rw [if_pos room, ih _ later once, same, space, List.take_succ_cons, sentFrom_cons]
        · exact fun x hx => later x (List.mem_of_mem_filter (List.mem_of_mem_take hx))
        · exact fun h => fresh (List.mem_map_of_mem (List.mem_of_mem_filter (List.mem_of_mem_take h)))
        · intro y hy x hx sameId
          rw [sentFrom_records] at hx
          obtain ⟨z, hz, rfl⟩ := List.mem_map.mp hx
          by_cases hzr : z = r
          · subst hzr
            simp at sameId
            exact absurd (List.mem_map_of_mem (f := (·.id)) hy) (sameId ▸ fresh)
          · simp [hzr] at sameId ⊢
            exact still y hy z hz sameId
      · have full : ownSpace (s.port p) = 0 := by
          simp [State.ownRoom] at room
          simp only [ownSpace, ite_eq_right_iff]
          exact fun up => by have := room up; omega
        rw [if_neg room, ih s later once still, full, List.take_zero, List.take_zero]
    · rw [if_neg chosen, ih s later once still, List.filter_cons_of_neg chosen]

theorem offerHeld_offered {which : State → FetchRecord → Bool} {p : Port} (through : ReachedThrough which p)
    {s : State} (once : (s.fetch.records.map (·.id)).Nodup) : offerHeld which s = offered (which s) p s := by
  unfold offerHeld
  rw [offerEach_eq through, offered_eq, List.filter_filter]
  · simp [Bool.and_comm]
  · exact fun x hx => (List.mem_filter.mp hx).2
  · exact once.sublist (List.filter_sublist.map _)
  · intro r hr x hx same
    exact List.inj_on_of_nodup_map once hx (List.mem_of_mem_filter hr) same

theorem viaPort_reached (p : Port) : ReachedThrough (viaPort p) p := by
  refine ⟨fun s t stations ports => ?_, fun s r via => ?_⟩
  · funext r
    simp only [viaPort, stations, State.route, ports]
    rfl
  · unfold viaPort at via
    split at via
    · exact ⟨_, _, ‹_›, of_decide_eq_true via⟩
    · cases via

/-! ## The Egress Arbiter and the links -/

theorem sendOwn_offered {p : Port} {f : OwnFrame} {share : Nat} {s : State}
    (once : (s.fetch.records.map (·.id)).Nodup) : sendOwn p f share s = offered (viaPort p s) p
      (s.modPort p fun x => { x with own := x.own.drop 1, sending := some (.own f), share }) := by
  unfold sendOwn
  rw [offerHeld_offered (viaPort_reached p) (by simpa using once)]
  congr 1
  exact (viaPort_reached p).1 _ _ (by simp) (by simp)

theorem sendOwn_grows {p : Port} {f : OwnFrame} {share : Nat} {s : State} :
    (sendOwn p f share s).slots = s.slots ∧ (sendOwn p f share s).cache = s.cache ∧
      Grows { s.port p with own := (s.port p).own.drop 1, sending := some (.own f), share }
        ((sendOwn p f share s).port p) := by
  unfold sendOwn
  refine ⟨by simp, by simp, ?_⟩
  have grown := offerHeld_port (p := p) (w := viaPort p)
    (s := s.modPort p fun x => { x with own := x.own.drop 1, sending := some (.own f), share })
  rwa [modPort_port_same] at grown

theorem offerFetch_portCounters {s : State} {r : FetchRecord} {p : Port} :
    ((offerFetch s r).port p).counters = (s.port p).counters := by
  unfold offerFetch
  split
  · rfl
  · dsimp only
    split_ifs
    · rename_i e a _ _
      generalize s.route e = q
      cases p <;> cases q <;> rfl
    · rfl

theorem offerHeld_portCounters {which : State → FetchRecord → Bool} {s : State} {p : Port} :
    ((offerHeld which s).port p).counters = (s.port p).counters :=
  foldl_keeps (fun t : State => (t.port p).counters) _
    (fun _ _ => by split_ifs <;> simp [offerFetch_portCounters]) _ _

/-- An idle port in UP with a frame may choose. -/
theorem canChoose_true {x : PortState} (up : x.up = true) (idle : x.sending = none)
    (some_ : x.pass ≠ [] ∨ x.own ≠ []) : canChoose x = true := by
  simp [canChoose, up, idle]
  tauto

theorem restartLeaves_other {b : Bool} {s : State} (h : b = false ∨ s.restart ≠ .pending) :
    restartLeaves b s = s := by
  unfold restartLeaves
  rw [if_neg]
  rintro ⟨leaves, pending⟩
  exact h.elim (by simp [leaves]) fun no => no pending

theorem restartLeaves_due {b : Bool} {s : State} (leaves : b = true) (pending : s.restart = .pending) :
    restartLeaves b s = { s with restart := .due } := if_pos ⟨leaves, pending⟩

/-- Settles O52. -/
theorem egressServed : Obligations.EgressServed := by
  unfold Obligations.EgressServed
  intro p s
  dsimp only
  refine ⟨fun up idle => ⟨?_, ?_, ?_⟩, fun o sending => ⟨?_, ?_⟩⟩
  · intro f rest pass own
    refine congrArg Host.Outcome.next ?_
    simp only [canChoose_true up idle (.inl (by simp [pass])), if_true, pass, own]
    exact modPort_congr (by simp [pass])
  · intro f rest g own pass mine full
    refine congrArg Host.Outcome.next ?_
    simp only [canChoose_true up idle (.inl (by simp [pass])), if_true, pass, mine, Nat.not_lt.mpr full, if_false]
    exact modPort_congr (by simp [pass])
  · intro g own mine share
    have chosen : exec (.egressChoice p) s = .next (sendOwn p g
        (if (s.port p).pass = [] then (s.port p).share else ((s.port p).share + 1) % 8) s) := by
      refine congrArg Host.Outcome.next ?_
      simp only [canChoose_true up idle (.inr (by simp [mine])), if_true, mine]
      cases pass : (s.port p).pass with
      | nil => rfl
      | cons f rest => simp [share.resolve_left (by simp [pass])]
    refine ⟨⟨_, chosen, ?_⟩, fun once => ?_⟩
    · obtain ⟨slots, cache, l, grown⟩ := sendOwn_grows (p := p) (f := g) (s := s) (share :=
        if (s.port p).pass = [] then (s.port p).share else ((s.port p).share + 1) % 8)
      rw [grown]
      exact ⟨rfl, rfl, ⟨l, by simp [mine]⟩, rfl, slots, cache⟩
    · rw [chosen, sendOwn_offered once]
      refine congrArg Host.Outcome.next (congrArg _ (modPort_congr ?_))
      simp [mine]
  · intro other
    refine congrArg Host.Outcome.next ?_
    simp only [sending, Option.isSome_some, if_true]
    exact restartLeaves_other (by simpa using other)
  · intro leaves pending
    refine congrArg Host.Outcome.next ?_
    simp only [sending, Option.isSome_some, if_true]
    exact restartLeaves_due leaves (by simpa using pending)

theorem flushCount_eq {x : PortState} :
    flushCount x = x.pass.length + x.own.length + (if x.sending = none then 0 else 1) := by
  unfold flushCount
  cases x.sending <;> rfl

theorem exec_linkDown {p : Port} {s : State} (up : (s.port p).up = true) : exec (.linkDown p) s =
    .next (restartLeaves (sendsRestart (s.port p).sending || (s.port p).own.any isRestartReply)
      (s.modPort p fun x => { x with
        up := false, pass := [], own := [], sending := none
        counters := { x.counters with
          flushed := bumpBy (flushCount (s.port p)) x.counters.flushed
          linkDowns := bump x.counters.linkDowns } })) := by
  refine congrArg Host.Outcome.next ((if_pos up).trans ?_)
  congr 1
  exact modPort_congr rfl

/-- Settles O53. -/
theorem linksFollowed : Obligations.LinksFollowed := by
  unfold Obligations.LinksFollowed
  intro p s
  dsimp only
  rw [← flushCount_eq]
  refine ⟨?_, ?_, ?_, ?_, ?_⟩
  · exact fun up => congrArg Host.Outcome.next (if_pos up)
  · exact fun down => congrArg Host.Outcome.next (if_neg (by simp [down]))
  · intro down
    have raised : exec (.linkUp p) s = .next (offerHeld (viaPort p)
        (s.modPort p fun x => { x with up := true, pass := [], own := [] })) :=
      congrArg Host.Outcome.next (if_neg (by simp [down]))
    refine ⟨⟨_, raised, ?_⟩, fun once => ?_⟩
    · obtain ⟨l, grown⟩ := offerHeld_port (p := p) (w := viaPort p)
        (s := s.modPort p fun x => { x with up := true, pass := [], own := [] })
      rw [modPort_port_same] at grown
      refine ⟨by rw [grown], by rw [grown], by rw [grown], ?_, by simp, by simp⟩
      rw [offerHeld_portCounters, modPort_port_same]
    · rw [raised, offerHeld_offered (viaPort_reached p) (by simpa using once)]
      exact congrArg Host.Outcome.next (congrArg (offered · p _) ((viaPort_reached p).1 _ _ (by simp) (by simp)))
  · exact fun up other => (exec_linkDown up).trans
      (congrArg Host.Outcome.next (restartLeaves_other (other.imp_right fun no => by simpa using no)))
  · exact fun up lost pending => (exec_linkDown up).trans
      (congrArg Host.Outcome.next (restartLeaves_due lost (by simpa using pending)))

end Sys2Proof.Machine
end

section
/-! PROOFS. Requests at a storage port: checks, capacities, writes (chapter 8). -/

namespace Sys2Proof.Machine

open Sys2Proof

variable {s : State} {i : SlotId} {u : UnitId} {k : RequestKind} {rule : UnitId → State → State}

/-! ## What a port does with a request -/

theorem portTakes_presents (p : Presents i u s) : portTakes i k rule s = rule u s := by
  obtain ⟨bound, presenting, known, free⟩ := p
  simp [portTakes, free, bound, presenting, known]

theorem portTakes_absent (free : (s.slot i).port.inFlight = none)
    (absent : ∀ u, s.unitOf i = some u → (s.unit u).state ≠ .presenting) :
    portTakes i k rule s = turnAway i k .notPresent s := by
  unfold portTakes
  rw [free]
  cases bound : s.unitOf i with
  | none => rfl
  | some u => simp [absent u bound]

theorem portTakes_changed (free : (s.slot i).port.inFlight = none) (bound : s.unitOf i = some u)
    (presenting : (s.unit u).state = .presenting) (changed : (s.unit u).mediumChanged = true) :
    portTakes i k rule s = turnAway i k .mediumChanged (s.modUnit u fun m => { m with mediumChanged := false }) := by
  simp [portTakes, free, bound, presenting, changed]

theorem portTakes_busy (busy : (s.slot i).port.inFlight ≠ none) : portTakes i k rule s = s :=
  if_pos (Option.isSome_iff_ne_none.mpr busy)

/-- Each of the four requests of a server goes through its port. -/
theorem exec_storage {first count : Nat} {cmd : Instr}
    (h : (k, cmd) ∈ [(RequestKind.check, Instr.storageCheck i), (.capacity, .storageCapacity i),
      (.read, .storageRead i first count), (.write, .storageWrite i first count)]) :
    ∃ rule, ∀ s, exec cmd s = .next (portTakes i k rule s) := by
  simp only [List.mem_cons, Prod.mk.injEq, List.not_mem_nil, or_false] at h
  obtain ⟨rfl, rfl⟩ | ⟨rfl, rfl⟩ | ⟨rfl, rfl⟩ | ⟨rfl, rfl⟩ := h
  all_goals exact ⟨_, fun _ => rfl⟩

/-- Settles O40. -/
theorem portRequestsAnswered : Obligations.PortRequestsAnswered := by
  unfold Obligations.PortRequestsAnswered
  refine ⟨fun i u s p => ⟨?_, ?_⟩, fun i first count s k cmd request => ?_⟩
  · exact congrArg Host.Outcome.next (portTakes_presents p)
  · refine congrArg Host.Outcome.next ((portTakes_presents p).trans ?_)
    unfold tell toldMore
    rw [modSlot_modSlot]
    exact modSlot_congr (by simp)
  · obtain ⟨rule, port⟩ := exec_storage request
    rw [port]
    exact ⟨fun free absent => congrArg Host.Outcome.next (portTakes_absent free absent),
      fun u free bound presenting changed =>
        congrArg Host.Outcome.next (portTakes_changed free bound presenting changed),
      fun busy => congrArg Host.Outcome.next (portTakes_busy busy)⟩

/-! ## WRITE -/

theorem rangeGood_iff {first count cap : Nat} :
    rangeGood first count cap = true ↔ 1 ≤ count ∧ count ≤ 128 ∧ first + count ≤ cap := by
  simp [rangeGood, and_assoc]

theorem noSpace_false {n : Nat} : noSpace s u n = false ↔
    n ≤ s.poolFree ∧ heldCount (s.unit u) + n ≤ (s.unitSetup u).overlayLimit := by
  simp [noSpace]

/-- Settles O42. -/
theorem writesReserve : Obligations.WritesReserve := by
  unfold Obligations.WritesReserve
  intro i u first count s p
  dsimp only
  rw [← rangeGood_iff, ← noSpace_false]
  have noAbsent (h : ∀ k ∈ (lbas first count).map (s.kindAt u), k = .overlay ∨ k = .local_) :
      ((lbas first count).any fun k => decide (s.kindAt u k = .absent)) = false ∧
      ((lbas first count).any fun k => !writable (s.kindAt u k)) = false := by
    simp only [List.any_eq_false]
    refine ⟨fun k hk => ?_, fun k hk => ?_⟩ <;>
      obtain kind | kind := h _ (List.mem_map_of_mem hk) <;> simp [kind, writable]
  have taken {t : State} (h : _ = t) : exec (.storageWrite i first count) s = .next t :=
    congrArg Host.Outcome.next ((portTakes_presents p).trans h)
  refine ⟨fun bad => taken ?_, fun good open_ kinds room => taken ?_, fun good open_ kinds full => taken ?_,
    fun good open_ absent => taken ?_, fun good closed => taken ?_⟩
  · simp [bad]
    rfl
  · obtain ⟨a, w⟩ := noAbsent kinds
    simp [good, open_, a, w, room]
    rfl
  · obtain ⟨a, w⟩ := noAbsent kinds
    simp [good, open_, a, w, full]
    rfl
  · have found : ((lbas first count).any fun k => decide (s.kindAt u k = .absent)) = true := by
      simpa using absent
    simp [good, open_, found]
    rfl
  · by_cases protect : (s.unitSetup u).writeProtect = true
    · simp [good, protect]
      rfl
    · obtain ⟨noAbsent, kind, hk, readOnly⟩ := closed.resolve_left protect
      have a : ((lbas first count).any fun k => decide (s.kindAt u k = .absent)) = false := by
        simpa using noAbsent
      have w : ((lbas first count).any fun k => !writable (s.kindAt u k)) = true := by
        obtain ⟨b, hb, rfl⟩ := List.mem_map.mp hk
        refine List.any_eq_true.mpr ⟨b, hb, ?_⟩
        rcases readOnly with kind | kind <;> simp [kind, writable]
      simp [good, protect, a, w]
      rfl

/-! ## Lines asked for anew -/

theorem isLine_iff {g : Nat} {l : CacheLine} : isLine u g l = true ↔ l.unit = u ∧ l.group = g := by
  simp [isLine]

/-- The order of lines of other keys does not matter to a line. -/
theorem line_touch {v : UnitId} {g f : Nat} : (touch u g s).line v f = s.line v f := by
  unfold touch State.line
  rw [List.find?_append]
  by_cases same : v = u ∧ f = g
  · obtain ⟨rfl, rfl⟩ := same
    have nothing : s.cache.find? (fun _ => false) = none := List.find?_eq_none.mpr (by simp)
    simp [nothing]
  · have apart (l : CacheLine) : isLine v f l = true → isLine u g l = false := fun h => by
      rw [isLine_iff] at h
      simp [isLine, h]
      exact fun hu hg => same ⟨hu, hg⟩
    have none_ : (s.cache.filter (isLine u g)).find? (isLine v f) = none := by
      simp only [List.find?_eq_none, List.mem_filter]
      exact fun l ⟨_, h⟩ h' => by simp [apart l h'] at h
    rw [none_, Option.or_none, List.find?_filter]
    congr 1
    funext l
    cases h : isLine v f l
    · simp
    · simp [apart l h]

theorem line_modLine {v : UnitId} {g f : Nat} {c : CacheLine → CacheLine}
    (key : ∀ l, (c l).unit = l.unit ∧ (c l).group = l.group) :
    (s.modLine u g c).line v f = (s.line v f).map fun l => if isLine u g l then c l else l := by
  unfold State.modLine State.line
  rw [List.find?_map]
  congr 2
  funext l
  dsimp only [Function.comp]
  split_ifs
  · simp [isLine, key l]
  · rfl

/-- A change of the cache that keeps the blocks of every line, and no unit, slot or record. -/
structure SameBlocks (s t : State) : Prop where
  frame : t = { s with cache := t.cache }
  blocks : ∀ v f, (t.line v f).map (·.blocks) = (s.line v f).map (·.blocks)

theorem SameBlocks.refl (s : State) : SameBlocks s s := ⟨rfl, fun _ _ => rfl⟩

theorem SameBlocks.trans {s t z : State} (a : SameBlocks s t) (b : SameBlocks t z) : SameBlocks s z :=
  ⟨by rw [b.frame, a.frame], fun v f => (b.blocks v f).trans (a.blocks v f)⟩

theorem sameBlocks_touch {g : Nat} : SameBlocks s (touch u g s) := ⟨rfl, fun v f => by rw [line_touch]⟩

theorem sameBlocks_modLine {g : Nat} {c : CacheLine → CacheLine}
    (key : ∀ l, (c l).unit = l.unit ∧ (c l).group = l.group ∧ (c l).blocks = l.blocks) :
    SameBlocks s (s.modLine u g c) := by
  refine ⟨rfl, fun v f => ?_⟩
  rw [line_modLine fun l => ⟨(key l).1, (key l).2.1⟩, Option.map_map]
  congr 1
  funext l
  dsimp only [Function.comp]
  split_ifs
  · exact (key l).2.2
  · rfl

theorem SameBlocks.foldl {α : Type} {f : State → α → State} (step : ∀ s a, SameBlocks s (f s a)) :
    ∀ (l : List α) (s : State), SameBlocks s (l.foldl f s)
  | [], s => .refl s
  | a :: l, s => (step s a).trans (SameBlocks.foldl step l (f s a))

theorem sameBlocks_touchLines {images : List Nat} : SameBlocks s (touchLines u images s) :=
  .foldl (fun _ _ => sameBlocks_touch) _ s

theorem blockAt_eq {v : UnitId} {b : Nat} : s.blockAt v b =
    (((s.line v (b / 8)).map (·.blocks)).map fun bs : Vector CacheBlock 8 => bs[Fin.ofNat 8 b]).getD
      CacheBlock.empty := by
  unfold State.blockAt
  cases s.line v (b / 8) <;> rfl

theorem SameBlocks.slots {s t : State} (h : SameBlocks s t) : t.slots = s.slots := by rw [h.frame]

theorem SameBlocks.slot {s t : State} (h : SameBlocks s t) (j : SlotId) : t.slot j = s.slot j := by
  rw [State.slot, h.slots, State.slot]

theorem SameBlocks.units {s t : State} (h : SameBlocks s t) : t.units = s.units := by rw [h.frame]

theorem SameBlocks.unit {s t : State} (h : SameBlocks s t) (v : UnitId) : t.unit v = s.unit v := by
  rw [State.unit, h.units, State.unit]

theorem SameBlocks.fetch {s t : State} (h : SameBlocks s t) : t.fetch = s.fetch := by rw [h.frame]

theorem SameBlocks.blockAt {s t : State} (h : SameBlocks s t) (v : UnitId) (b : Nat) :
    t.blockAt v b = s.blockAt v b := by
  rw [blockAt_eq, blockAt_eq, h.blocks]

theorem SameBlocks.line {s t : State} (h : SameBlocks s t) (v : UnitId) (g : Nat) :
    (t.line v g).isSome = (s.line v g).isSome := by
  simpa using congrArg Option.isSome (h.blocks v g)

/-- A group whose line stands and of which no block is EMPTY is asked for: its line is moved and pinned. -/
theorem sameBlocks_requestGroup {prime : Bool} {images : List Nat} {g : Nat} (line : (s.line u g).isSome = true)
    (full : ∀ b ∈ images, isEmpty (s.blockAt u b) = false) : SameBlocks s (requestGroup u prime images s g) := by
  have pinned : SameBlocks s ((touch u g s).modLine u g fun l => { l with pins := l.pins + 1 }) :=
    sameBlocks_touch.trans (sameBlocks_modLine fun _ => ⟨rfl, rfl, rfl⟩)
  unfold requestGroup
  rw [if_pos line]
  dsimp only
  rw [if_pos]
  · exact pinned
  · simp only [State.emptyIn, List.isEmpty_iff, List.filter_eq_nil_iff]
    intro b hb
    simp [pinned.blockAt, full b hb]

theorem mem_insertRising {n m : Nat} : ∀ {l : List Nat}, m ∈ insertRising n l ↔ m = n ∨ m ∈ l
  | [] => by simp [insertRising]
  | a :: l => by
    unfold insertRising
    split_ifs with _ same
    · simp
    · simp [same]
    · simp [mem_insertRising (l := l)]
      tauto

theorem mem_groupsOf {g : Nat} {images : List Nat} : g ∈ groupsOf images ↔ ∃ b ∈ images, b / 8 = g := by
  induction images with
  | nil => simp [groupsOf]
  | cons b images ih =>
    have : groupsOf (b :: images) = insertRising (b / 8) (groupsOf images) := rfl
    rw [this, mem_insertRising, ih]
    simp [eq_comm]

theorem line_of_valid {b : Nat} (valid : isEmpty (s.blockAt u b) = false) : (s.line u (b / 8)).isSome = true := by
  unfold State.blockAt at valid
  cases h : s.line u (b / 8) with
  | some l => rfl
  | none => simp [h, isEmpty] at valid

theorem sameBlocks_handOver {prime : Bool} {images : List Nat}
    (full : ∀ b ∈ images, isEmpty (s.blockAt u b) = false) : SameBlocks s (handOver u prime images s) := by
  have each : ∀ (gs : List Nat) (t : State), SameBlocks s t → (∀ g ∈ gs, g ∈ groupsOf images) →
      SameBlocks s (gs.foldl (requestGroup u prime images) t) := by
    intro gs
    induction gs with
    | nil => exact fun t h _ => h
    | cons g gs ih =>
      intro t same groups
      refine ih _ (same.trans (sameBlocks_requestGroup ?_ ?_)) fun x hx => groups x (by simp [hx])
      · obtain ⟨b, hb, rfl⟩ := mem_groupsOf.mp (groups g (by simp))
        rw [same.line]
        exact line_of_valid (full b hb)
      · exact fun b hb => (congrArg isEmpty (same.blockAt u b)).trans (full b hb)
  exact each _ s (.refl s) fun _ h => h

/-! ## What is ready -/

theorem ready_congr {s t : State} (blocks : ∀ b, t.blockAt u b = s.blockAt u b)
    (overlay : (t.unit u).overlay = (s.unit u).overlay) : t.ready u = s.ready u := by
  funext x
  cases x <;> simp [State.ready, blocks, overlay]

theorem full_of_ready {xs : List Source} (ready : ∀ x ∈ xs, s.ready u x ≠ none) :
    ∀ b ∈ imagesIn xs, isEmpty (s.blockAt u b) = false := by
  intro b hb
  obtain ⟨x, hx, image⟩ := List.mem_filterMap.mp hb
  cases x with
  | image c =>
    cases image
    have := ready _ hx
    cases h : s.blockAt u b <;> simp_all [State.ready, isEmpty]
  | zeros => cases image
  | overlay k => cases image

/-! ## READ -/

/-- The blocks of a read told to its server, and counted. -/
def deliveredBlocks (i : SlotId) (u : UnitId) (lba : Nat) (data : List Block) (s : State) : State :=
  (toldMore i (data.mapIdx fun k d => .block (lba + k) d) s).countUnit u fun c =>
    { c with delivered := bumpBy data.length c.delivered }

theorem deliveredBlocks_nil {lba : Nat} : deliveredBlocks i u lba [] s = s := by
  simp [deliveredBlocks, toldMore, State.countUnit, State.modSlot, State.modUnit]

theorem deliveredBlocks_cons {lba : Nat} {d : Block} {data : List Block} :
    deliveredBlocks i u (lba + 1) data (deliverOne i u lba d s) = deliveredBlocks i u lba (d :: data) s := by
  have later : (fun k d => ServerOut.block (lba + (k + 1)) d) = fun k d => .block (lba + 1 + k) d := by
    funext k d
    rw [Nat.add_assoc, Nat.add_comm k]
  simp [deliveredBlocks, deliverOne, toldMore, tell, State.countUnit, State.modSlot, State.modUnit,
    bumpBy_bump, later]

theorem deliveredBlocks_slot {lba : Nat} {data : List Block} {j : SlotId} :
    (deliveredBlocks i u lba data s).slot j = (toldMore i (data.mapIdx fun k d => .block (lba + k) d) s).slot j := by
  simp [deliveredBlocks, State.countUnit]

theorem deliveredBlocks_unit {lba : Nat} {data : List Block} :
    (deliveredBlocks i u lba data s).unit u = { s.unit u with counters := { (s.unit u).counters with
      delivered := bumpBy data.length (s.unit u).counters.delivered } } := by
  simp [deliveredBlocks, State.countUnit, toldMore]

theorem deliverOne_ready {lba : Nat} {d : Block} : (deliverOne i u lba d s).ready u = s.ready u :=
  ready_congr (fun _ => rfl) (by simp [deliverOne, State.countUnit, tell])

/-- A delivery goes up to the first block that is not ready. -/
theorem deliver_eq {rest : List Source} : ∀ {data : List Block} {xs : List Source} {lba : Nat} {s : State},
    xs.map (s.ready u) = data.map some → (∀ x, rest.head? = some x → s.ready u x = none) →
    deliver i u lba (xs ++ rest) s = ((lba + data.length, rest), deliveredBlocks i u lba data s) := by
  intro data
  induction data with
  | nil =>
    intro xs lba s all stop
    obtain rfl : xs = [] := by simpa using all
    rw [deliveredBlocks_nil]
    cases rest with
    | nil => rfl
    | cons x rest => simp [deliver, stop x rfl]
  | cons d data ih =>
    intro xs lba s all stop
    obtain _ | ⟨x, xs⟩ := xs
    · simp at all
    · obtain ⟨first, all⟩ := List.cons.inj all
      rw [List.cons_append, deliver, first]
      dsimp only
      rw [ih (by rw [deliverOne_ready]; exact all) (by rw [deliverOne_ready]; exact stop), deliveredBlocks_cons]
      simp [Nat.add_assoc, Nat.add_comm 1]

/-- Lines of a requester are unpinned, and its groups leave the Issue Queue. -/
theorem endRequester_eq {prime : Bool} {images : List Nat} : endRequester u prime images s = { s with
    cache := (endRequester u prime images s).cache
    fetch := { s.fetch with issue := s.fetch.issue.filter fun e =>
      !(decide (e.unit = u) && decide (e.prime = prime)) } } := by
  have pins : SameBlocks s ((groupsOf images).foldl
      (fun s g => s.modLine u g fun l => { l with pins := l.pins - 1 }) s) :=
    .foldl (f := fun s g => s.modLine u g fun l => { l with pins := l.pins - 1 })
      (fun _ _ => sameBlocks_modLine fun _ => ⟨rfl, rfl, rfl⟩) _ s
  unfold endRequester leaveIssue
  rw [pins.frame]

theorem endRequester_unit {prime : Bool} {images : List Nat} {v : UnitId} :
    (endRequester u prime images s).unit v = s.unit v := by
  rw [endRequester_eq]
  rfl

theorem endRequester_slot {prime : Bool} {images : List Nat} {j : SlotId} :
    (endRequester u prime images s).slot j = s.slot j := by
  rw [endRequester_eq]
  rfl

theorem endRequester_records {prime : Bool} {images : List Nat} :
    (endRequester u prime images s).fetch.records = s.fetch.records := by
  rw [endRequester_eq]

/-- A read that ends GOOD: what its port and its unit then show, before a detach. -/
def readGood (i : SlotId) (u : UnitId) (images : List Nat) (s : State) : State :=
  (endRequester u false images (setInFlight i none (tell i (.done .read .good) s))).countUnit u
    fun c => { c with readsGood := bump c.readsGood }

theorem finishRead_good {images : List Nat} :
    finishRead i u images .good s = afterRequest u (readGood i u images s) := rfl

theorem readGood_unit {images : List Nat} : (readGood i u images s).unit u = { s.unit u with
    counters := { (s.unit u).counters with readsGood := bump (s.unit u).counters.readsGood } } := by
  simp only [readGood, State.countUnit, modUnit_unit_same, endRequester_unit]
  simp [setInFlight, tell]

theorem readGood_slot {images : List Nat} {j : SlotId} : (readGood i u images s).slot j =
    if j = i then { s.slot i with port := { inFlight := none, out := (s.slot i).port.out ++ [.done .read .good] } }
    else s.slot j := by
  have : (readGood i u images s).slot j = (setInFlight i none (tell i (.done .read .good) s)).slot j := by
    rw [readGood, State.countUnit, modUnit_slot, endRequester_slot]
  rw [this, setInFlight, tell, modSlot_modSlot, modSlot_slot]
  by_cases h : j = i <;> simp [h]

/-- A read all of whose blocks are ready ends with all of them delivered. -/
theorem pumpRead_whole {lba : Nat} {xs : List Source} {images : List Nat} {data : List Block}
    (inFlight : (s.slot i).port.inFlight = some (.read lba xs images))
    (ready : xs.map (s.ready u) = data.map some) :
    pumpRead i u s = afterRequest u (readGood i u images
      (touchLines u (imagesIn xs) (deliveredBlocks i u lba data s))) := by
  have length : xs.length = data.length := by simpa using congrArg List.length ready
  have whole := deliver_eq (i := i) (rest := []) (lba := lba) ready (by simp)
  rw [List.append_nil] at whole
  unfold pumpRead
  rw [inFlight]
  dsimp only
  rw [whole]
  simp [finishRead_good, ← length]

theorem afterRequest_presenting (presenting : (s.unit u).state = .presenting) : afterRequest u s = s :=
  if_neg (by simp [presenting])

/-- What a port and its unit show after a read whose blocks were all ready. -/
theorem acceptRead_whole {first : Nat} {xs : List Source} {data : List Block}
    (presenting : (s.unit u).state = .presenting) (ready : xs.map (s.ready u) = data.map some) :
    ((acceptRead i u first xs s).slot i).port = {
        inFlight := none
        out := (s.slot i).port.out ++ data.mapIdx (fun k d => .block (first + k) d) ++ [.done .read .good] } ∧
      ((acceptRead i u first xs s).unit u).counters.readsGood = bump (s.unit u).counters.readsGood ∧
      ((acceptRead i u first xs s).unit u).counters.delivered = bumpBy data.length (s.unit u).counters.delivered ∧
      (acceptRead i u first xs s).fetch.records = s.fetch.records ∧
      ∀ j, j ≠ i → (acceptRead i u first xs s).slot j = s.slot j := by
  have some_ : ∀ x ∈ xs, s.ready u x ≠ none := by
    intro x hx none_
    have : none ∈ data.map some := ready ▸ none_ ▸ List.mem_map_of_mem hx
    simp at this
  have asked : SameBlocks (setInFlight i (some (.read first xs (imagesIn xs))) s)
      (handOver u false (imagesIn xs) (setInFlight i (some (.read first xs (imagesIn xs))) s)) :=
    sameBlocks_handOver (full_of_ready some_)
  unfold acceptRead
  dsimp only
  generalize handOver u false (imagesIn xs) (setInFlight i (some (.read first xs (imagesIn xs))) s) = z at asked ⊢
  have unit : z.unit u = s.unit u := asked.unit u
  have inFlight : (z.slot i).port.inFlight = some (.read first xs (imagesIn xs)) := by
    rw [asked.slot]
    simp [setInFlight]
  have still : xs.map (z.ready u) = data.map some := by
    rw [ready_congr (asked.blockAt u) (congrArg MediaUnit.overlay unit)]
    exact ready
  rw [pumpRead_whole inFlight still]
  have told := sameBlocks_touchLines (u := u) (images := imagesIn xs) (s := deliveredBlocks i u first data z)
  generalize touchLines u (imagesIn xs) (deliveredBlocks i u first data z) = y at told ⊢
  have unitY := (told.unit u).trans deliveredBlocks_unit
  rw [afterRequest_presenting (by rw [readGood_unit, unitY, unit]; exact presenting)]
  have moved := sameBlocks_touchLines (u := u) (images := imagesIn xs) (s := readGood i u (imagesIn xs) y)
  simp only [moved.slot, moved.unit, moved.fetch, readGood_unit, unitY, unit, readGood_slot, told.slot,
    deliveredBlocks_slot, if_true, true_and]
  refine ⟨?_, ?_, fun j hj => ?_⟩
  · simp [toldMore, asked.slot, setInFlight]
  · have records : (readGood i u (imagesIn xs) y).fetch.records = y.fetch.records :=
      (congrArg FetchTable.records countUnit_fetch).trans endRequester_records
    rw [records, told.fetch]
    simp [deliveredBlocks, toldMore, asked.fetch, setInFlight]
  · rw [if_neg hj]
    rw [toldMore, modSlot_slot_ne hj, asked.slot, setInFlight, modSlot_slot_ne hj]

theorem resolveAll_length {first count : Nat} {xs : List Source} (h : s.resolveAll u first count = some xs) :
    xs.length = count := by
  induction count generalizing first xs with
  | zero => simp_all [State.resolveAll]
  | succ n ih =>
    unfold State.resolveAll at h
    split at h
    · rename_i rest
      cases h
      simp [ih rest]
    · cases h

/-- Settles O41. -/
theorem readsDelivered : Obligations.ReadsDelivered := by
  unfold Obligations.ReadsDelivered
  intro i u first count s p
  have taken {t : State} (h : _ = t) : exec (.storageRead i first count) s = .next t :=
    congrArg Host.Outcome.next ((portTakes_presents p).trans h)
  refine ⟨fun positive most inside xs data resolved ready =>
      ⟨acceptRead i u first xs s, taken ?_, ?_⟩,
    fun positive most inside error => taken ?_, fun bad => taken ?_⟩
  · simp only [rangeGood_iff.mpr ⟨positive, most, inside⟩, resolved]
    rfl
  · have count : data.length = count := by
      rw [← resolveAll_length resolved]
      simpa using (congrArg List.length ready).symm
    rw [← count]
    exact acceptRead_whole p.2.1 ready
  · simp only [rangeGood_iff.mpr ⟨positive, most, inside⟩, error]
    rfl
  · have out : rangeGood first count (s.capacity u) = false := by
      rw [Bool.eq_false_iff, Ne, rangeGood_iff]
      omega
    simp only [out]
    rfl

end Sys2Proof.Machine
end

section
/-! PROOFS. Table writes that store their entry, and BRIDGE_CONTROL (chapter 11). -/

namespace Sys2Proof.Machine

open Sys2Proof

variable {s : State} {h : Header} {e : StationId} {w : WriteHead} {x : TableEntry}

/-! ## Table writes -/

/-- A write that is taken comes to its table's own rule. -/
theorem writeRule_taken {lo n : Nat} {own : Fin n → State → Answer} {good : Bool} (taken : WriteTaken h e w x s)
    (range : indexRange x = (lo, n)) (length : entryLength x = true → good = true) {k : Fin n}
    (at_ : w.index = k.val) :
    writeRule h lo n w good own e (placed h .tableWrite (hear e h.port s)) =
      own k (placed h .tableWrite (hear e h.port s)) := by
  obtain ⟨⟨-, -, -, -, exactBody⟩, admin, -, least, -, fields, idle⟩ := taken
  rw [range] at least
  unfold writeRule
  rw [station_placed_hear, admin, if_neg (by decide), if_neg (not_lt.mpr least), finOf_eq_some (i := k) at_.symm,
    length fields, exactBody]
  simp [idle]

theorem behind_modTables {f : Tables → Tables} : Behind (modTables f) :=
  ⟨fun s p => by cases p <;> exact le_rfl, fun s p n k x _ => by cases p <;> rfl⟩

/-- A write whose table's own rule stores and echoes an entry leaves its reply and the changed tables. -/
theorem write_stores {lo n : Nat} {own : Fin n → State → Answer} {good : Bool} {y : TableEntry}
    (f : Tables → Tables) (taken : WriteTaken h e w x s) (range : indexRange x = (lo, n))
    (length : entryLength x = true → good = true) {k : Fin n} (at_ : w.index = k.val)
    (answers : own k (placed h .tableWrite (hear e h.port s)) =
      written y (modTables f (placed h .tableWrite (hear e h.port s)))) :
    request h .tableWrite (writeRule h lo n w good own) s =
      { replied h .tableWrite .ok (.table y) (hear e h.port s) with tables := f s.tables } := by
  rw [request_behind taken.1 rfl behind_modTables ((writeRule_taken taken range length at_).trans answers), modTables]
  congr 2
  simp [replied, State.ownAppend]

/-- A write that its table's own rule refuses leaves its reply. -/
theorem write_refused {lo n : Nat} {own : Fin n → State → Answer} {good : Bool} {st : Status}
    (taken : WriteTaken h e w x s) (range : indexRange x = (lo, n))
    (length : entryLength x = true → good = true) {k : Fin n} (at_ : w.index = k.val)
    (refuses : own k (placed h .tableWrite (hear e h.port s)) = refuse st (placed h .tableWrite (hear e h.port s))) :
    request h .tableWrite (writeRule h lo n w good own) s = replied h .tableWrite st .none (hear e h.port s) :=
  request_replied taken.1 rfl ((writeRule_taken taken range length at_).trans refuses)

/-- A write of a table whose rule has no test but that of its fields. -/
theorem write_stored {α : Type} {lo n : Nat} {judged : Option α} {echo : α → TableEntry}
    {store : Fin n → α → Tables → Tables} {good : Bool} (taken : WriteTaken h e w x s)
    (range : indexRange x = (lo, n)) (length : entryLength x = true → good = true) {k : Fin n}
    (at_ : w.index = k.val) {y : α} (passes : judged = some y) :
    request h .tableWrite (writeRule h lo n w good fun k z => storeRule judged echo (store k) z) s =
      { replied h .tableWrite .ok (.table (echo y)) (hear e h.port s) with tables := store k y s.tables } :=
  write_stores (store k y) taken range length at_ (by rw [passes]; rfl)

theorem WriteTaken.codes (taken : WriteTaken h e w x s) : w.codesKnown = true := taken.2.2.1

theorem WriteTaken.below (taken : WriteTaken h e w x s) : w.index < (indexRange x).2 := taken.2.2.2.2.1

theorem unitState_placed_hear {k : MsgKind} (u : UnitId) :
    ((placed h k (hear e h.port s)).unit u).state = (s.unit u).state := by
  rw [placed_unit, hear_unit]

theorem profileInUse_placed_hear {k : MsgKind} (n : Nat) :
    profileInUse (placed h k (hear e h.port s)) n = profileInUse s n := by
  simp [profileInUse]

theorem judgeClass_some {c : Nat} (low : c ≤ 31) : judgeClass true c = some c := by simp [judgeClass, low]

theorem judgeRow_some {next : List Nat} (low : ∀ y ∈ next, y ≤ 511) : judgeRow true next = some next := by
  simpa [judgeRow] using low

theorem judgeStateAction_some {c : Nat} (low : c ≤ 31) : judgeStateAction true c = some c := by
  simp [judgeStateAction, low]

/-- Settles O57. -/
theorem entriesStored : Obligations.EntriesStored := by
  unfold Obligations.EntriesStored
  intro h e w s
  dsimp only
  refine ⟨fun x y i taken at_ judged => ?_, fun x y k taken at_ judged => ⟨fun free => ?_, fun used => ?_⟩,
    fun x taken low => ?_, fun x taken low => ?_, fun x taken low => ?_, fun x y taken judged => ?_,
    fun x y u taken at_ judged => ⟨fun detached => ?_, fun bound => ?_⟩,
    fun r y k taken at_ judged => ⟨fun detached apart => ?_, fun bad => ?_⟩,
    fun k taken at_ => ⟨fun detached => ?_, fun bound => ?_⟩, fun x y taken judged => ?_⟩
  all_goals have codes := taken.codes
  · exact congrArg Host.Outcome.next (write_stored taken rfl (by exact id) at_ (codes ▸ judged))
  · refine congrArg Host.Outcome.next (write_stores (fun t => { t with profiles := upd t.profiles k fun _ => y })
      taken rfl (by exact id) at_ ?_)
    rw [codes, profileInUse_placed_hear, free, judged]
    rfl
  · refine congrArg Host.Outcome.next (write_refused taken rfl (by exact id) at_ ?_)
    rw [codes, profileInUse_placed_hear, used]
    rfl
  · exact congrArg Host.Outcome.next (write_stored taken rfl (by exact id) (k := ⟨w.index, taken.below⟩) rfl
      (codes ▸ judgeClass_some low))
  · exact congrArg Host.Outcome.next (write_stored taken rfl (by exact id) (k := ⟨w.index, taken.below⟩) rfl
      (codes ▸ judgeRow_some low))
  · exact congrArg Host.Outcome.next (write_stored taken rfl (by exact id) (k := ⟨w.index, taken.below⟩) rfl
      (codes ▸ judgeStateAction_some low))
  · exact congrArg Host.Outcome.next (write_stored taken rfl (by exact id) (k := ⟨w.index, taken.below⟩) rfl
      (codes ▸ judged))
  · refine congrArg Host.Outcome.next (write_stores (fun t => { t with unitSetup := upd t.unitSetup u fun _ => y })
      taken rfl (by exact id) at_ ?_)
    rw [codes, judged]
    exact if_neg (not_not.mpr ((unitState_placed_hear u).trans detached))
  · refine congrArg Host.Outcome.next (write_refused taken rfl (by exact id) at_ ?_)
    rw [codes, judged]
    exact if_pos (by rwa [unitState_placed_hear])
  · refine congrArg Host.Outcome.next (write_stores (fun t => { t with maps := upd t.maps k fun _ => some y })
      taken rfl (by rw [codes]; exact id) at_ ?_)
    dsimp only
    rw [codes, judged, unitState_placed_hear, placed_tables, hear_tables, if_neg (not_not.mpr detached)]
    exact if_neg (by simp [apart])
  · refine congrArg Host.Outcome.next (write_refused taken rfl (by rw [codes]; exact id) at_ ?_)
    dsimp only
    rw [codes, judged, unitState_placed_hear, placed_tables, hear_tables]
    by_cases bound : (s.unit (mapUnit k)).state = .detached
    · rw [if_neg (not_not.mpr bound)]
      exact if_pos (bad.resolve_left (not_not.mpr bound))
    · exact if_pos bound
  · refine congrArg Host.Outcome.next (write_stores (fun t => { t with maps := upd t.maps k fun _ => none })
      taken rfl (by rw [codes]; exact id) at_ ?_)
    rw [codes, unitState_placed_hear, if_neg (not_not.mpr detached)]
    rfl
  · refine congrArg Host.Outcome.next (write_refused taken rfl (by rw [codes]; exact id) at_ ?_)
    rw [codes, unitState_placed_hear]
    exact if_pos bound
  · exact congrArg Host.Outcome.next (write_stored (k := ⟨w.index, taken.below⟩) taken rfl (by exact id) rfl
      (codes ▸ judged))

/-! ## BRIDGE_CONTROL (R197 to R199, R201) -/

section

variable {rule : State → Answer}

/-- A BRIDGE_CONTROL of an administrator comes to its form's rule. -/
theorem control_taken (admin : (s.station e).rights.admin = true) :
    controlRule rule e (placed h .bridgeControl (hear e h.port s)) =
      rule (placed h .bridgeControl (hear e h.port s)) := by
  rw [controlRule, station_placed_hear, admin]
  rfl

theorem control_denied (taken : Taken h e s) (no : (s.station e).rights.admin = false) :
    request h .bridgeControl (controlRule rule) s = replied h .bridgeControl .denied .none (hear e h.port s) := by
  refine request_replied taken rfl ?_
  rw [controlRule, station_placed_hear, no]
  rfl

theorem control_refused (taken : Taken h e s) (admin : (s.station e).rights.admin = true) {st : Status}
    {d : ReplyData} (refuses : rule (placed h .bridgeControl (hear e h.port s)) =
      ((st, d), placed h .bridgeControl (hear e h.port s))) :
    request h .bridgeControl (controlRule rule) s = replied h .bridgeControl st d (hear e h.port s) :=
  request_replied taken rfl ((control_taken admin).trans refuses)

/-- A form whose rule changes the state beside the ports leaves its reply and that change. -/
theorem control_changes (taken : Taken h e s) (admin : (s.station e).rights.admin = true) {st : Status}
    {d : ReplyData} {g : State → State} (beside : Beside g)
    (answers : rule (placed h .bridgeControl (hear e h.port s)) =
      ((st, d), g (placed h .bridgeControl (hear e h.port s)))) :
    request h .bridgeControl (controlRule rule) s = replied h .bridgeControl st d (g (hear e h.port s)) := by
  rw [replied_beside beside]
  exact request_behind taken rfl beside.behind ((control_taken admin).trans answers)

end

theorem saveOrRestart_false : s.saveOrRestart = false ↔ s.save = none ∧ s.restart = .none := by
  simp [State.saveOrRestart]

theorem saveOrRestart_placed_hear :
    (placed h .bridgeControl (hear e h.port s)).saveOrRestart = s.saveOrRestart := by
  simp [State.saveOrRestart]

theorem beside_saving {j : SaveJob} : Beside fun s => { s with save := some j, store := none } :=
  ⟨fun _ p _ => by cases p <;> rfl, fun _ _ => rfl, fun _ p => by cases p <;> rfl, fun _ => rfl, fun _ => rfl,
    fun _ => rfl, fun _ => rfl⟩

theorem beside_restart {p : RestartPhase} : Beside fun s => { s with restart := p } :=
  ⟨fun _ p _ => by cases p <;> rfl, fun _ _ => rfl, fun _ p => by cases p <;> rfl, fun _ => rfl, fun _ => rfl,
    fun _ => rfl, fun _ => rfl⟩

theorem beside_frameCounters {c : FrameCounters} : Beside fun s => { s with frameCounters := c } :=
  ⟨fun _ p _ => by cases p <;> rfl, fun _ _ => rfl, fun _ p => by cases p <;> rfl, fun _ => rfl, fun _ => rfl,
    fun _ => rfl, fun _ => rfl⟩

/-- COUNTERS of a group that exists. -/
theorem counters_read (taken : Taken h e s) (admin : (s.station e).rights.admin = true) {group : CounterGroup}
    {g : Group} (names : groupOf group = some (some g)) {clear : Bool} {r : CounterReport}
    (report : readGroup (placed h .bridgeControl (hear e h.port s)) g = r) (behind : Behind fun z => clearGroup z g)
    (after : ∀ d, clearGroup (replied h .bridgeControl .ok d (hear e h.port s)) g =
      replied h .bridgeControl .ok d (clearGroup (hear e h.port s) g)) :
    exec (.bridgeControlCounters h group clear) s = .next (replied h .bridgeControl .ok (.counters r)
      (if clear then clearGroup (hear e h.port s) g else hear e h.port s)) := by
  have exactBody := taken.2.2.2.2
  refine congrArg Host.Outcome.next ?_
  cases clear with
  | false =>
    refine control_refused taken admin ?_
    simp only [names, exactBody, report]
    rfl
  | true =>
    rw [if_pos rfl, ← after, ← report]
    refine request_behind taken rfl behind ((control_taken admin).trans ?_)
    simp only [names, exactBody]
    rfl

/-- COUNTERS of no group. -/
theorem counters_refused (taken : Taken h e s) (admin : (s.station e).rights.admin = true) {group : CounterGroup}
    {clear : Bool} {st : Status}
    (refuses : (groupOf group = none ∧ st = .unsupported) ∨ (groupOf group = some none ∧ st = .range)) :
    exec (.bridgeControlCounters h group clear) s =
      .next (replied h .bridgeControl st .none (hear e h.port s)) := by
  refine congrArg Host.Outcome.next (control_refused taken admin ?_)
  obtain ⟨names, rfl⟩ | ⟨names, rfl⟩ := refuses <;> rw [names] <;> rfl

theorem replied_countPort {k : MsgKind} {st : Status} {d : ReplyData} {p : Port} {f : PortCounters → PortCounters} :
    (replied h k st d s).countPort p f = replied h k st d (s.countPort p f) := by
  unfold replied State.countPort State.ownAppend
  simp only [replyFrame, State.ownFrame, modPort_tables]
  by_cases e : p = h.port
  · subst e
    rw [modPort_modPort, modPort_modPort]
  · exact (modPort_comm e)

theorem placed_portCounters {k : MsgKind} {p : Port} : ((placed h k s).port p).counters = (s.port p).counters ∧
    ((placed h k s).port p).up = (s.port p).up := by
  unfold placed State.ownAppend
  by_cases e : p = h.port
  · subst e
    simp
  · rw [modPort_port_ne e]
    exact ⟨rfl, rfl⟩

theorem hear_fetchCounters {p : Port} : (hear e p s).fetch.counters = s.fetch.counters := by
  have each : ∀ (t : State) (r : FetchRecord), (offerFetch t r).fetch.counters = t.fetch.counters := by
    intro t r
    unfold offerFetch
    split
    · rfl
    · dsimp only
      split_ifs
      · simp [State.modRecord, State.ownAppend]
      · rfl
  unfold hear
  dsimp only
  split_ifs
  · rfl
  · exact foldl_keeps (fun t : State => t.fetch.counters) _ (fun _ _ => by split_ifs <;> simp [each]) _ _

/-- Settles O58. -/
theorem controlsTaken : Obligations.ControlsTaken := by
  unfold Obligations.ControlsTaken
  refine ⟨fun s j saving => congrArg Host.Outcome.next (by rw [saving]), fun h e quote clear s taken => ?_⟩
  have exactBody := taken.2.2.2.2
  dsimp only
  refine ⟨fun no => ⟨fun cmd both => ?_, fun g => congrArg Host.Outcome.next (control_denied taken no)⟩,
    fun admin => ⟨fun free => ⟨?_, ?_⟩, fun busy cmd both => ?_, fun p => ?_, ?_, fun i => ?_, fun u => ?_, ?_, ?_, ?_,
      fun n big => ?_, fun n big => ?_, fun n big => ?_⟩⟩
  · simp only [List.mem_cons, List.not_mem_nil, or_false] at both
    obtain rfl | rfl := both
    all_goals exact congrArg Host.Outcome.next (control_denied taken no)
  · refine congrArg Host.Outcome.next (control_changes taken admin
      (beside_saving (j := { copy := s.tables, taken := s.now, due := s.now + 1500 })) ?_)
    rw [exactBody, saveOrRestart_placed_hear, saveOrRestart_false.mpr free]
    simp [State.after]
  · by_cases same : quote = s.restartCount
    · rw [if_pos same]
      refine congrArg Host.Outcome.next (control_changes taken admin (beside_restart (p := .pending)) ?_)
      rw [exactBody, saveOrRestart_placed_hear, saveOrRestart_false.mpr free]
      simp [same]
    · rw [if_neg same]
      refine congrArg Host.Outcome.next (control_refused taken admin ?_)
      rw [exactBody, saveOrRestart_placed_hear, saveOrRestart_false.mpr free]
      simp [same]
  · have running : s.saveOrRestart = true := by
      rw [← Bool.not_eq_false, saveOrRestart_false]
      exact busy
    simp only [List.mem_cons, List.not_mem_nil, or_false] at both
    obtain rfl | rfl := both
    all_goals
      refine congrArg Host.Outcome.next (control_refused taken admin ?_)
      rw [exactBody, saveOrRestart_placed_hear, running]
      rfl
  · refine counters_read taken admin (g := .port p) (by cases p <;> rfl) ?_ (behind_countPort (f := fun _ => {}))
      fun d => replied_countPort (f := fun _ => {})
    simp only [readGroup, placed_portCounters]
  · exact counters_read taken admin (g := .frame) rfl (by simp [readGroup]) beside_frameCounters.behind
      fun d => (replied_beside beside_frameCounters).symm
  · exact counters_read taken admin (g := .slot i) (by simp [groupOf, finOf]) (by simp [readGroup])
      beside_modSlot.behind fun d => (replied_beside beside_modSlot).symm
  · exact counters_read taken admin (g := .unit u) (by simp [groupOf, finOf]) (by simp [readGroup])
      beside_modUnit.behind fun d => (replied_beside beside_modUnit).symm
  · exact counters_read taken admin (g := .fetch) rfl (by simp [readGroup, hear_fetchCounters])
      (beside_fetch (f := fun x => { x with counters := {} })).behind
      fun d => (replied_beside (beside_fetch (f := fun x => { x with counters := {} }))).symm
  · have read := counters_read (clear := clear) taken admin (group := .inrush) (g := .inrush) rfl rfl
      (beside_modInrush (f := fun x => { x with counters := {} })).behind
      fun d => (replied_beside (beside_modInrush (f := fun x => { x with counters := {} }))).symm
    simpa [readGroup, inrushSnapshot, clearGroup, State.modInrush] using read
  · exact counters_refused taken admin (.inl ⟨rfl, rfl⟩)
  · refine counters_refused taken admin (.inr ⟨?_, rfl⟩)
    rw [groupOf, if_neg (by omega), if_neg (by omega)]
  · exact counters_refused taken admin (.inr ⟨by rw [groupOf, finOf_eq_none big]; rfl, rfl⟩)
  · exact counters_refused taken admin (.inr ⟨by rw [groupOf, finOf_eq_none big]; rfl, rfl⟩)

end Sys2Proof.Machine
end

section
/-! PROOFS. A FEED that is dropped, and SLOT_SETUP writes (chapters 1 and 5). -/

namespace Sys2Proof.Machine

open Sys2Proof

variable {s : State} {i : SlotId}

/-! ## The drop of FEED (R6, R14, R80, R126) -/

/-- A slot whose FEED has been dropped before observed power follows. -/
def feedDown (now : Time) (x : Slot) : Slot :=
  { x with
    lines := { x.lines with feed := false }
    record := { x.record with feedDropped := some now }
    coldMark := false }

/-- A slot whose FEED has been dropped and that observes FEED_OFF. -/
def feedLost (now : Time) (x : Slot) : Slot :=
  { x with
    record := { x.record with
      observed := .feedOff
      resetWhileOn := if x.record.observed = .on then false else x.record.resetWhileOn
      feedDropped := some now }
    silence := if x.record.observed = .on then {} else x.silence
    lines := { x.lines with feed := false }
    coldMark := false }

/-- The notice of a FEED that has been dropped. -/
def lostNotice (i : SlotId) (r : SlotRecord) (s : State) : State :=
  s.notify (some i) (.powerChanged r.observed .feedOff false r.bootCount r.lastCause)

section

variable {boot : SlotId → Power → State → State} {left : SlotId → State → State}

/-- A drop that no sequence hears. -/
theorem dropFeed_lost (feed : (s.slot i).lines.feed = true) (powered : (s.slot i).record.observed ≠ .feedOff)
    (deaf : ∀ z, (z.slot i).seq = (s.slot i).seq → left i z = z) :
    dropFeed boot left i s = lostNotice i (s.slot i).record (s.modSlot i (feedLost s.now)) := by
  unfold dropFeed deriveObserved
  rw [if_pos feed]
  simp only [modSlot_slot_same, observe, Bool.false_eq_true, if_false, modSlot_modSlot]
  rw [if_neg powered.symm, if_neg (by decide)]
  split_ifs with on
  · rw [deaf, restartSilence, modSlot_notify, modSlot_modSlot]
    · exact congrArg (lostNotice i _) (modSlot_congr (by simp [feedLost, on]))
    · simp [restartSilence]
  · exact congrArg (lostNotice i _) (modSlot_congr (by simp [feedLost, on]))

theorem dropFeed_cold (feed : (s.slot i).lines.feed = true) (off : (s.slot i).record.observed = .feedOff) :
    dropFeed boot left i s = s.modSlot i (feedDown s.now) := by
  unfold dropFeed deriveObserved
  rw [if_pos feed]
  simp only [modSlot_slot_same, observe, Bool.false_eq_true, if_false]
  rw [if_pos off.symm]
  rfl

theorem dropFeed_down (feed : (s.slot i).lines.feed = false) : dropFeed boot left i s = s :=
  if_neg (by simp [feed])

end

theorem meetLow_quiet (quiet : seqBusy (s.slot i).seq.state = false) : meetLow i s = s := by
  have none_ (st : Step) : s.currentIs i st = false := by
    have idle : (s.slot i).seq.state ≠ .stepping := fun e => by simp [e, seqBusy] at quiet
    unfold State.currentIs
    split <;> simp [idle]
  rw [meetLow, none_, none_]
  rfl

/-! ## SLOT_SETUP (R19, R62, R77, R81, R84) -/

/-- A slot whose PG filter is restarted under a setup. -/
def filterRestarted (c : SlotSetup) (now : Time) (x : Slot) : Slot :=
  { x with pg := { x.pg with
    due := if (x.pg.pin == c.pgHigh) = x.pg.filtered then none
      else some (now + BitVec.ofNat 32 (max 1 c.pgFilter)) } }

theorem restartFilter_eq : restartFilter i s = s.modSlot i (filterRestarted (s.setup i) s.now) :=
  modSlot_congr rfl

/-- A slot after a taken SLOT_SETUP write, but for a drop of FEED. -/
def setupTaken (old new : SlotSetup) (due : Time) (x : Slot) : Slot :=
  { x with
    matcher := if old.matchEnable = false ∧ new.matchEnable = true then
        { x.matcher with state := new.startState } else x.matcher
    silence := if silenceChanged old new then {} else x.silence
    pg := if pgChanged old new then
        { x.pg with due := if (x.pg.pin == new.pgHigh) = x.pg.filtered then none else some due }
      else x.pg }

/-- The change of a SLOT_SETUP write to the slot and its table. -/
def setupStored (i : SlotId) (old new : SlotSetup) (due : Time) (s : State) : State :=
  modTables (fun t => { t with slotSetup := upd t.slotSetup i fun _ => new }) (s.modSlot i (setupTaken old new due))

theorem ite_modSlot {c : Prop} [Decidable c] {f : Slot → Slot} :
    (if c then s.modSlot i f else s) = s.modSlot i fun x => if c then f x else x := by
  split_ifs
  · rfl
  · exact (modSlot_self rfl).symm

theorem takeSlotSetup_eq {new : SlotSetup} : takeSlotSetup i new s =
    let stored := setupStored i (s.setup i) new (s.after new.pgFilter) s
    if (s.setup i).feed.enable && !new.feed.enable then dropFeed observeBoot meetLow i stored else stored := by
  have setup (f : Slot → Slot) : ((modTables (fun t => { t with slotSetup := upd t.slotSetup i fun _ => new })
      s).modSlot i f).setup i = new := by
    simp [modTables, State.setup]
  have now (f : Slot → Slot) : ((modTables (fun t => { t with slotSetup := upd t.slotSetup i fun _ => new })
      s).modSlot i f).now = s.now := rfl
  have changes : (let z := modTables (fun t => { t with slotSetup := upd t.slotSetup i fun _ => new }) s
      let z := if !(s.setup i).matchEnable && new.matchEnable then setMatchState i new.startState z else z
      let z := if silenceChanged (s.setup i) new then restartSilence i z else z
      if pgChanged (s.setup i) new then restartFilter i z else z) =
        setupStored i (s.setup i) new (s.after new.pgFilter) s := by
    have swap (f : Slot → Slot) : (modTables (fun t => { t with slotSetup := upd t.slotSetup i fun _ => new })
        s).modSlot i f = modTables (fun t => { t with slotSetup := upd t.slotSetup i fun _ => new })
          (s.modSlot i f) := rfl
    dsimp only
    rw [setMatchState, ite_modSlot, restartSilence, ite_modSlot, modSlot_modSlot, restartFilter_eq, setup, now,
      ite_modSlot, modSlot_modSlot, swap, setupStored]
    refine congrArg _ (modSlot_congr ?_)
    unfold setupTaken filterRestarted
    cases (s.setup i).matchEnable <;> cases new.matchEnable <;> cases silenceChanged (s.setup i) new <;>
      cases pgChanged (s.setup i) new <;> rfl
  exact congrArg (fun z => if (s.setup i).feed.enable && !new.feed.enable then dropFeed observeBoot meetLow i z else z)
    changes

theorem setup_placed_hear {h : Header} {k : MsgKind} {e : StationId} :
    (placed h k (hear e h.port s)).setup i = s.setup i := by
  rw [State.setup, placed_tables, hear_tables, State.setup]

theorem setupForbidden_placed_hear {h : Header} {k : MsgKind} {e : StationId} {new : SlotSetup} :
    setupForbidden (placed h k (hear e h.port s)) i new = setupForbidden s i new := by
  unfold setupForbidden
  rw [setup_placed_hear, placed_slot, hear_slot]

/-- A write that changes the enable of FEED is taken of an idle sequencer alone (R81). -/
theorem quiet_of_setupForbidden {new : SlotSetup} (fine : setupForbidden s i new = false)
    (changed : (s.setup i).feed.enable ≠ new.feed.enable) : seqBusy (s.slot i).seq.state = false := by
  simp only [setupForbidden, Bool.or_eq_false_iff, Bool.and_eq_false_iff, decide_eq_false_iff_not] at fine
  exact fine.2.resolve_left (not_not.mpr changed)

theorem setupStored_slot {old new : SlotSetup} {due : Time} {j : SlotId} : (setupStored i old new due s).slot j =
    if j = i then setupTaken old new due (s.slot j) else s.slot j := modSlot_slot

theorem setupStored_setup {old new : SlotSetup} {due : Time} : (setupStored i old new due s).setup i = new := by
  simp [setupStored, modTables, State.setup]

theorem behind_setupStored {old new : SlotSetup} {due : Time} : Behind (setupStored i old new due) :=
  behind_modTables.comp beside_modSlot.behind

theorem behind_lostNotice {r : SlotRecord} {f : Slot → Slot} : Behind fun s => lostNotice i r (s.modSlot i f) :=
  behind_notify.comp beside_modSlot.behind

section

variable {h : Header} {e : StationId} {w : WriteHead} {x y : SlotSetup}

/-- A SLOT_SETUP write that is taken leaves its reply and behind it the changes of the write. -/
theorem exec_slotSetup (taken : WriteTaken h e w (.slotSetup x) s) (at_ : w.index = i.val)
    (judged : judgeSlotSetup true x = some y) (fine : setupForbidden s i y = false) {F : State → State}
    (behind : Behind F)
    (changes : takeSlotSetup i y (placed h .tableWrite (hear e h.port s)) =
      F (placed h .tableWrite (hear e h.port s))) :
    exec (.tableWriteSlotSetup h w x) s =
      .next (F (replied h .tableWrite .ok (.table (.slotSetup y)) (hear e h.port s))) := by
  refine congrArg Host.Outcome.next (request_behind taken.1 rfl behind
    ((writeRule_taken taken rfl (fun _ => rfl) at_).trans ?_))
  rw [taken.codes, judged]
  dsimp only
  rw [setupForbidden_placed_hear, fine, changes]
  rfl

theorem takeSlotSetup_placed : takeSlotSetup i y (placed h .tableWrite (hear e h.port s)) =
    let stored := setupStored i (s.setup i) y (s.after y.pgFilter) (placed h .tableWrite (hear e h.port s))
    if (s.setup i).feed.enable && !y.feed.enable then dropFeed observeBoot meetLow i stored else stored := by
  rw [takeSlotSetup_eq, setup_placed_hear, State.after, placed_now, hear_now, State.after]

/-- What the reply and a SLOT_SETUP write leave is what the write leaves with the reply. -/
theorem setupStored_replied {st : Status} {d : ReplyData} {old : SlotSetup} {due : Time} :
    setupStored i old y due (replied h .tableWrite st d (hear e h.port s)) =
      { replied h .tableWrite st d ((hear e h.port s).modSlot i (setupTaken old y due)) with
        tables := { s.tables with slotSetup := upd s.tables.slotSetup i fun _ => y } } := by
  rw [replied_modSlot, setupStored, modTables]
  congr 1
  simp [replied, State.ownAppend]

end

/-- Settles O56. -/
theorem slotSetupWritten : Obligations.SlotSetupWritten := by
  unfold Obligations.SlotSetupWritten
  intro h e i w x y s taken at_ judged
  dsimp only
  refine ⟨fun forbidden => ?_, fun fine kept => ?_, fun fine raised enabled disabled => ?_⟩
  · refine congrArg Host.Outcome.next (write_refused taken rfl (fun _ => rfl) at_ ?_)
    rw [taken.codes, judged]
    dsimp only
    rw [setupForbidden_placed_hear, forbidden]
    rfl
  · refine (exec_slotSetup taken at_ judged fine
      (behind_setupStored (i := i) (old := s.setup i) (due := s.after y.pgFilter)) ?_).trans
        (congrArg Host.Outcome.next setupStored_replied)
    rw [takeSlotSetup_placed]
    dsimp only
    split_ifs with dropped
    · obtain down | off | on := kept
      · exact dropFeed_down (by rw [setupStored_slot, if_pos rfl, placed_slot, hear_slot]; exact down)
      · simp [off] at dropped
      · simp [on] at dropped
    · rfl
  · have quiet : seqBusy (s.slot i).seq.state = false :=
      quiet_of_setupForbidden fine (by rw [enabled, disabled]; decide)
    have slot : (setupStored i (s.setup i) y (s.after y.pgFilter) (placed h .tableWrite (hear e h.port s))).slot i =
        setupTaken (s.setup i) y (s.after y.pgFilter) (s.slot i) := by
      rw [setupStored_slot, if_pos rfl, placed_slot, hear_slot]
    have dropped : ((s.setup i).feed.enable && !y.feed.enable) = true := by rw [enabled, disabled]; rfl
    have lost (powered : (s.slot i).record.observed ≠ .feedOff) : exec (.tableWriteSlotSetup h w x) s =
        .next (lostNotice i (s.slot i).record ((setupStored i (s.setup i) y (s.after y.pgFilter)
          (replied h .tableWrite .ok (.table (.slotSetup y)) (hear e h.port s))).modSlot i (feedLost s.now))) := by
      refine exec_slotSetup taken at_ judged fine (behind_lostNotice.comp behind_setupStored) ?_
      rw [takeSlotSetup_placed]
      dsimp only
      rw [if_pos dropped, dropFeed_lost (by rw [slot]; exact raised) (by rw [slot]; exact powered), slot]
      · simp [setupStored, modTables, setupTaken]
      · exact fun z same => meetLow_quiet (by rw [same, slot]; exact quiet)
    refine ⟨?_, fun powered => (lost powered).trans ?_⟩
    · by_cases off : (s.slot i).record.observed = .feedOff
      · have cold : exec (.tableWriteSlotSetup h w x) s =
            .next ((setupStored i (s.setup i) y (s.after y.pgFilter)
              (replied h .tableWrite .ok (.table (.slotSetup y)) (hear e h.port s))).modSlot i (feedDown s.now)) := by
          refine exec_slotSetup taken at_ judged fine (beside_modSlot.behind.comp behind_setupStored) ?_
          rw [takeSlotSetup_placed]
          dsimp only
          rw [if_pos dropped, dropFeed_cold (by rw [slot]; exact raised) (by rw [slot]; exact off)]
          simp [setupStored, modTables]
        refine ⟨_, cold, ?_, ?_, ?_, ?_, setupStored_setup, fun j hj => ?_⟩
        · simp [setupStored_slot, setupTaken, feedDown]
        · simp [setupStored_slot, setupTaken, feedDown, off]
        · simp [feedDown]
        · simp [feedDown]
        · simp [setupStored_slot, modSlot_slot_ne hj, hj]
      · refine ⟨_, lost off, ?_, ?_, ?_, ?_, notify_setup.trans setupStored_setup, fun j hj => ?_⟩
        · simp [lostNotice, setupStored_slot, setupTaken, feedLost]
        · simp [lostNotice, feedLost]
        · simp [lostNotice, feedLost]
        · simp [lostNotice, feedLost]
        · simp [lostNotice, setupStored_slot, modSlot_slot_ne hj, hj]
    · rw [setupStored_replied]
      refine congrArg Host.Outcome.next (congrArg (lostNotice i _) (modSlot_congr ?_))
      rw [← setupStored_replied, setupStored_slot, if_pos rfl, replied_slot, hear_slot]
      rfl

end Sys2Proof.Machine
end

section
/-! PROOFS. Power-up and the bridge restart (chapter 11). -/

namespace Sys2Proof.Machine

open Sys2Proof

variable {s : State} {i : SlotId}

/-! ## Steps taken slot by slot -/

/-- Steps that each change one slot, taken in some order, change each slot once. -/
theorem foldl_slots {P : State → Prop} {step : State → SlotId → State} {F : SlotId → Slot → Slot}
    (keeps : ∀ s i, P s → P (step s i))
    (slot : ∀ s i j, P s → (step s i).slot j = if j = i then F i (s.slot i) else s.slot j) :
    ∀ (l : List SlotId) (s : State), l.Nodup → P s →
      P (l.foldl step s) ∧ ∀ j, (l.foldl step s).slot j = if j ∈ l then F j (s.slot j) else s.slot j
  | [], s, _, p => ⟨p, fun j => by simp⟩
  | i :: l, s, once, p => by
    obtain ⟨fresh, once⟩ := List.nodup_cons.mp once
    obtain ⟨kept, slots⟩ := foldl_slots keeps slot l (step s i) once (keeps s i p)
    refine ⟨kept, fun j => ?_⟩
    rw [List.foldl_cons, slots j, slot s i j p]
    by_cases same : j = i
    · subst same
      simp [fresh]
    · simp [same]

theorem eachSlot_slots {P : State → Prop} {step : State → SlotId → State} {F : SlotId → Slot → Slot}
    (keeps : ∀ s i, P s → P (step s i))
    (slot : ∀ s i j, P s → (step s i).slot j = if j = i then F i (s.slot i) else s.slot j) (p : P s) :
    P ((List.finRange 8).foldl step s) ∧ ∀ j, ((List.finRange 8).foldl step s).slot j = F j (s.slot j) := by
  obtain ⟨kept, slots⟩ := foldl_slots keeps slot (List.finRange 8) s (List.nodup_finRange 8) p
  exact ⟨kept, fun j => by rw [slots j, if_pos (List.mem_finRange j)]⟩

/-- Steps that agree on the states they come to agree when taken one after another. -/
theorem foldl_agrees {α : Type} {P : State → Prop} {f g : State → α → State} (keeps : ∀ s a, P s → P (g s a))
    (agree : ∀ s a, P s → f s a = g s a) : ∀ (l : List α) (s : State), P s → l.foldl f s = l.foldl g s
  | [], _, _ => rfl
  | a :: l, s, p => by
    rw [List.foldl_cons, List.foldl_cons, agree s a p]
    exact foldl_agrees keeps agree l _ (keeps s a p)

/-- The PG filters of all slots are restarted. -/
theorem filters_restarted : (List.finRange 8).foldl (fun s i => restartFilter i s) s =
    { s with slots := Vector.ofFn fun i => filterRestarted (s.setup i) s.now (s.slot i) } := by
  have keeps (t : State) (i : SlotId) (p : t = { s with slots := t.slots }) :
      restartFilter i t = { s with slots := (restartFilter i t).slots } := by
    rw [restartFilter_eq, p]
    rfl
  have slot (t : State) (i j : SlotId) (p : t = { s with slots := t.slots }) : (restartFilter i t).slot j =
      if j = i then filterRestarted (s.setup i) s.now (t.slot i) else t.slot j := by
    rw [restartFilter_eq, modSlot_slot, show t.setup i = s.setup i from by rw [p]; rfl,
      show t.now = s.now from by rw [p]]
    by_cases h : j = i <;> simp [h]
  obtain ⟨frame, slots⟩ := eachSlot_slots keeps slot (s := s) rfl
  rw [frame]
  congr 1
  apply Vector.ext
  intro j hj
  exact (slots ⟨j, hj⟩).trans (by simp)

/-! ## Ports that hold notices alone -/

/-- A port whose link state is `up` and that has taken in notices, or counted their copies, and nothing else. -/
def NoticePort (up : Bool) (x : PortState) : Prop :=
  x = { up, own := x.own, counters := { noticeDrop := x.counters.noticeDrop } } ∧
    ∀ f ∈ x.own, ∃ number time slot body, f.body = .notice number time slot body

theorem notify_noticePort {up : Bool} {p : Port} {o : Option SlotId} {b : NoticeBody} (h : NoticePort up (s.port p)) :
    NoticePort up ((s.notify o b).port p) := by
  obtain ⟨-, ports⟩ := noticesSent s o b
  obtain ⟨shape, notices⟩ := h
  have port := ports p
  dsimp only at port
  rw [port]
  refine ⟨?_, fun f hf => ?_⟩
  · rw [shape]
  · rcases List.mem_append.mp hf with hf | hf
    · exact notices f hf
    · obtain ⟨e, -, rfl⟩ := List.mem_map.mp hf
      exact ⟨_, _, _, _, rfl⟩

theorem noticePort_fresh {up : Bool} : NoticePort up { up } := ⟨rfl, by simp⟩

/-! ## Power-up (R200) -/

/-- The bridge after power-up, before BRIDGE_STARTED. -/
def poweredOn (s : State) : State := (List.finRange 8).foldl (fun s i => restartFilter i s) (poweredUp s)

theorem poweredOn_eq : poweredOn s = { poweredUp s with
    slots := Vector.ofFn fun i => filterRestarted ((loaded s.store).slotSetup[i]) 0
      (poweredSlot (loaded s.store).slotSetup[i] (s.slot i)) } := by
  rw [poweredOn, filters_restarted]
  simp only [poweredUp_slot]
  rfl

/-- A notice in a bridge whose ports are DOWN leaves the Own Queues empty. -/
theorem notify_down {p : Port} {o : Option SlotId} {b : NoticeBody} (down : s.port p = {}) :
    (s.notify o b).port p = { counters := { noticeDrop := ((s.notify o b).port p).counters.noticeDrop } } := by
  obtain ⟨-, ports⟩ := noticesSent s o b
  have port := ports p
  dsimp only at port
  rw [port, down]
  simp [ownSpace]

theorem notify_chain {o : Option SlotId} {b : NoticeBody} (unheard : ∀ k : StationId, s.lastPorts[k] = none) :
    ((s.notify o b).port .chain).counters.noticeDrop = (s.port .chain).counters.noticeDrop := by
  obtain ⟨-, ports⟩ := noticesSent s o b
  have port := ports .chain
  dsimp only at port
  have nobody : recipientsAt o .chain s = [] := by
    simp [recipientsAt, unheard]
  rw [port, nobody]
  simp

theorem poweredOn_slot : (poweredOn s).slot i = filterRestarted (loaded s.store).slotSetup[i] 0
    (poweredSlot (loaded s.store).slotSetup[i] (s.slot i)) := by
  rw [poweredOn_eq]
  simp [State.slot]

/-- Settles O60. -/
theorem poweredUp_holds : Obligations.PoweredUp := by
  unfold Obligations.PoweredUp
  intro s
  have on := poweredOn_eq (s := s)
  have frame := notify_frame (s := poweredOn s) (o := none) (b := .bridgeStarted 0 false s.store.isSome)
  have ports (p : Port) : (poweredOn s).port p = {} := by
    rw [on]
    cases p <;> rfl
  have unheard (k : StationId) : (poweredOn s).lastPorts[k] = none := by
    rw [on]
    simp [poweredUp, State.reset]
  have chain := notify_chain (o := none) (b := .bridgeStarted 0 false s.store.isSome) unheard
  refine ⟨(poweredOn s).notify none (.bridgeStarted 0 false s.store.isSome), ?_, ?_, ?_, ?_, ?_, ?_, ?_, ?_, ?_, ?_,
    ?_, ?_, ⟨poweredOn s, ?_, ?_, ?_, ports, rfl⟩, fun p => notify_down (ports p), chain.trans (by rw [ports]), ?_,
    fun k => ⟨?_, fun i => ?_⟩, fun u => ?_, ?_, ?_, ?_, ?_, fun i => ?_⟩
  case refine_1 =>
    refine congrArg Host.Outcome.next ?_
    show (poweredOn s).notify none (.bridgeStarted (poweredOn s).restartCount false (poweredOn s).storeValid) = _
    rw [on]
    rfl
  case refine_13 => rw [on]; rfl
  case refine_14 => exact notify_tables.symm
  case refine_15 => rw [on]; rfl
  case refine_17 => rw [notify_lastPorts, unheard]
  case refine_18 => simp [State.cursor, on, poweredUp, State.reset]
  case refine_19 => simp [on, poweredUp, State.reset, State.unit]
  case refine_24 =>
    dsimp only
    rw [notify_slot, poweredOn_slot, notify_setup,
      show (poweredOn s).setup i = (loaded s.store).slotSetup[i] by rw [on]; rfl]
    generalize (loaded s.store).slotSetup[i] = c
    refine ⟨?_, rfl, rfl, rfl, rfl, rfl, rfl, rfl, rfl, rfl, rfl, rfl, rfl, ?_, rfl, rfl⟩
    · cases feed : (c.feedAtPowerUp && c.feed.enable) <;> simp [filterRestarted, poweredSlot, observe, feed]
    · cases high : c.pgHigh <;> cases pin : (s.slot i).pg.pin <;> simp [filterRestarted, poweredSlot, pin, high]
  all_goals
    rw [frame, on]
    rfl

end Sys2Proof.Machine
end

section
/-! PROOFS. The bridge restart (R199). -/

namespace Sys2Proof.Machine

open Sys2Proof

variable {s z : State} {i : SlotId}

/-! ## The steps of a restart as one expression -/

theorem filterRestarted_restartedSlot {c : SlotSetup} {now : Time} {x : Slot} :
    filterRestarted c now (restartedSlot c x) = restartedTo c now x := by
  unfold filterRestarted restartedSlot restartedTo
  cases x.port.inFlight <;> rfl

theorem reportHalts_eq {old : State} : reportHalts old = restartHalt old := by
  funext s i
  unfold reportHalts restartHalt
  split
  · rename_i none_
    simp [none_]
  · rename_i r found
    simp only [found]
    split_ifs
    · simp only [State.post, State.count, modSlot_notify, modSlot_modSlot, endOf, modSlot_slot_same]
      rfl
    · rfl

theorem setClaims_restart (free : BootsFree i s) (quiet : Quiet i s) :
    setClaims observeBoot (fun l => { l with rstSeq := false, rstLocal := false }) i s = restartRelease i s := by
  unfold restartRelease
  dsimp only
  split_ifs with idle boots
  · obtain ⟨seq, loc⟩ : (s.slot i).lines.rstSeq = false ∧ (s.slot i).lines.rstLocal = false := by
      simpa [rstAsserted] using idle
    have lines : ({ (s.slot i).lines with rstSeq := false, rstLocal := false } : Lines) = (s.slot i).lines := by
      generalize (s.slot i).lines = l at seq loc
      cases l
      simp_all
    have same : s.modSlot i (fun x => { x with lines := { x.lines with rstSeq := false, rstLocal := false } }) = s :=
      modSlot_self (by rw [lines])
    unfold setClaims
    simp only [same, idle]
    rfl
  · rw [setClaims_releases (by simpa using idle) rfl, if_pos boots,
      observeBoot_free (by rw [modSlot_slot_same]; exact boots.1) (bootsFree_modSlot free)
        (by rw [Quiet, modSlot_slot_same]; exact quiet), bootSeen_cleared]
    rfl
  · rw [setClaims_releases (by simpa using idle) rfl, if_neg boots]
    rfl

theorem restartRelease_seq : ((restartRelease i s).slot i).seq = (s.slot i).seq := by
  unfold restartRelease bootNotice
  dsimp only
  split_ifs <;> simp [bootedSlot]

theorem restartLines_eq (free : BootsFree i s) (quiet : Quiet i s) :
    restartLines s i = restartDrop i (restartRelease i s) := by
  unfold restartLines
  dsimp only
  rw [setClaims_restart free quiet]
  have still : Quiet i (restartRelease i s) := by rw [Quiet, restartRelease_seq]; exact quiet
  generalize restartRelease i s = t at still
  unfold restartDrop
  dsimp only
  by_cases enable : (t.setup i).feed.enable = true
  · rw [if_pos enable, if_pos (.inr enable)]
  · rw [if_neg enable]
    cases feed : (t.slot i).lines.feed with
    | false => rw [if_pos (.inl rfl), dropFeed_down feed]
    | true =>
      rw [if_neg (by simp [enable])]
      by_cases off : (t.slot i).record.observed = .feedOff
      · rw [if_pos off]
        exact dropFeed_cold feed off
      · rw [if_neg off, dropFeed_lost feed off fun z same => meetLow_quiet (by rw [same]; exact still), modSlot_modSlot]
        exact congrArg (lostNotice i _) (modSlot_congr rfl)

/-! ## What a restart leaves -/

/-- A slot after the report of its sequence's halt. -/
def restartHalted (old : State) (now : Time) (i : SlotId) (x : Slot) : Slot :=
  match (old.slot i).seq.record with
  | some r =>
    if seqBusy (old.slot i).seq.state then
      { x with
        hist := postTo x.hist now (.sequence r.action (.halted .bridgeRestart))
        counters := { x.counters with halted := bump x.counters.halted } }
    else x
  | none => x

/-- A slot after a restart's release of RST_OUT. -/
def restartFreed (z : State) (i : SlotId) (x : Slot) : Slot :=
  if rstAsserted x.lines = false then x
  else if x.record.observed = .on ∧ x.record.resetWhileOn = true then
    bootedSlot i z (rstCleared (fun l => { l with rstSeq := false, rstLocal := false }) x)
  else rstCleared (fun l => { l with rstSeq := false, rstLocal := false }) x

/-- A slot after a restart's drop of FEED. -/
def restartDropped (z : State) (i : SlotId) (x : Slot) : Slot :=
  if x.lines.feed = false ∨ (z.setup i).feed.enable = true then x
  else if x.record.observed = .feedOff then feedDown z.now x
  else feedLost z.now x

/-- From `z`, a restart has changed nothing but slots, and sent nothing but notices. -/
structure Restarting (z t : State) : Prop where
  frame : t = { z with slots := t.slots, uplink := t.uplink, chain := t.chain, noticeNumber := t.noticeNumber }
  ports : ∀ p, NoticePort (z.port p).up (t.port p)

theorem Restarting.modSlot {f : Slot → Slot} (h : Restarting z s) : Restarting z (s.modSlot i f) where
  frame := by
    rw [h.frame]
    rfl
  ports p := by rw [modSlot_port]; exact h.ports p

theorem Restarting.notify {o : Option SlotId} {b : NoticeBody} (h : Restarting z s) : Restarting z (s.notify o b) where
  frame := by
    rw [notify_frame, h.frame]
  ports p := notify_noticePort (h.ports p)

theorem restarting_halt {old : State} (h : Restarting z s) : Restarting z (restartHalt old s i) := by
  unfold restartHalt
  split
  · split_ifs
    · exact h.modSlot.notify
    · exact h
  · exact h

theorem restarting_release (h : Restarting z s) : Restarting z (restartRelease i s) := by
  unfold restartRelease bootNotice
  dsimp only
  split_ifs
  · exact h
  · exact h.modSlot.notify
  · exact h.modSlot

theorem restarting_drop (h : Restarting z s) : Restarting z (restartDrop i s) := by
  unfold restartDrop
  dsimp only
  by_cases kept : (s.slot i).lines.feed = false ∨ (s.setup i).feed.enable = true
  · rw [if_pos kept]
    exact h
  · rw [if_neg kept]
    by_cases off : (s.slot i).record.observed = .feedOff
    · rw [if_pos off]
      exact h.modSlot
    · rw [if_neg off]
      exact h.modSlot.modSlot.notify

theorem Restarting.now (h : Restarting z s) : s.now = z.now := by rw [h.frame]

theorem Restarting.tables (h : Restarting z s) : s.tables = z.tables := by rw [h.frame]

theorem Restarting.setup (h : Restarting z s) (j : SlotId) : s.setup j = z.setup j := by
  rw [State.setup, h.tables, State.setup]

theorem Restarting.booted (h : Restarting z s) : bootedSlot i s = bootedSlot i z := by
  unfold bootedSlot State.console
  rw [h.now, h.setup, h.tables]

theorem restartHalt_slot {old : State} {j : SlotId} (h : Restarting z s) : (restartHalt old s i).slot j =
    if j = i then restartHalted old z.now i (s.slot i) else s.slot j := by
  unfold restartHalt restartHalted
  cases found : (old.slot i).seq.record with
  | none =>
    by_cases same : j = i <;> simp [same]
  | some r =>
    dsimp only
    by_cases busy : seqBusy (old.slot i).seq.state = true
    · rw [if_pos busy, if_pos busy, notify_slot, modSlot_slot, h.now]
      by_cases same : j = i <;> simp [same]
    · rw [if_neg busy, if_neg busy]
      by_cases same : j = i <;> simp [same]

theorem restartRelease_slot {j : SlotId} (h : Restarting z s) : (restartRelease i s).slot j =
    if j = i then restartFreed z i (s.slot i) else s.slot j := by
  unfold restartRelease restartFreed bootNotice
  rw [h.booted]
  by_cases same : j = i
  · subst same
    rw [if_pos rfl]
    dsimp only
    split_ifs
    · rfl
    · rw [notify_slot, modSlot_slot_same]
      rfl
    · rw [modSlot_slot_same]
      rfl
  · rw [if_neg same]
    dsimp only
    split_ifs
    · rfl
    · rw [notify_slot, modSlot_slot_ne same]
    · rw [modSlot_slot_ne same]

theorem restartDrop_slot {j : SlotId} (h : Restarting z s) : (restartDrop i s).slot j =
    if j = i then restartDropped z i (s.slot i) else s.slot j := by
  unfold restartDrop restartDropped
  dsimp only
  rw [h.setup, h.now]
  by_cases kept : (s.slot i).lines.feed = false ∨ (z.setup i).feed.enable = true
  · rw [if_pos kept, if_pos kept]
    by_cases same : j = i <;> simp [same]
  · rw [if_neg kept, if_neg kept]
    by_cases off : (s.slot i).record.observed = .feedOff
    · rw [if_pos off, if_pos off, modSlot_slot]
      by_cases same : j = i <;> simp [same, feedDown]
    · rw [if_neg off, if_neg off, notify_slot, modSlot_modSlot, modSlot_slot]
      by_cases same : j = i <;> simp [same, feedLost]

/-! ## The whole restart -/

/-- The bridge at a restart, before BRIDGE_STARTED. -/
def restartBegun (s : State) : State := { s with
  tables := s.store.getD factoryTables
  storeValid := s.store.isSome
  lastPorts := Vector.replicate 32 none
  cursors := Vector.replicate 32 (Vector.replicate 8 none)
  restartCount := s.restartCount + 1
  noticeNumber := 0
  restart := .none
  save := none
  slots := Vector.ofFn fun i => restartedTo (s.store.getD factoryTables).slotSetup[i] s.now (s.slot i)
  units := Vector.replicate 4 {}
  poolFree := 4096
  cache := []
  fetch := { lastId := s.fetch.lastId }
  inrush := {}
  uplink := { up := s.uplink.up }
  chain := { up := s.chain.up }
  frameCounters := {} }

/-- The bridge at a restart, with BRIDGE_STARTED sent. -/
def restartStarted (s : State) : State :=
  (restartBegun s).notify none (.bridgeStarted (s.restartCount + 1) true s.store.isSome)

theorem restartBegun_slot : (restartBegun s).slot i =
    restartedTo (s.store.getD factoryTables).slotSetup[i] s.now (s.slot i) := by
  simp [restartBegun, State.slot]

theorem restarting_started : Restarting (restartBegun s) (restartStarted s) :=
  Restarting.notify ⟨rfl, fun p => by cases p <;> exact noticePort_fresh⟩

/-- After the halts, no unit is bound and no sequence runs. -/
theorem restarted_idle (h : Restarting (restartBegun s) z)
    (quiet : ∀ j, seqBusy (z.slot j).seq.state = false) : BootsFree i z ∧ Quiet i z := by
  refine ⟨fun u bound => ?_, quiet i⟩
  have none_ : (z.unit u).slot = none := by
    rw [h.frame]
    simp [State.unit, restartBegun]
  rw [unitOf_eq_some bound] at none_
  cases none_

theorem restartHalted_seq {old : State} {now : Time} {x : Slot} : (restartHalted old now i x).seq = x.seq := by
  unfold restartHalted
  split
  · split_ifs <;> rfl
  · rfl

theorem restartedTo_quiet {c : SlotSetup} {now : Time} {x : Slot} :
    seqBusy (restartedTo c now x).seq.state = false := by
  unfold restartedTo
  dsimp only
  split_ifs <;> rfl

/-- The bridge at a restart, with the halts reported. -/
def restartReported (s : State) : State := (List.finRange 8).foldl (restartHalt s) (restartStarted s)

theorem restartReported_slots : Restarting (restartBegun s) (restartReported s) ∧
    ∀ j, (restartReported s).slot j = restartHalted s s.now j
      (restartedTo (s.store.getD factoryTables).slotSetup[j] s.now (s.slot j)) := by
  obtain ⟨kept, slots⟩ := eachSlot_slots (P := Restarting (restartBegun s))
    (fun _ _ h => restarting_halt h) (fun _ _ _ h => restartHalt_slot (old := s) h) restarting_started
  refine ⟨kept, fun j => (slots j).trans ?_⟩
  rw [restartStarted, notify_slot, restartBegun_slot]
  rfl

/-- The slot after the last two steps of a restart. -/
def restartEnded (z : State) (i : SlotId) (x : Slot) : Slot := restartDropped z i (restartFreed z i x)

theorem restartEnded_slot {j : SlotId} (h : Restarting z s) : (restartDrop i (restartRelease i s)).slot j =
    if j = i then restartEnded z i (s.slot i) else s.slot j := by
  rw [restartDrop_slot (restarting_release h), restartRelease_slot h, restartRelease_slot h, if_pos rfl]
  by_cases same : j = i
  · rw [if_pos same, if_pos same, restartEnded]
  · rw [if_neg same, if_neg same, if_neg same]

theorem restartEnded_seq {x : Slot} : (restartEnded z i x).seq = x.seq := by
  have freed : (restartFreed z i x).seq = x.seq := by
    unfold restartFreed
    split_ifs <;> rfl
  unfold restartEnded restartDropped
  split_ifs <;> exact freed

theorem takeRestart_eq : takeRestart s =
    (List.finRange 8).foldl (fun s i => restartDrop i (restartRelease i s)) (restartReported s) := by
  have begun : (List.finRange 8).foldl (fun s i => restartFilter i s)
      (restartBlocks (loadTables { s with restartCount := s.restartCount + 1, noticeNumber := 0 })) =
      restartBegun s := by
    rw [filters_restarted]
    simp only [restartBlocks_slot]
    exact congrArg (fun v => { restartBegun s with slots := v })
      (congrArg Vector.ofFn (funext fun i => filterRestarted_restartedSlot))
  obtain ⟨kept, slots⟩ := restartReported_slots (s := s)
  unfold takeRestart
  dsimp only
  rw [begun, reportHalts_eq]
  refine foldl_agrees (P := fun t => Restarting (restartBegun s) t ∧ ∀ j, seqBusy (t.slot j).seq.state = false)
    (fun t i ⟨h, quiet⟩ => ⟨restarting_drop (restarting_release h), fun j => ?_⟩)
    (fun t i ⟨h, quiet⟩ => ?_) _ _ ⟨kept, fun j => ?_⟩
  · rw [restartEnded_slot h]
    split_ifs with same
    · rw [restartEnded_seq]
      exact quiet i
    · exact quiet j
  · obtain ⟨free, idle⟩ := restarted_idle (i := i) h quiet
    exact restartLines_eq free idle
  · refine (congrArg (fun x : Slot => seqBusy x.seq.state) (slots j)).trans ?_
    rw [restartHalted_seq]
    exact restartedTo_quiet

/-- What a restart leaves. -/
theorem takeRestart_slots : Restarting (restartBegun s) (takeRestart s) ∧
    ∀ j, (takeRestart s).slot j = restartEnded (restartBegun s) j (restartHalted s s.now j
      (restartedTo (s.store.getD factoryTables).slotSetup[j] s.now (s.slot j))) := by
  obtain ⟨kept, slots⟩ := restartReported_slots (s := s)
  obtain ⟨ended, final⟩ := eachSlot_slots (P := Restarting (restartBegun s))
    (step := fun s i => restartDrop i (restartRelease i s)) (fun _ _ h => restarting_drop (restarting_release h))
    (fun _ _ _ h => restartEnded_slot h) kept
  rw [takeRestart_eq]
  exact ⟨ended, fun j => (final j).trans (by rw [slots])⟩

/-- What every step of a restart leaves as `restartedTo` has made it, for a slot that was `x`. -/
structure Emptied (c : SlotSetup) (x y : Slot) : Prop where
  hist : y.hist.next = x.hist.next ∧ y.hist.retained = x.hist.retained ∧ y.hist.ring = x.hist.ring
  rx : y.rx = .needMark false
  input : y.input = {}
  silence : y.silence = {}
  recovery : y.recovery = {}
  log : y.log = {}
  matcher : y.matcher = { state := c.startState }
  pwr : pwrAsserted y.lines = false
  buttons : y.pwrBtn.state = .released ∧ y.rstBtn.state = .released
  filtered : y.pg.filtered = x.pg.filtered
  seq : y.seq = { state := if seqBusy x.seq.state then .halted .bridgeRestart else .idle, record := none }
  inFlight : y.port.inFlight = none

section

variable {c : SlotSetup} {x y : Slot}

theorem emptied_restartedTo {now : Time} : Emptied c x (restartedTo c now x) where
  hist := ⟨rfl, rfl, rfl⟩
  rx := rfl
  input := rfl
  silence := rfl
  recovery := rfl
  log := rfl
  matcher := rfl
  pwr := rfl
  buttons := ⟨rfl, rfl⟩
  filtered := rfl
  seq := rfl
  inFlight := by
    unfold restartedTo
    cases h : x.port.inFlight <;> simp [h]

theorem Emptied.halted (h : Emptied c x y) {old : State} {now : Time} : Emptied c x (restartHalted old now i y) := by
  unfold restartHalted
  split
  · split_ifs
    · exact { h with }
    · exact h
  · exact h

/-- A boot observation of an emptied slot. -/
theorem Emptied.boots (h : Emptied c x y) (setup : z.setup i = c) :
    bootedSlot i z y = { y with
      record := booted y.record
      hist := postTo y.hist z.now (.boot (booted y.record).bootCount (booted y.record).lastCause) } := by
  have input : { y.input with items := [] } = y.input := by rw [h.input]
  have matcher : { y.matcher with state := c.startState } = y.matcher := by rw [h.matcher]
  have flushed : bumpBy y.input.items.length y.counters.flushed = y.counters.flushed := by
    rw [h.input]
    exact bumpBy_zero
  unfold bootedSlot
  rw [setup, input, matcher, flushed, ← h.silence]
  simp only [ite_self]

theorem Emptied.freed (h : Emptied c x y) (setup : z.setup i = c) : Emptied c x (restartFreed z i y) := by
  have cleared : Emptied c x (rstCleared (fun l => { l with rstSeq := false, rstLocal := false }) y) := { h with }
  unfold restartFreed
  split_ifs
  · exact h
  · rw [cleared.boots setup]
    exact { cleared with }
  · exact cleared

theorem Emptied.dropped (h : Emptied c x y) : Emptied c x (restartDropped z i y) := by
  unfold restartDropped
  split_ifs
  · exact h
  · exact { h with }
  · refine { h with silence := ?_ }
    simp [feedLost, h.silence]

end

section

variable {c : SlotSetup} {x y : Slot}

theorem restartHalted_shows {old : State} {now : Time} : let y := restartHalted old now i x
    y.lines = x.lines ∧ y.record = x.record ∧ y.counters =
      (if seqBusy (old.slot i).seq.state = true ∧ (old.slot i).seq.record ≠ none then
        { x.counters with halted := bump x.counters.halted } else x.counters) := by
  unfold restartHalted
  cases found : (old.slot i).seq.record with
  | none => simp
  | some r =>
    dsimp only
    by_cases busy : seqBusy (old.slot i).seq.state = true <;> simp [busy]

theorem restartFreed_shows (h : Emptied c x y) (setup : z.setup i = c) : let w := restartFreed z i y
    w.counters = y.counters ∧ rstAsserted w.lines = false ∧ w.lines.feed = y.lines.feed ∧
      (rstAsserted y.lines = false → w.record = y.record) := by
  have cleared : Emptied c x (rstCleared (fun l => { l with rstSeq := false, rstLocal := false }) y) := { h with }
  unfold restartFreed
  dsimp only
  split_ifs with idle boots
  · exact ⟨rfl, idle, rfl, fun _ => rfl⟩
  · rw [cleared.boots setup]
    exact ⟨rfl, rfl, rfl, fun h => absurd h idle⟩
  · exact ⟨rfl, rfl, rfl, fun h => absurd h idle⟩

theorem restartDropped_shows : let w := restartDropped z i y
    w.counters = y.counters ∧ rstAsserted w.lines = rstAsserted y.lines ∧
      w.lines.feed = (y.lines.feed && (z.setup i).feed.enable) ∧
      w.record.bootCount = y.record.bootCount ∧ w.record.pendingCause = y.record.pendingCause := by
  unfold restartDropped
  dsimp only
  by_cases kept : y.lines.feed = false ∨ (z.setup i).feed.enable = true
  · rw [if_pos kept]
    refine ⟨rfl, rfl, ?_, rfl, rfl⟩
    rcases kept with down | enable
    · simp [down]
    · simp [enable]
  · obtain ⟨-, enable⟩ := not_or.mp kept
    rw [if_neg kept]
    split_ifs <;> exact ⟨rfl, rfl, by simp [feedDown, feedLost, enable], rfl, rfl⟩

end

/-- What a slot shows after a restart. -/
theorem restartEnded_shows {c : SlotSetup} (setup : (restartBegun s).setup i = c) :
    let x := s.slot i
    let y := restartEnded (restartBegun s) i (restartHalted s s.now i (restartedTo c s.now x))
    y.hist.next = x.hist.next ∧ y.hist.retained = x.hist.retained ∧ y.hist.ring = x.hist.ring ∧
      y.rx = .needMark false ∧ y.input = {} ∧ y.silence = {} ∧ y.recovery = {} ∧ y.log = {} ∧
      y.matcher = { state := c.startState } ∧
      y.counters = (if seqBusy x.seq.state = true ∧ x.seq.record ≠ none then { halted := 1 } else {}) ∧
      pwrAsserted y.lines = false ∧ rstAsserted y.lines = false ∧
      y.lines.feed = (x.lines.feed && c.feed.enable) ∧
      y.pwrBtn.state = .released ∧ y.rstBtn.state = .released ∧ y.pg.filtered = x.pg.filtered ∧
      y.seq = { state := if seqBusy x.seq.state then .halted .bridgeRestart else .idle, record := none } ∧
      y.port.inFlight = none ∧
      (rstAsserted x.lines = false → y.record.bootCount = x.record.bootCount ∧
        y.record.pendingCause = x.record.pendingCause) := by
  dsimp only
  have halted : Emptied c (s.slot i) (restartHalted s s.now i (restartedTo c s.now (s.slot i))) :=
    emptied_restartedTo.halted
  have freed := halted.freed setup
  have ended : Emptied c (s.slot i)
      (restartEnded (restartBegun s) i (restartHalted s s.now i (restartedTo c s.now (s.slot i)))) := freed.dropped
  refine ⟨ended.hist.1, ended.hist.2.1, ended.hist.2.2, ended.rx, ended.input, ended.silence, ended.recovery, ended.log,
    ended.matcher, ?_, ended.pwr, ?_, ?_, ended.buttons.1, ended.buttons.2, ended.filtered, ended.seq, ended.inFlight,
    fun idle => ?_⟩
  all_goals
    obtain ⟨lines, record, counters⟩ := restartHalted_shows (old := s) (now := s.now) (i := i)
      (x := restartedTo c s.now (s.slot i))
    obtain ⟨freedCounters, freedRst, freedFeed, freedRecord⟩ := restartFreed_shows halted setup
    obtain ⟨endCounters, endRst, endFeed, endBoots, endCause⟩ := restartDropped_shows (z := restartBegun s) (i := i)
      (y := restartFreed (restartBegun s) i (restartHalted s s.now i (restartedTo c s.now (s.slot i))))
  · exact endCounters.trans (freedCounters.trans counters)
  · exact endRst.trans freedRst
  · refine endFeed.trans ?_
    rw [freedFeed, lines, setup]
    rfl
  · have same := (freedRecord (by rw [lines]; exact idle)).trans record
    exact ⟨endBoots.trans (congrArg SlotRecord.bootCount same),
      endCause.trans (congrArg SlotRecord.pendingCause same)⟩

/-- Settles O59. -/
theorem restartTaken : Obligations.RestartTaken := by
  unfold Obligations.RestartTaken
  intro s due
  obtain ⟨kept, slots⟩ := takeRestart_slots (s := s)
  refine ⟨takeRestart s, congrArg Host.Outcome.next (if_pos due), takeRestart_eq, ?_, ?_, ?_, ?_, ?_, ?_, fun u => ?_,
    ?_, ?_, ?_, ?_, ?_, fun p => ?_, fun k => ⟨?_, fun i => ?_⟩, fun i => ?_⟩
  case refine_7 =>
    rw [kept.frame]
    simp [State.unit, restartBegun]
  case refine_13 =>
    obtain ⟨shape, notices⟩ := kept.ports p
    refine ⟨(congrArg PortState.up shape).trans (by cases p <;> rfl), congrArg PortState.pass shape,
      congrArg PortState.sending shape, congrArg PortState.share shape, congrArg PortState.counters shape, notices⟩
  case refine_14 =>
    rw [kept.frame]
    simp [restartBegun]
  case refine_15 =>
    rw [kept.frame]
    simp [restartBegun, State.cursor]
  case refine_16 =>
    dsimp only
    have setup : (takeRestart s).setup i = (s.store.getD factoryTables).slotSetup[i] := by
      rw [kept.setup]
      rfl
    rw [slots i, setup]
    exact restartEnded_shows rfl
  all_goals
    rw [kept.frame]
    rfl

end Sys2Proof.Machine
end

section
/-! PROOFS. The steps of a sequence: what each does as it is entered, and how a run goes on from it
(R105 to R120). -/

namespace Sys2Proof.Machine

open Sys2Proof

variable {s t : State} {i : SlotId} {r : SeqRecord} {st : SeqState}

/-! ## The sequence of a slot -/

/-- The sequencer of a slot takes a value. -/
def setSeq (i : SlotId) (q : Sequencer) (s : State) : State := s.modSlot i fun x => { x with seq := q }

/-- A sequencer in STEPPING with a record. -/
def stepping (r : SeqRecord) : Sequencer := { state := .stepping, record := some r }

/-- The record as a step becomes the current one. -/
def entered (r : SeqRecord) (st : Step) (rest : List Step) : SeqRecord :=
  { r with current := st, steps := rest, deadline := none }

@[simp] theorem setSeq_seq {q : Sequencer} : ((setSeq i q s).slot i).seq = q := by simp [setSeq]

@[simp] theorem setSeq_setSeq {p q : Sequencer} : setSeq i q (setSeq i p s) = setSeq i q s := by
  rw [setSeq, setSeq, modSlot_modSlot]
  rfl

theorem setSeq_self {q : Sequencer} (h : (s.slot i).seq = q) : setSeq i q s = s := modSlot_self (by rw [← h])

theorem setSeq_modSlot {q : Sequencer} {f : Slot → Slot} :
    setSeq i q (s.modSlot i f) = s.modSlot i fun x => { f x with seq := q } := by
  rw [setSeq, modSlot_modSlot]

theorem setSeq_notify {q : Sequencer} {o : Option SlotId} {b : NoticeBody} :
    setSeq i q (s.notify o b) = (setSeq i q s).notify o b := modSlot_notify

theorem modSeq_setSeq {q : Sequencer} {f : Sequencer → Sequencer} : modSeq i f (setSeq i q s) = setSeq i (f q) s := by
  rw [modSeq, setSeq, setSeq, modSlot_modSlot]

theorem setSeq_seqProfile : (setSeq i { state := st, record := some r } s).seqProfile i = s.profile r.profile := by
  unfold State.seqProfile
  rw [setSeq_seq]
  rfl

theorem setSeq_record {q : Sequencer} : ((setSeq i q s).slot i).record = (s.slot i).record := by simp [setSeq]

theorem setSeq_lines {q : Sequencer} : ((setSeq i q s).slot i).lines = (s.slot i).lines := by simp [setSeq]

theorem setSeq_restOf : (setSeq i { state := st, record := some r } s).restOf i = r.steps := by
  unfold State.restOf
  rw [setSeq_seq]

theorem beginStep_setSeq {step : Step} {rest : List Step} :
    beginStep i step rest (setSeq i { state := st, record := some r } s) = setSeq i (stepping (entered r step rest)) s :=
  modSeq_setSeq

theorem armStep_setSeq {ms : Nat} : armStep i ms (setSeq i { state := st, record := some r } s) =
    setSeq i { state := st, record := some { r with deadline := some (s.after ms) } } s := by
  rw [armStep, modRecordOf, modSeq_setSeq]
  rfl

theorem setGate_setSeq {g : GateOutcome} : setGate i g (setSeq i { state := st, record := some r } s) =
    setSeq i { state := st, record := some { r with gate := some g } } s := by
  rw [setGate, modRecordOf, modSeq_setSeq]
  rfl

theorem setSeqState_setSeq {q : Sequencer} : setSeqState i st (setSeq i q s) = setSeq i { q with state := st } s :=
  modSeq_setSeq

/-! ## The end of a sequence (R118, R120) -/

theorem finished_setSeq {q : Sequencer} : finished i r (setSeq i q s) = finished i r s := by
  unfold finished
  rw [setSeq_record, setSeq, modSlot_modSlot]
  rfl

theorem finish_eq (h : (s.slot i).seq.record = some r) : finish i s = finished i r s := by
  unfold finish finished State.post State.count modSeq endOf
  rw [h]
  simp only [modSlot_notify, modSlot_modSlot, modSlot_slot_same]
  rfl

theorem finish_setSeq : finish i (setSeq i { state := st, record := some r } s) = finished i r s := by
  rw [finish_eq (r := r) (by rw [setSeq_seq]), finished_setSeq]

/-- A change of the claims that leaves RST_OUT as it is. -/
theorem setClaims_rstKept {boot : SlotId → Power → State → State} {f : Lines → Lines}
    (same : rstAsserted (f (s.slot i).lines) = rstAsserted (s.slot i).lines) :
    setClaims boot f i s = s.modSlot i fun x => { x with lines := f x.lines } := by
  unfold setClaims
  simp only [modSlot_slot_same, same]
  cases rstAsserted (s.slot i).lines <;> rfl

theorem withdraw_modSlot {f : Slot → Slot} : withdraw i (s.modSlot i f) = (withdraw i s).modSlot i f := by
  unfold withdraw
  by_cases h : (s.inrush.queue.any fun w => decide (w.slot = i)) = true
  · rw [if_pos h, if_pos (show ((s.modSlot i f).inrush.queue.any fun w => decide (w.slot = i)) = true from h)]
    rfl
  · rw [if_neg h, if_neg (show ¬ ((s.modSlot i f).inrush.queue.any fun w => decide (w.slot = i)) = true from h)]

theorem withdraw_modRecordOf {f : SeqRecord → SeqRecord} :
    withdraw i (modRecordOf i f s) = modRecordOf i f (withdraw i s) := withdraw_modSlot

/-- The halt of a sequence, but for its claims. -/
def haltEnded (i : SlotId) (why : HaltReason) (r : SeqRecord) (s : State) : State :=
  (s.modSlot i fun x => { x with
    seq := { state := .halted why, record := none }
    hist := postTo x.hist s.now (.sequence r.action (.halted why))
    counters := { x.counters with halted := bump x.counters.halted } }).notify
      (some i) (.sequenceHalted why (endFields r (some r.current) (s.slot i).record))

theorem haltedNow_eq {why : HaltReason} : haltedNow i why r s =
    haltEnded i why r (s.modSlot i fun x => { x with lines := { x.lines with pwrSeq := false } }) := by
  unfold haltedNow haltEnded
  rw [modSlot_modSlot, modSlot_slot_same]
  rfl

theorem halt_ends {why : HaltReason} (h : (s.slot i).seq.record = some r) : halt i why s =
    haltEnded i why r (setClaims bootInStep (fun l => { l with pwrSeq := false, rstSeq := false }) i
      (modRecordOf i (fun r => { r with deadline := none }) (withdraw i s))) := by
  unfold halt
  rw [h]
  dsimp only
  rw [withdraw_modRecordOf]
  unfold haltEnded State.post State.count modSeq endOf
  simp only [modSlot_notify, modSlot_modSlot, modSlot_slot_same]
  rfl

theorem haltEnded_setSeq {why : HaltReason} {q : Sequencer} :
    haltEnded i why r (setSeq i q s) = haltEnded i why r s := by
  unfold haltEnded
  rw [setSeq_record, setSeq, modSlot_modSlot]
  rfl

theorem modRecordOf_setSeq {f : SeqRecord → SeqRecord} : modRecordOf i f s =
    setSeq i { (s.slot i).seq with record := (s.slot i).seq.record.map f } s := modSlot_congr rfl

/-- A change of a slot that takes no part in its sequence. -/
theorem setSeq_apart {q : Sequencer} {g : Slot → Slot} (apart : ∀ x, g { x with seq := q } = { g x with seq := q }) :
    (setSeq i q s).modSlot i g = setSeq i q (s.modSlot i g) := by
  rw [setSeq, setSeq, modSlot_modSlot, modSlot_modSlot]
  exact modSlot_congr (apart _)

theorem bootsFree_setSeq {q : Sequencer} (free : BootsFree i s) : BootsFree i (setSeq i q s) := free

theorem bootSeen_setSeq {q : Sequencer} {before : Power} :
    bootSeen i before (setSeq i q s) = setSeq i q (bootSeen i before s) := by
  unfold bootSeen bootNotice
  rw [setSeq_notify, setSeq_record]
  refine congrArg (State.notify · _ _) ?_
  rw [setSeq, setSeq, modSlot_modSlot, modSlot_modSlot]
  rfl

/-- A sequence without a claim on RST_OUT halts. -/
theorem halt_free {why : HaltReason} (h : (s.slot i).seq.record = some r) (free : (s.slot i).lines.rstSeq = false) :
    halt i why s = haltedNow i why r (withdraw i s) := by
  have lines : ((modRecordOf i (fun r => { r with deadline := none }) (withdraw i s)).slot i).lines =
      (s.slot i).lines := by
    simp [modRecordOf, modSeq, withdraw_slot]
  rw [halt_ends h, setClaims_rstKept (by rw [lines]; simp [rstAsserted, free]), haltedNow_eq, modRecordOf_setSeq,
    setSeq_apart fun _ => rfl, haltEnded_setSeq]
  refine congrArg (haltEnded i why r) (modSlot_congr ?_)
  rw [withdraw_slot, ← free]

theorem halt_eq {why : HaltReason} (h : (s.slot i).seq.record = some r) (free : (s.slot i).lines.rstSeq = false)
    (absent : i ∉ waitingSlots s) : halt i why s = haltedNow i why r s := by
  rw [halt_free h free, withdraw_absent absent]

/-- A sequence with the only claim on RST_OUT halts. -/
theorem halt_released {why : HaltReason} (h : (s.slot i).seq.record = some r) (claim : (s.slot i).lines.rstSeq = true)
    (loc : (s.slot i).lines.rstLocal = false) (free : BootsFree i s) (absent : i ∉ waitingSlots s) :
    halt i why s = haltedNow i why r (rstReleased i s) := by
  rw [halt_ends h, withdraw_absent absent, haltedNow_eq, modRecordOf_setSeq,
    setClaims_releases (by rw [setSeq_lines]; simp [rstAsserted, claim]) (by rw [setSeq_lines]; simp [rstAsserted, loc]),
    setSeq_record, setSeq_apart fun _ => rfl]
  unfold rstReleased
  dsimp only
  split_ifs with boots
  · rw [bootInStep_free (by rw [setSeq_record, modSlot_slot_same]; exact boots.1)
      (bootsFree_setSeq (bootsFree_modSlot free)), bootSeen_setSeq, haltEnded_setSeq, bootSeen_cleared]
    unfold bootNotice
    rw [modSlot_notify, modSlot_modSlot]
    exact congrArg (haltEnded i why r) (congrArg (State.notify · _ _) (modSlot_congr rfl))
  · rw [haltEnded_setSeq, modSlot_modSlot]
    rfl

theorem haltedNow_setSeq {why : HaltReason} {q : Sequencer} : haltedNow i why r (setSeq i q s) = haltedNow i why r s := by
  rw [haltedNow_eq, haltedNow_eq, setSeq_apart fun _ => rfl, haltEnded_setSeq]

/-! ## Presses, expectations and dwells (R106, R107, R110, R111) -/

/-- PWR_OUT is claimed, or its claim withdrawn, by the sequence. -/
def pwrSet (b : Bool) (i : SlotId) (s : State) : State :=
  s.modSlot i fun x => { x with lines := { x.lines with pwrSeq := b } }

theorem setClaims_pwrSet {boot : SlotId → Power → State → State} {b : Bool} :
    setClaims boot (fun l => { l with pwrSeq := b }) i s = pwrSet b i s := setClaims_rstKept rfl

theorem pwrSet_setSeq {b : Bool} {q : Sequencer} : pwrSet b i (setSeq i q s) = setSeq i q (pwrSet b i s) :=
  setSeq_apart fun _ => rfl

theorem pressNow_setSeq {width : Nat} : pressNow i width (setSeq i { state := st, record := some r } s) =
    setSeq i { state := st, record := some { r with deadline := some (s.after width) } } (pwrSet true i s) := by
  rw [pressNow, setClaims_pwrSet, pwrSet_setSeq, armStep_setSeq]
  rfl

/-- The count of a skipped press (R108). -/
def pressSkipped (i : SlotId) (s : State) : State := s.count i fun c => { c with skipped := bump c.skipped }

theorem pressSkipped_setSeq {q : Sequencer} : pressSkipped i (setSeq i q s) = setSeq i q (pressSkipped i s) :=
  setSeq_apart fun _ => rfl

section

variable {rest : List Step}

theorem enter_press_stop (on : (s.slot i).record.observed = .on) :
    enterStep i (.press .stop) (setSeq i (stepping r) s) =
      .stop (setSeq i (stepping { r with deadline := some (s.after (s.profile r.profile).tapWidth) })
        (pwrSet true i s)) := by
  unfold enterStep stepping
  simp only [setSeq_record, pressMet, on, ne_eq, not_true, decide_false, Bool.false_eq_true, if_false, setSeq_seqProfile,
    pressNow_setSeq]

theorem enter_hold (on : (s.slot i).record.observed = .on) : enterStep i .hold (setSeq i (stepping r) s) =
    .stop (setSeq i (stepping { r with deadline := some (s.after (s.profile r.profile).holdWidth) })
      (pwrSet true i s)) := by
  unfold enterStep stepping
  simp only [setSeq_record, pressMet, on, ne_eq, not_true, decide_false, Bool.false_eq_true, if_false, setSeq_seqProfile,
    pressNow_setSeq]

/-- A press whose purpose is met is skipped. -/
theorem enter_press_met {role : PressRole} (met : pressMet role (s.slot i).record.observed = true) :
    enterStep i (.press role) (setSeq i (stepping r) s) = .skips (setSeq i (stepping r) (pressSkipped i s)) := by
  unfold enterStep
  simp only [setSeq_record, met, if_true]
  exact congrArg Entered.skips pressSkipped_setSeq

theorem enter_hold_met (off : (s.slot i).record.observed ≠ .on) :
    enterStep i .hold (setSeq i (stepping r) s) = .skips (setSeq i (stepping r) (pressSkipped i s)) := by
  unfold enterStep
  simp only [setSeq_record, pressMet, off, ne_eq, not_false_eq_true, decide_true, if_true]
  exact congrArg Entered.skips pressSkipped_setSeq

theorem enter_expectHigh_met (on : (s.slot i).record.observed = .on) :
    enterStep i .expectHigh (setSeq i (stepping r) s) = .ends (setSeq i (stepping r) s) := by
  unfold enterStep
  simp only [setSeq_record, on, if_true]

theorem enter_expectHigh (off : (s.slot i).record.observed ≠ .on) :
    enterStep i .expectHigh (setSeq i (stepping r) s) =
      .stop (setSeq i (stepping { r with deadline := some (s.after ((s.profile r.profile).onDeadline * 1000)) }) s) := by
  unfold enterStep stepping
  simp only [setSeq_record, off, if_false, setSeq_seqProfile, armStep_setSeq]

theorem enter_expectLow_met {soft : Bool} (off : (s.slot i).record.observed ≠ .on) :
    enterStep i (.expectLow soft) (setSeq i (stepping r) s) = .ends (setSeq i (stepping r) s) := by
  unfold enterStep
  simp only [setSeq_record, off, if_false]

theorem enter_expectLow {soft : Bool} (on : (s.slot i).record.observed = .on) :
    enterStep i (.expectLow soft) (setSeq i (stepping r) s) = .stop (setSeq i (stepping { r with
      deadline := some (s.after (if soft then (s.profile r.profile).softGrace * 1000 else 2000)) }) s) := by
  unfold enterStep stepping
  simp only [setSeq_record, on, if_true, setSeq_seqProfile, armStep_setSeq]

theorem enter_dwell {d : DwellKind} : enterStep i (.dwell d) (setSeq i (stepping r) s) =
    .stop (setSeq i (stepping { r with deadline := some (s.after (dwellTime d (s.profile r.profile))) }) s) := by
  unfold enterStep stepping
  simp only [setSeq_seqProfile, armStep_setSeq]

end

/-! ## The media gate (R112, R113) -/

theorem stepping_seqProfile : (setSeq i (stepping r) s).seqProfile i = s.profile r.profile := setSeq_seqProfile

theorem gateFails_waives (wait : (s.profile r.profile).gate ≠ .require) :
    gateFails i (setSeq i (stepping r) s) = .ends (setSeq i (stepping { r with gate := some .waived }) s) := by
  unfold gateFails
  rw [stepping_seqProfile, if_neg wait, stepping, setGate_setSeq]
  rfl

theorem gateFails_halts (require : (s.profile r.profile).gate = .require) :
    gateFails i (setSeq i (stepping r) s) = .stop (halt i .gateFailed (setSeq i (stepping r) s)) := by
  unfold gateFails
  rw [stepping_seqProfile, if_pos require]

/-- A GATE that fails as it is entered. -/
theorem enter_gate_fails (fails : GateFails (s.profile r.profile) i s) :
    enterStep i .gate (setSeq i (stepping r) s) = gateFails i (setSeq i (stepping r) s) := by
  obtain ⟨gated, u, bound, why⟩ := fails
  unfold enterStep enterGate
  rw [stepping_seqProfile, if_neg gated]
  dsimp only
  rw [show (setSeq i (stepping r) s).unitOf i = some u from bound]
  dsimp only
  rw [show (setSeq i (stepping r) s).unit u = s.unit u from rfl]
  by_cases presents : (s.unit u).state = .presenting
  · rw [if_pos presents]
    rcases why with off | failed | none
    · exact absurd presents off
    · rw [failed]
    · rw [none]
  · rw [if_neg presents]

theorem enter_gate_passes {g : GateOutcome} (passes : GatePasses g (s.profile r.profile) i s) :
    enterStep i .gate (setSeq i (stepping r) s) = .ends (setSeq i (stepping { r with gate := some g }) s) := by
  cases g with
  | notApplied =>
    unfold enterStep enterGate
    rw [stepping_seqProfile]
    dsimp only
    by_cases gated : (s.profile r.profile).gate = .none
    · rw [if_pos gated]
      exact congrArg Entered.ends setGate_setSeq
    · rw [if_neg gated, show (setSeq i (stepping r) s).unitOf i = none from passes.resolve_left gated]
      exact congrArg Entered.ends setGate_setSeq
  | primed =>
    obtain ⟨gated, u, bound, presents, primed⟩ := passes
    unfold enterStep enterGate
    rw [stepping_seqProfile]
    dsimp only
    rw [if_neg gated, show (setSeq i (stepping r) s).unitOf i = some u from bound]
    dsimp only
    rw [show (setSeq i (stepping r) s).unit u = s.unit u from rfl, if_pos presents, primed]
    exact congrArg Entered.ends setGate_setSeq
  | waived =>
    obtain ⟨wait, fails⟩ := passes
    rw [enter_gate_fails fails, gateFails_waives (by rw [wait]; decide)]

theorem enter_gate_waits (waits : GateWaits (s.profile r.profile) i s) :
    enterStep i .gate (setSeq i (stepping r) s) = .stop (setSeq i { state := .waitGate, record := some { r with
      deadline := some (s.after ((s.profile r.profile).gateWait * 1000)) } } s) := by
  obtain ⟨gated, u, bound, presents, running⟩ := waits
  unfold enterStep enterGate
  rw [stepping_seqProfile]
  dsimp only
  rw [if_neg gated, show (setSeq i (stepping r) s).unitOf i = some u from bound]
  dsimp only
  rw [show (setSeq i (stepping r) s).unit u = s.unit u from rfl, if_pos presents, running]
  dsimp only
  rw [setSeqState_setSeq]
  exact congrArg Entered.stop armStep_setSeq

theorem enter_gate_halts (fails : GateFails (s.profile r.profile) i s) (require : (s.profile r.profile).gate = .require) :
    enterStep i .gate (setSeq i (stepping r) s) = .stop (halt i .gateFailed (setSeq i (stepping r) s)) := by
  rw [enter_gate_fails fails, gateFails_halts require]

/-! ## The run of the steps (R105) -/

section

variable {tail : SlotId → State → State} {step : Step} {rest : List Step}

theorem runWith_cons (plain : step ≠ .powerOnTail) : runWith tail i (step :: rest) s =
    match enterStep i step (beginStep i step rest s) with
    | .stop s => s
    | .ends s => runWith tail i rest s
    | .skips s =>
      match rest with
      | [] => finish i s
      | _ :: more => runWith tail i more s :=
  (runWith.eq_3 tail i s step rest plain).trans rfl

theorem run_stops (plain : step ≠ .powerOnTail)
    (stops : enterStep i step (setSeq i (stepping (entered r step rest)) s) = .stop t) :
    runWith tail i (step :: rest) (setSeq i (stepping r) s) = t := by
  rw [runWith_cons plain, stepping, beginStep_setSeq, stops]

theorem run_ends (plain : step ≠ .powerOnTail)
    (ends : enterStep i step (setSeq i (stepping (entered r step rest)) s) = .ends t) :
    runWith tail i (step :: rest) (setSeq i (stepping r) s) = runWith tail i rest t := by
  rw [runWith_cons plain, stepping, beginStep_setSeq, ends]

theorem run_skips {next : Step} (plain : step ≠ .powerOnTail)
    (skips : enterStep i step (setSeq i (stepping (entered r step (next :: rest))) s) = .skips t) :
    runWith tail i (step :: next :: rest) (setSeq i (stepping r) s) = runWith tail i rest t := by
  rw [runWith_cons plain, stepping, beginStep_setSeq, skips]

theorem run_nil : runWith tail i [] (setSeq i (stepping r) s) = finished i r s := finish_setSeq

end

end Sys2Proof.Machine
end

section
/-! PROOFS. The steps of a sequence that move RST_OUT and FEED, and the charged steps (R8, R80, R109,
R125 to R132). -/

namespace Sys2Proof.Machine

open Sys2Proof

variable {s t : State} {i : SlotId} {r : SeqRecord} {st : SeqState} {q : Sequencer}

/-! ## RST_OUT (R79, R116) -/

/-- The sequence claims RST_OUT of a slot that is ON (R8). -/
def rstHeld (x : Slot) : Slot :=
  { x with
    record := { x.record with resetWhileOn := true }
    lines := { x.lines with rstSeq := true } }

theorem enter_assertRst (on : (s.slot i).record.observed = .on) (free : rstAsserted (s.slot i).lines = false) :
    enterStep i .assertRst (setSeq i q s) = .ends (setSeq i q (s.modSlot i rstHeld)) := by
  unfold enterStep
  dsimp only
  rw [setClaims_asserts (by rw [setSeq_lines]; exact free) (by simp [rstAsserted]), setSeq_apart fun _ => rfl]
  refine congrArg (fun z => Entered.ends (setSeq i q z)) (modSlot_congr ?_)
  rw [if_pos on]
  rfl

theorem rstReleased_setSeq : rstReleased i (setSeq i q s) = setSeq i q (rstReleased i s) := by
  unfold rstReleased
  dsimp only
  rw [setSeq_record]
  by_cases boots : (s.slot i).record.observed = .on ∧ (s.slot i).record.resetWhileOn = true
  · rw [if_pos boots, if_pos boots]
    unfold bootNotice
    rw [setSeq_notify, setSeq_apart fun _ => rfl]
    rfl
  · rw [if_neg boots, if_neg boots, setSeq_apart fun _ => rfl]

theorem enter_releaseRst (claim : (s.slot i).lines.rstSeq = true) (loc : (s.slot i).lines.rstLocal = false)
    (free : BootsFree i s) : enterStep i .releaseRst (setSeq i q s) = .ends (setSeq i q (rstReleased i s)) := by
  unfold enterStep
  dsimp only
  rw [setClaims_rstReleased (s := setSeq i q s) (by rw [setSeq_lines]; exact claim) (by rw [setSeq_lines]; exact loc)
    free, rstReleased_setSeq]

/-! ## FEED (R80, R117) -/

theorem enter_feedDrop_down (feed : (s.slot i).lines.feed = false) :
    enterStep i .feedDrop (setSeq i q s) = .ends (setSeq i q s) := by
  unfold enterStep
  dsimp only
  rw [dropFeed_down (by rw [setSeq_lines]; exact feed)]

theorem enter_feedDrop (feed : (s.slot i).lines.feed = true) (powered : (s.slot i).record.observed ≠ .feedOff) :
    enterStep i .feedDrop (setSeq i q s) =
      .ends (setSeq i q (lostNotice i (s.slot i).record (s.modSlot i (feedLost s.now)))) := by
  unfold enterStep
  dsimp only
  rw [dropFeed_lost (by rw [setSeq_lines]; exact feed) (by rw [setSeq_record]; exact powered) fun _ _ => rfl,
    setSeq_record, lostNotice, lostNotice, setSeq_notify, setSeq_apart fun _ => rfl]
  rfl

theorem enter_feedRestore_up (feed : (s.slot i).lines.feed = true) :
    enterStep i .feedRestore (setSeq i q s) = .ends (setSeq i q s) := by
  unfold enterStep
  dsimp only
  rw [if_pos (by rw [setSeq_lines]; exact feed)]

/-- FEED is raised, and the slot observes STANDBY with its notice (R5, R6, R80). -/
def raisedTo (i : SlotId) (s : State) : State :=
  (s.modSlot i feedRaised).notify (some i)
    (.powerChanged .feedOff .standby false (s.slot i).record.bootCount (s.slot i).record.lastCause)

/-- A slot in FEED_OFF whose PG line was last seen inactive. -/
def Dark (x : Slot) : Prop := x.lines.feed = false ∧ x.record.observed = .feedOff ∧ x.pg.filtered = false

theorem raiseFeed_dark {boot : SlotId → Power → State → State} {left : SlotId → State → State}
    (dark : Dark (s.slot i)) : raiseFeed boot left i s = raisedTo i s := by
  obtain ⟨feed, off, low⟩ := dark
  unfold raiseFeed deriveObserved raisedTo
  rw [if_neg (by rw [feed]; decide)]
  simp only [modSlot_slot_same, off, low, observe, modSlot_modSlot]
  rw [if_neg (by decide), if_neg (by decide), if_neg (by decide)]
  simp only [if_true, Bool.false_eq_true, if_false]
  refine congrArg (State.notify · _ _) (modSlot_congr ?_)
  unfold feedRaised
  simp

theorem raisedTo_setSeq : raisedTo i (setSeq i q s) = setSeq i q (raisedTo i s) := by
  unfold raisedTo
  rw [setSeq_notify, setSeq_record, setSeq_apart fun _ => rfl]

/-- A slot whose FEED is raised with its PG line active observes ON. -/
def feedRaisedOn (x : Slot) : Slot :=
  { x with record := { x.record with observed := .on }, lines := { x.lines with feed := true } }

theorem raiseFeed_boots {left : SlotId → State → State} (feed : (s.slot i).lines.feed = false)
    (off : (s.slot i).record.observed = .feedOff) (high : (s.slot i).pg.filtered = true) (free : BootsFree i s) :
    raiseFeed bootInStep left i s = bootSeen i .feedOff (s.modSlot i feedRaisedOn) := by
  unfold raiseFeed deriveObserved
  rw [if_neg (by rw [feed]; decide)]
  simp only [modSlot_slot_same, off, high, observe, modSlot_modSlot]
  rw [if_neg (by decide)]
  simp only [if_true]
  rw [bootInStep_free (by rw [modSlot_slot_same]) (bootsFree_modSlot free)]
  exact congrArg (bootSeen i .feedOff) (modSlot_congr rfl)

/-! ## A charged step without a charge (R109) -/

theorem executeCharged_press : executeCharged i .startPress (setSeq i { state := st, record := some r } s) =
    .stop (setSeq i (stepping { r with deadline := some (s.after (s.profile r.profile).tapWidth) })
      (pwrSet true i s)) := by
  unfold executeCharged
  rw [setSeqState_setSeq]
  dsimp only
  rw [pressNow_setSeq, setSeq_seqProfile]
  rfl

theorem executeCharged_feed (dark : Dark (s.slot i)) :
    executeCharged i .feedRestore (setSeq i { state := st, record := some r } s) =
      .ends (setSeq i (stepping r) (raisedTo i s)) := by
  unfold executeCharged
  rw [setSeqState_setSeq]
  dsimp only
  rw [raiseFeed_dark (by simpa [Dark, setSeq] using dark), raisedTo_setSeq]
  rfl

/-- The charge of a step is that of its slot, whatever its sequence. -/
theorem chargeOf_setSeq {kind : ChargeKind} {p : Profile} {now : Time} :
    chargeOf kind ((setSeq i q s).slot i) p now = chargeOf kind (s.slot i) p now := by
  rw [setSeq, modSlot_slot_same]
  rfl

theorem hand_free {kind : ChargeKind} (free : (chargeOf kind (s.slot i) (s.profile r.profile) s.now).1 = 0) :
    handToScheduler i kind (setSeq i (stepping r) s) = executeCharged i kind (setSeq i (stepping r) s) := by
  unfold handToScheduler
  rw [stepping_seqProfile, chargeOf_setSeq]
  exact if_pos free

/-! ## A charged step with a charge (R127 to R132) -/

/-- The place in the Inrush Queue of a step of slot `i`. -/
def waitingFor (i : SlotId) (kind : ChargeKind) (p : Profile) (s : State) : Waiting :=
  let c := chargeOf kind (s.slot i) p s.now
  { slot := i, kind, charge := c.1, settle := c.2 }

/-- A step behind others waits. -/
theorem hand_waits {kind : ChargeKind} (charged : (chargeOf kind (s.slot i) (s.profile r.profile) s.now).1 ≠ 0)
    (others : s.inrush.queue ≠ []) : handToScheduler i kind (setSeq i (stepping r) s) =
      .stop (joinQueue (waitingFor i kind (s.profile r.profile) s)
        (setSeq i { state := .waitBudget, record := some r } s)) := by
  unfold handToScheduler
  rw [stepping_seqProfile, chargeOf_setSeq]
  dsimp only
  rw [show (setSeq i (stepping r) s).now = s.now from rfl, if_neg charged,
    show (setSeq i (stepping r) s).inrush.queue.isEmpty = false from by
      simpa [setSeq, List.isEmpty_eq_false_iff] using others, setSeqState_setSeq]
  rfl

/-- A step that finds the queue empty is tested at once (R130). -/
theorem hand_tested {kind : ChargeKind} (charged : (chargeOf kind (s.slot i) (s.profile r.profile) s.now).1 ≠ 0)
    (first : s.inrush.queue = []) : handToScheduler i kind (setSeq i (stepping r) s) =
      let w := waitingFor i kind (s.profile r.profile) s
      let z := expireCharges (joinQueue w (setSeq i { state := .waitBudget, record := some r } s))
      if headPasses z w.charge then giveStart w z else .stop z := by
  unfold handToScheduler
  rw [stepping_seqProfile, chargeOf_setSeq]
  dsimp only
  rw [show (setSeq i (stepping r) s).now = s.now from rfl, if_neg charged,
    show (setSeq i (stepping r) s).inrush.queue.isEmpty = true from by simp [setSeq, first], setSeqState_setSeq]
  rfl

/-- No charge is active and no start is recorded. -/
def Unused (x : Inrush) : Prop := x.queue = [] ∧ x.active = [] ∧ x.last = none

/-- The account after the first start into an unused scheduler. -/
def firstStart (w : Waiting) (capacity : Nat) (now : Time) (x : Inrush) : Inrush :=
  { last := some now
    queue := []
    active := [{ slot := w.slot, kind := w.kind, charge := w.charge, settle := w.settle, start := now }]
    counters := { x.counters with
      joins := bump x.counters.joins
      started := bump x.counters.started
      oversized := if capacity < w.charge then bump x.counters.oversized else x.counters.oversized } }

/-- A step that finds the scheduler unused is given its start. -/
theorem hand_starts {kind : ChargeKind} (charged : (chargeOf kind (s.slot i) (s.profile r.profile) s.now).1 ≠ 0)
    (unused : Unused s.inrush) (cold : kind = .startPress → (s.slot i).record.observed ≠ .on) :
    handToScheduler i kind (setSeq i (stepping r) s) = executeCharged i kind
      (setSeq i { state := .waitBudget, record := some r } (s.modInrush
        (firstStart (waitingFor i kind (s.profile r.profile) s) s.tables.bridge.capacity s.now))) := by
  obtain ⟨first, idle, fresh⟩ := unused
  rw [hand_tested charged first]
  dsimp only
  rw [if_pos (by simp [headPasses, expireCharges, joinQueue, State.modInrush, setSeq, idle, fresh])]
  unfold giveStart
  rw [if_neg]
  · refine congrArg (executeCharged i kind) ?_
    simp [startCharge, expireCharges, joinQueue, State.modInrush, setSeq, idle, first, firstStart, waitingFor,
      State.modSlot]
    rfl
  · rintro ⟨press, on⟩
    refine cold press ?_
    simpa [expireCharges, joinQueue, State.modInrush, setSeq, waitingFor, State.slot, State.modSlot, upd] using on

end Sys2Proof.Machine
end

section
/-! PROOFS. POWER requests: the tests of a slot, the acceptance, and what stands beside and behind their
reply (R101 to R104). -/

namespace Sys2Proof.Machine

open Sys2Proof

variable {h : Header} {e : StationId} {i : SlotId} {profile : Option Nat} {q : Quote} {s z : State} {a : Action}

/-! ## A request's rule sees the state as it was -/

/-- A state in which a request's rule finds a slot, the units and the tables as they were. -/
structure SameView (i : SlotId) (s z : State) : Prop where
  slot : z.slot i = s.slot i
  tables : z.tables = s.tables
  now : z.now = s.now
  unit : ∀ u, z.unit u = { s.unit u with counters := (z.unit u).counters }

theorem sameView_placed_hear {k : MsgKind} : SameView i s (placed h k (hear e h.port s)) where
  slot := by simp
  tables := by simp
  now := by simp
  unit u := by rw [placed_unit]; exact hear_unit

theorem SameView.setup (l : SameView i s z) (j : SlotId) : z.setup j = s.setup j := by rw [State.setup, l.tables, State.setup]

theorem SameView.profileAt (l : SameView i s z) (n : Nat) : z.profile n = s.profile n := by
  rw [State.profile, l.tables, State.profile]

theorem SameView.after (l : SameView i s z) (n : Nat) : z.after n = s.after n := by rw [State.after, l.now, State.after]

theorem SameView.unitOf (l : SameView i s z) (j : SlotId) : z.unitOf j = s.unitOf j := by
  have slot (u : UnitId) : (z.unit u).slot = (s.unit u).slot := by rw [l.unit]
  simp only [State.unitOf, slot]

theorem SameView.state (l : SameView i s z) (u : UnitId) : (z.unit u).state = (s.unit u).state := by rw [l.unit]

theorem SameView.prime (l : SameView i s z) (u : UnitId) : (z.unit u).prime = (s.unit u).prime := by rw [l.unit]

theorem SameView.gateFails (l : SameView i s z) {p : Profile} : GateFails p i z ↔ GateFails p i s := by
  simp only [GateFails, l.unitOf, l.state, l.prime]

theorem SameView.gateWaits (l : SameView i s z) {p : Profile} : GateWaits p i z ↔ GateWaits p i s := by
  simp only [GateWaits, l.unitOf, l.state, l.prime]

theorem SameView.gatePasses (l : SameView i s z) {g : GateOutcome} {p : Profile} : GatePasses g p i z ↔ GatePasses g p i s := by
  cases g <;> simp only [GatePasses, l.gateFails, l.unitOf, l.state, l.prime]

theorem SameView.bootsFree (l : SameView i s z) (free : BootsFree i s) : BootsFree i z := by
  intro u bound presents
  rw [State.unitSetup, l.tables]
  exact free u (l.unitOf i ▸ bound) (l.state u ▸ presents)

theorem SameView.startedRecord (l : SameView i s z) {c : Step} {steps : List Step} {d : Option Time} :
    startedRecord a profile i z c steps d = startedRecord a profile i s c steps d := by
  simp only [Machine.startedRecord, usedProfile, l.setup, l.now]

/-! ## What reads the state stands behind the reply too -/

/-- What a filled reply leaves as it was. -/
def Unfilled {α : Type} (read : State → α) : Prop :=
  ∀ p n k x (s : State), read (fillReply p n k (x, s)) = read s

theorem unfilled_slot (i : SlotId) : Unfilled (·.slot i) := fun p _ _ _ _ => by cases p <;> rfl

theorem unfilled_now : Unfilled (·.now) := fun p _ _ _ _ => by cases p <;> rfl

theorem Behind.read {α : Type} {read : State → α} (kept : Unfilled read) {F : α → State → State}
    (h : ∀ a, Behind (F a)) : Behind fun s => F (read s) s where
  grows s p := (h (read s)).grows s p
  fill s p n k x hn := by
    rw [(h (read s)).fill s p n k x hn, kept]

theorem behind_modSlot {f : Slot → Slot} : Behind fun s => s.modSlot i f := beside_modSlot.behind

theorem behind_modInrush {f : Inrush → Inrush} : Behind fun s => s.modInrush f := beside_modInrush.behind

theorem behind_finished {r : SeqRecord} : Behind (finished i r) :=
  Behind.read (unfilled_now) (F := fun now s => (s.modSlot i fun x => { x with
      seq := {}
      hist := postTo x.hist now (.sequence r.action .done)
      counters := { x.counters with done := bump x.counters.done } }).notify
        (some i) (.sequenceDone (endFields r none (s.slot i).record))) fun now =>
    Behind.read (unfilled_slot i) (F := fun y s => (s.modSlot i fun x => { x with
      seq := {}
      hist := postTo x.hist now (.sequence r.action .done)
      counters := { x.counters with done := bump x.counters.done } }).notify
        (some i) (.sequenceDone (endFields r none y.record))) fun _ => behind_notify.comp behind_modSlot

theorem behind_haltEnded {why : HaltReason} {r : SeqRecord} : Behind (haltEnded i why r) :=
  Behind.read unfilled_now (F := fun now s => (s.modSlot i fun x => { x with
      seq := { state := .halted why, record := none }
      hist := postTo x.hist now (.sequence r.action (.halted why))
      counters := { x.counters with halted := bump x.counters.halted } }).notify
        (some i) (.sequenceHalted why (endFields r (some r.current) (s.slot i).record))) fun now =>
    Behind.read (unfilled_slot i) (F := fun y s => (s.modSlot i fun x => { x with
      seq := { state := .halted why, record := none }
      hist := postTo x.hist now (.sequence r.action (.halted why))
      counters := { x.counters with halted := bump x.counters.halted } }).notify
        (some i) (.sequenceHalted why (endFields r (some r.current) y.record)))
      fun _ => behind_notify.comp behind_modSlot

theorem behind_haltedNow {why : HaltReason} {r : SeqRecord} : Behind (haltedNow i why r) := by
  have eq : haltedNow i why r = fun s => haltEnded i why r
      (s.modSlot i fun x => { x with lines := { x.lines with pwrSeq := false } }) := funext fun s => haltedNow_eq
  rw [eq]
  exact behind_haltEnded.comp behind_modSlot

/-! ## The tests of a slot (R102) -/

theorem powerFailure_passes (passes : PowerPasses a profile q i s) (l : SameView i s z) :
    powerFailure a (s.profile (usedProfile profile i s)) q i z = none := by
  obtain ⟨control, lines, idle, free, quoted, fresh, on⟩ := passes
  have known : ¬ (q ≠ none ∧ q ≠ some (s.slot i).record.bootCount) := by
    rintro ⟨some_, stale⟩
    obtain ⟨n, rfl⟩ := Option.ne_none_iff_exists'.mp some_
    exact stale (congrArg some (fresh n rfl))
  unfold powerFailure State.localPassing
  unfold State.localPassing at free
  simp only [l.slot, l.setup, control, lines, idle, free, Bool.not_true, Bool.false_eq_true, if_false]
  rw [if_neg fun h => by simp [quoted h.1] at h, if_neg known, if_neg fun h => h.2 (on h.1)]

theorem powerSlot_passes (may : s.holdsOn e (·.power) i = true) (passes : PowerPasses a profile q i s)
    (l : SameView i s z) : powerSlot a profile q e i z =
      let t := accept i a .operator (usedProfile profile i s) (setPending i .operator z)
      (.ok (t.slot i).seq.state, t) := by
  have holds : z.holdsOn e (·.power) i = true := by
    rw [← may, State.holdsOn, State.station, l.tables]
    rfl
  unfold powerSlot
  rw [holds, l.setup]
  dsimp only
  rw [show profile.getD (s.setup i).profile = usedProfile profile i s from rfl, l.profileAt,
    powerFailure_passes passes l]
  rfl

/-- A POWER request that passes the tests of the whole. -/
theorem powerRule_taken {quotes : List Quote} {each : SlotId → State → PowerOutcome × State} (exact_ : h.bodyExact = true)
    (count : quotes.length = (slotsOf h.target).length) (some_ : h.target ≠ 0) (known : profile.getD 0 ≤ 7) :
    powerRule h profile quotes each s =
      ((.ok, .power (eachSlot each (slotsOf h.target) s).1), (eachSlot each (slotsOf h.target) s).2) := by
  unfold powerRule
  rw [if_neg (by simp [count, exact_]), if_neg some_, if_neg (by omega)]

theorem slotsOf_zero : slotsOf 0 = [] := by decide

theorem target_ne_zero (one : slotsOf h.target = [i]) : h.target ≠ 0 := fun zero => by
  rw [zero, slotsOf_zero] at one
  cases one

theorem quoteAt_one (one : slotsOf h.target = [i]) : quoteAt h.target [q] i = q := by
  unfold quoteAt
  rw [one]
  simp

/-- A POWER request that is taken for one slot on which its action passes the tests. -/
theorem power_one {F : State → State} {st : SeqState} (taken : PowerTaken h e i profile s)
    (passes : PowerPasses a profile q i s) (behind : Behind F)
    (runs : ∀ z, SameView i s z → z.inrush = s.inrush → accept i a .operator (usedProfile profile i s) (setPending i .operator z) = F z)
    (ends : ∀ z, SameView i s z → z.inrush = s.inrush → ((F z).slot i).seq.state = st) :
    exec (powerCommand a h profile [q]) s =
      .next (F (replied h .power .ok (.power [(i, .ok st)]) (hear e h.port s))) := by
  obtain ⟨taken, one, known, may⟩ := taken
  have l : SameView i s (placed h .power (hear e h.port s)) := sameView_placed_hear
  have same : (placed h .power (hear e h.port s)).inrush = s.inrush := by simp
  rw [exec_powerCommand, powerRequest]
  refine congrArg Host.Outcome.next (request_behind taken rfl behind ?_)
  obtain ⟨-, -, -, -, exact_⟩ := taken
  rw [powerRule_taken exact_ (by rw [one]; rfl) (target_ne_zero one) known, one]
  simp only [eachSlot, quoteAt_one one, powerSlot_passes may passes l, runs _ l same, ends _ l same]

/-- The acceptance of a POWER request on a slot (R103). -/
theorem accept_eq : accept i a .operator (usedProfile profile i z) (setPending i .operator z) =
    let steps := stepsFor a (z.slot i).record.observed (z.profile (usedProfile profile i z))
    runSteps i steps (setSeq i (stepping (startedRecord a profile i z (steps.headD .gate) steps none))
      (z.modSlot i (granted a z.now))) := by
  have observed : ((setPending i .operator z).slot i).record.observed = (z.slot i).record.observed := by
    simp [setPending]
  unfold accept
  rw [observed]
  refine congrArg (runSteps i _) ?_
  unfold setPending modSeq setSeq State.post State.count
  simp only [modSlot_modSlot]
  rfl

/-! ## ABORT (R104) -/

theorem power_abort {F : State → State} (taken : PowerTaken h e i profile s) (behind : Behind F)
    (aborts : ∀ z, SameView i s z → z.inrush = s.inrush → abort i z = F z) : exec (.powerAbort h profile [q]) s =
      .next (F (replied h .power .ok (.power [(i, .ok (.halted .aborted))]) (hear e h.port s))) := by
  obtain ⟨taken, one, known, may⟩ := taken
  have l : SameView i s (placed h .power (hear e h.port s)) := sameView_placed_hear
  have holds : (placed h .power (hear e h.port s)).holdsOn e (·.power) i = true := by
    rw [← may, State.holdsOn, State.station, l.tables]
    rfl
  refine congrArg Host.Outcome.next (request_behind taken rfl behind ?_)
  obtain ⟨-, -, -, -, exact_⟩ := taken
  rw [powerRule_taken exact_ (by rw [one]; rfl) (target_ne_zero one) known, one]
  simp only [eachSlot, abortSlot, holds, aborts _ l (by simp), Bool.not_true, Bool.false_eq_true, if_false]

theorem abort_busy (busy : seqBusy (s.slot i).seq.state = true) : abort i s = halt i .aborted s := if_pos busy

theorem waitingSlots_congr (same : z.inrush = s.inrush) : waitingSlots z = waitingSlots s := by
  rw [waitingSlots, same, waitingSlots]

/-- Settles O34. -/
theorem abortHalts : Obligations.AbortHalts := by
  unfold Obligations.AbortHalts
  intro h e i profile q s taken x s1 answer
  refine ⟨fun quiet => ?_, fun r record free => ⟨fun waits absent => ?_, fun waits queued => ?_⟩⟩
  · rw [show answer (s1.modSlot i _) = (answer s1).modSlot i _ from replied_beside beside_modSlot]
    refine power_abort taken (F := fun z => z.modSlot i fun x => { x with seq := { x.seq with state := .halted .aborted } })
      behind_modSlot fun z l same => ?_
    unfold abort
    rw [l.slot, if_neg (by rw [show seqBusy (s.slot i).seq.state = false from quiet]; decide)]
    rfl
  · refine power_abort taken behind_haltedNow fun z l same => ?_
    have busy : seqBusy (z.slot i).seq.state = true := by
      rw [l.slot]
      rcases waits with w | w <;> rw [show (s.slot i).seq.state = _ from w] <;> rfl
    rw [abort_busy busy]
    exact halt_eq (by rw [l.slot]; exact record) (by rw [l.slot]; exact free) (by rw [waitingSlots_congr same]; exact absent)
  · refine power_abort taken (F := fun z => haltedNow i .aborted r (z.modInrush fun _ => { s.inrush with
      queue := s.inrush.queue.filter fun w => decide (w.slot ≠ i)
      counters := { s.inrush.counters with withdrawals := bump s.inrush.counters.withdrawals } }))
      (behind_haltedNow.comp behind_modInrush) fun z l same => ?_
    have busy : seqBusy (z.slot i).seq.state = true := by
      rw [l.slot, show (s.slot i).seq.state = _ from waits]
      rfl
    rw [abort_busy busy, halt_free (r := r) (by rw [l.slot]; exact record) (by rw [l.slot]; exact free),
      withdraw_waiting (by rw [waitingSlots_congr same]; exact queued)]
    unfold State.modInrush
    rw [same]

/-! ## Refusals (R102) -/

/-- The first of some tests that fails decides. -/
def FirstOf {α : Type} : List (Prop × α) → α → Prop
  | [], _ => False
  | y :: l, o => y.1 ∧ o = y.2 ∨ ¬ y.1 ∧ FirstOf l o

theorem firstOf_append {α : Type} {test : Prop × α} {after : List (Prop × α)} (fails : test.1) :
    ∀ before : List (Prop × α), (∀ y ∈ before, ¬ y.1) → FirstOf (before ++ test :: after) test.2
  | [], _ => .inl ⟨fails, rfl⟩
  | _ :: before, pass => .inr ⟨pass _ (List.mem_cons_self ..),
      firstOf_append fails before fun y hy => pass y (List.mem_cons_of_mem _ hy)⟩

/-- The tests of R102 on a slot, each with the outcome of its failure. -/
def powerTests (a : Action) (e : StationId) (profile : Option Nat) (q : Quote) (i : SlotId) (s : State) :
    List (Prop × PowerOutcome) :=
  let x := s.slot i
  let c := s.setup i
  [(s.holdsOn e (·.power) i = false, .denied),
    (c.powerControl = false, .statePowerControl),
    (linesEnabled a c (s.profile (usedProfile profile i s)) = false, .stateLine),
    (seqBusy x.seq.state = true, .busySequencer x.seq.state),
    (s.localPassing i = true, .busyLocal),
    (q = none ∧ needsQuote a = true, .stateQuoteRequired),
    (∃ n, q = some n ∧ n ≠ x.record.bootCount, .stale x.record.bootCount),
    (a = .reset ∧ x.record.observed ≠ .on, .stateNotOn)]

theorem quote_stale {n : BitVec 16} : (∃ m, q = some m ∧ m ≠ n) ↔ q ≠ none ∧ q ≠ some n := by
  cases q <;> simp

/-- A slot on which a test fails is left as it was. -/
theorem powerSlot_refused {o : PowerOutcome} (first : FirstOf (powerTests a e profile q i s) o) :
    powerSlot a profile q e i s = (o, s) := by
  unfold powerTests at first
  simp only [FirstOf, quote_stale, usedProfile] at first
  unfold powerSlot powerFailure
  rcases first with ⟨test, rfl⟩ | ⟨may, ⟨test, rfl⟩ | ⟨control, ⟨test, rfl⟩ | ⟨lines, ⟨test, rfl⟩ | ⟨idle,
    ⟨test, rfl⟩ | ⟨remote, ⟨test, rfl⟩ | ⟨quoted, ⟨test, rfl⟩ | ⟨fresh, ⟨test, rfl⟩ | ⟨-, never⟩⟩⟩⟩⟩⟩⟩⟩
  · simp [test]
  · simp [may, test]
  · simp [may, control, test]
  · simp [may, control, lines, test]
  · simp [may, control, lines, idle, test]
  · simp [may, control, lines, idle, remote, test]
  · simp [may, control, lines, idle, remote, test]
  · simp only [if_neg quoted, if_neg fresh, if_pos test]
    simp [may, control, lines, idle, remote]
  · exact never.elim

/-- Each slot of a mask is left as it was. -/
theorem eachSlot_kept {α : Type} {f : SlotId → State → α × State} {o : SlotId → α} :
    ∀ l : List SlotId, (∀ i ∈ l, f i s = (o i, s)) → eachSlot f l s = (l.map fun i => (i, o i), s)
  | [], _ => rfl
  | i :: l, kept => by
    have rest := eachSlot_kept l fun j hj => kept j (List.mem_cons_of_mem _ hj)
    simp only [eachSlot, kept i (List.mem_cons_self ..), rest, List.map_cons]

theorem SameView.powerTests (l : SameView i s z) : powerTests a e profile q i z = powerTests a e profile q i s := by
  simp only [Machine.powerTests, l.slot, l.setup, l.profileAt, State.holdsOn, State.station, l.tables, usedProfile,
    State.localPassing]

/-- Settles O35. -/
theorem powerRefused : Obligations.PowerRefused := by
  unfold Obligations.PowerRefused
  intro h e profile quotes s a outcome taken some_ count known fails
  have l (i : SlotId) : SameView i s (placed h .power (hear e h.port s)) := sameView_placed_hear
  rw [exec_powerCommand, powerRequest]
  refine congrArg Host.Outcome.next (request_replied taken rfl ?_)
  obtain ⟨-, -, -, -, exact_⟩ := taken
  rw [powerRule_taken exact_ count some_ known, eachSlot_kept (o := outcome) (slotsOf h.target) fun i mem => ?_]
  obtain ⟨before, after, test, tests, passed, failed, out⟩ := fails i mem
  rw [out]
  refine powerSlot_refused ?_
  rw [(l i).powerTests, Machine.powerTests]
  exact tests ▸ firstOf_append failed before passed

end Sys2Proof.Machine
end

section
/-! PROOFS. POWER requests that begin with a press or a reset, or have nothing to do (R103, R108, R114 to
R117). -/

namespace Sys2Proof.Machine

open Sys2Proof

variable {h : Header} {e : StationId} {i : SlotId} {profile : Option Nat} {q : Quote} {s z : State} {a : Action}
  {r : SeqRecord} {st : SeqState}

/-- The record of a sequence that has just been granted, with the whole of its list. -/
def freshRecord (a : Action) (profile : Option Nat) (i : SlotId) (s : State) : SeqRecord :=
  let steps := stepsFor a (s.slot i).record.observed (s.profile (usedProfile profile i s))
  startedRecord a profile i s (steps.headD .gate) steps none

/-- A slot takes a granted sequence. -/
def grantedTo (a : Action) (r : SeqRecord) (i : SlotId) (now : Time) (z : State) : State :=
  setSeq i (stepping r) (z.modSlot i (granted a now))

theorem SameView.accept (l : SameView i s z) :
    accept i a .operator (usedProfile profile i s) (setPending i .operator z) =
      runSteps i (stepsFor a (s.slot i).record.observed (s.profile (usedProfile profile i s)))
        (grantedTo a (freshRecord a profile i s) i s.now z) := by
  have used : usedProfile profile i z = usedProfile profile i s := by rw [usedProfile, l.setup, usedProfile]
  have eq := accept_eq (z := z) (i := i) (profile := profile) (a := a)
  dsimp only at eq
  rw [used, l.slot, l.profileAt, l.startedRecord, l.now] at eq
  exact eq

/-- The end of a sequence does not tell where it stood. -/
theorem finished_entered {step : Step} {rest : List Step} : finished i (entered r step rest) s = finished i r s := rfl

theorem modSlot_profile {f : Slot → Slot} {n : Nat} : (s.modSlot i f).profile n = s.profile n := rfl

/-- A slot with a granted sequence, its first press skipped where it had one. -/
def skippedTo (a : Action) (skips : Bool) (now : Time) (x : Slot) : Slot :=
  let x := granted a now x
  { x with counters := { x.counters with
      skipped := if skips then bump x.counters.skipped else x.counters.skipped } }

theorem pressSkipped_granted {now : Time} :
    pressSkipped i (z.modSlot i (granted a now)) = z.modSlot i (skippedTo a true now) := modSlot_modSlot

theorem finished_idle : ((finished i r s).slot i).seq.state = .idle := by
  rw [finished, notify_slot, modSlot_slot_same]

/-- A granted sequence with nothing to do finishes at once. -/
theorem finishes_at_once {x : Slot} (slot : z.slot i = x) {now : Time}
    (nothing : (a = .powerOn ∧ x.record.observed = .on) ∨ (a = .feedOn ∧ x.lines.feed = true) ∨
      (a = .feedOff ∧ x.lines.feed = false) ∨ ((a = .powerOffSoft ∨ a = .powerOffHard) ∧ x.record.observed ≠ .on)) :
    runSteps i (stepsFor a x.record.observed (z.profile r.profile)) (grantedTo a r i now z) =
      finished i r (z.modSlot i (skippedTo a (decide (a = .powerOffSoft ∨ a = .powerOffHard)) now)) := by
  subst slot
  unfold grantedTo runSteps
  have slot : (z.modSlot i (granted a now)).slot i = granted a now (z.slot i) := modSlot_slot_same
  rcases nothing with ⟨rfl, on⟩ | ⟨rfl, up⟩ | ⟨rfl, down⟩ | ⟨rfl | rfl, off⟩
  · rw [on]
    exact run_nil
  · rw [stepsFor, run_ends (step := .feedRestore) (by decide) (enter_feedRestore_up (by rw [slot]; exact up))]
    exact run_nil
  · rw [stepsFor, run_ends (step := .feedDrop) (by decide) (enter_feedDrop_down (by rw [slot]; exact down))]
    exact run_nil
  · rw [stepsFor, run_skips (step := .press .stop) (by decide) (enter_press_met (by rw [slot]; exact decide_eq_true off)),
      pressSkipped_granted]
    exact run_nil
  · rw [stepsFor, run_skips (step := .hold) (by decide) (enter_hold_met (by rw [slot]; exact off)), pressSkipped_granted]
    exact run_nil

/-- A cycle whose first half has nothing to do goes on to its off dwell. -/
theorem dwells_at_once {x : Slot} (slot : z.slot i = x) {now : Time} {rest : List Step}
    (nothing : (a = .cycleSoft ∧ x.record.observed ≠ .on ∧ rest = [.powerOnTail]) ∨
      (a = .cycleFeed ∧ x.lines.feed = false ∧ rest = .feedRestore ::
        if (z.profile r.profile).autoPress then [.dwell .one, .powerOnTail] else [])) :
    runSteps i (stepsFor a x.record.observed (z.profile r.profile)) (grantedTo a r i now z) =
      z.modSlot i fun x => { skippedTo a (decide (a = .cycleSoft)) now x with
        seq := stepping { r with
          current := .dwell .off
          steps := rest
          deadline := some (z.after ((z.profile r.profile).offDwell * 1000)) } } := by
  subst slot
  unfold grantedTo runSteps
  have slot : (z.modSlot i (granted a now)).slot i = granted a now (z.slot i) := modSlot_slot_same
  rcases nothing with ⟨rfl, off, rfl⟩ | ⟨rfl, down, rfl⟩
  · rw [stepsFor, run_skips (step := .press .stop) (by decide) (enter_press_met (by rw [slot]; exact decide_eq_true off)),
      pressSkipped_granted, run_stops (step := .dwell .off) (by decide) enter_dwell]
    exact modSlot_modSlot
  · rw [stepsFor, List.cons_append, run_ends (step := .feedDrop) (by decide) (enter_feedDrop_down (by rw [slot]; exact down)),
      List.cons_append, run_stops (step := .dwell .off) (by decide) enter_dwell]
    exact modSlot_modSlot

/-- Settles O32. -/
theorem finishedAtOnce : Obligations.FinishedAtOnce := by
  unfold Obligations.FinishedAtOnce
  intro h e i profile q s a taken passes x off answer accepted
  refine ⟨fun nothing => ?_, fun rest nothing => ?_⟩
  · refine power_one taken passes (behind_finished.comp (behind_modSlot (f := accepted (decide off)))) (fun z l same => ?_)
      fun z l same => finished_idle
    rw [l.accept]
    have run := finishes_at_once (z := z) (r := freshRecord a profile i s) l.slot (now := s.now) nothing
    rw [l.profileAt] at run
    exact run
  · refine power_one taken passes behind_modSlot (fun z l same => ?_) fun z l same => by rw [modSlot_slot_same]
    rw [l.accept]
    have run := dwells_at_once (z := z) (r := freshRecord a profile i s) l.slot (now := s.now) (rest := rest)
      (by rw [l.profileAt]; exact nothing)
    rw [l.profileAt, l.after] at run
    exact run

/-! ## Requests over a mask (R15, R101) -/

theorem SameView.other {j : SlotId} (l : SameView j s z) (ne : j ≠ i) {f : Slot → Slot} :
    SameView j s (z.modSlot i f) where
  slot := (modSlot_slot_ne ne).trans l.slot
  tables := l.tables
  now := l.now
  unit := l.unit

/-- The slots of a mask are each judged and changed as they were found. -/
theorem eachSlot_modSlots {α : Type} {f : SlotId → State → α × State} {o : SlotId → α} {g : SlotId → Slot → Slot} :
    ∀ (l : List SlotId) (z : State), l.Nodup → (∀ i ∈ l, SameView i s z) →
      (∀ i ∈ l, ∀ z, SameView i s z → f i z = (o i, z.modSlot i (g i))) →
      eachSlot f l z = (l.map fun i => (i, o i), l.foldl (fun z i => z.modSlot i (g i)) z)
  | [], _, _, _, _ => rfl
  | i :: l, z, once, view, each => by
    obtain ⟨new, once⟩ := List.nodup_cons.mp once
    have rest := eachSlot_modSlots l (z.modSlot i (g i)) once
      (fun j hj => (view j (List.mem_cons_of_mem _ hj)).other (i := i) fun eq => new (eq ▸ hj : i ∈ l))
      fun j hj => each j (List.mem_cons_of_mem _ hj)
    simp only [eachSlot, each i (List.mem_cons_self ..) z (view i (List.mem_cons_self ..)), rest, List.map_cons,
      List.foldl_cons]

theorem slotsOf_nodup {m : BitVec 8} : (slotsOf m).Nodup := (List.nodup_finRange 8).filter _

/-- The slots of a mask, changed one after another. -/
theorem foldl_modSlots {g : SlotId → Slot → Slot} {l : List SlotId} (once : l.Nodup) :
    l.foldl (fun z i => z.modSlot i (g i)) z = { z with slots := (l.foldl (fun z i => z.modSlot i (g i)) z).slots } ∧
      ∀ j, (l.foldl (fun z i => z.modSlot i (g i)) z).slot j = if j ∈ l then g j (z.slot j) else z.slot j :=
  foldl_slots (P := fun t => t = { z with slots := t.slots }) (fun t i p => by rw [p]; rfl)
    (fun t i j _ => by
      by_cases eq : j = i
      · rw [eq, modSlot_slot_same, if_pos rfl]
      · rw [modSlot_slot_ne eq, if_neg eq]) l z once rfl

/-- A slot on which an action has just begun with a step that waits. -/
def begunWith (a : Action) (profile : Option Nat) (first : Step) (rest : List Step) (width : Profile → Nat)
    (f : Slot → Slot) (s : State) (i : SlotId) (x : Slot) : Slot :=
  f { x with
    record := { x.record with pendingCause := some .operator }
    hist := postTo x.hist s.now (.sequence a .started)
    seq := { state := .stepping
             record := some (startedRecord a profile i s first rest
               (some (s.after (width (s.profile (usedProfile profile i s)))))) }
    counters := { x.counters with accepted := bump x.counters.accepted } }

/-- The action, granted on slot `i`, begins with a step that waits. -/
def BeginsWith (a : Action) (profile : Option Nat) (first : Step) (rest : List Step) (width : Profile → Nat)
    (f : Slot → Slot) (s : State) (i : SlotId) : Prop :=
  ∀ z, SameView i s z →
    runSteps i (stepsFor a (s.slot i).record.observed (s.profile (usedProfile profile i s)))
        (grantedTo a (freshRecord a profile i s) i s.now z) =
      z.modSlot i (begunWith a profile first rest width f s i)

/-- A request over a mask whose slots are DENIED or begin. -/
theorem mask_begins {quotes : List Quote} {first : Step} {rest : List Step} {width : Profile → Nat} {f : Slot → Slot}
    (taken : Taken h e s) (some_ : h.target ≠ 0) (count : quotes.length = (slotsOf h.target).length)
    (known : profile.getD 0 ≤ 7)
    (running : ∀ i x, (begunWith a profile first rest width f s i x).seq.state = .stepping)
    (begins : ∀ i ∈ slotsOf h.target, s.holdsOn e (·.power) i = true →
      PowerPasses a profile (quoteAt h.target quotes i) i s ∧ BeginsWith a profile first rest width f s i) :
    ∃ t, exec (powerCommand a h profile quotes) s = .next t ∧
      t = { replied h .power .ok (.power ((slotsOf h.target).map fun i =>
        (i, if s.holdsOn e (·.power) i then PowerOutcome.ok .stepping else .denied))) (hear e h.port s) with
          slots := t.slots } ∧
      ∀ i, t.slot i = if maskHas h.target i && s.holdsOn e (·.power) i then
        begunWith a profile first rest width f s i (s.slot i) else s.slot i := by
  set g : SlotId → Slot → Slot := fun i =>
    if s.holdsOn e (·.power) i then begunWith a profile first rest width f s i else id with visit
  have ran : exec (powerCommand a h profile quotes) s = .next ((slotsOf h.target).foldl (fun z i => z.modSlot i (g i))
      (replied h .power .ok (.power ((slotsOf h.target).map fun i =>
        (i, if s.holdsOn e (·.power) i then PowerOutcome.ok .stepping else .denied))) (hear e h.port s))) := by
    rw [exec_powerCommand, powerRequest]
    refine congrArg Host.Outcome.next (request_behind taken rfl (behind_foldl (fun i => behind_modSlot) _) ?_)
    obtain ⟨-, -, -, -, exact_⟩ := taken
    rw [powerRule_taken exact_ count some_ known, eachSlot_modSlots (s := s) (o := fun i =>
      if s.holdsOn e (·.power) i then PowerOutcome.ok .stepping else .denied) (g := g) _ _ slotsOf_nodup
      (fun i _ => sameView_placed_hear) fun i mem z l => ?_]
    by_cases may : s.holdsOn e (·.power) i = true
    · obtain ⟨passes, begins⟩ := begins i mem may
      rw [powerSlot_passes may passes l]
      dsimp only
      rw [l.accept, begins z l, modSlot_slot_same, running, if_pos may]
      exact congrArg (fun f => (PowerOutcome.ok .stepping, z.modSlot i f)) (if_pos may).symm
    · have denied : z.holdsOn e (·.power) i = false := by
        rw [State.holdsOn, State.station, l.tables]
        simpa [State.holdsOn, State.station] using may
      rw [powerSlot, denied, if_neg may]
      exact congrArg (fun t => (PowerOutcome.denied, t))
        (modSlot_self (f := g i) (by rw [show g i = id from if_neg may]; rfl)).symm
  refine ⟨_, ran, (foldl_modSlots slotsOf_nodup).1, fun i => ?_⟩
  rw [(foldl_modSlots slotsOf_nodup).2 i, replied_slot, hear_slot]
  simp only [mem_slotsOf, visit]
  by_cases has : maskHas h.target i = true
  · by_cases may : s.holdsOn e (·.power) i = true
    · simp [has, may]
    · simp [has, may]
  · simp [has]

/-- PWR_OUT is claimed by the sequence. -/
def pressed (x : Slot) : Slot := { x with lines := { x.lines with pwrSeq := true } }

theorem begins_stop {rest : List Step} (on : (s.slot i).record.observed = .on)
    (steps : stepsFor a .on (s.profile (usedProfile profile i s)) = .press .stop :: rest) :
    BeginsWith a profile (.press .stop) rest (·.tapWidth) pressed s i := by
  intro z l
  have observed : ((z.modSlot i (granted a s.now)).slot i).record.observed = .on := by
    rw [modSlot_slot_same, l.slot]
    exact on
  rw [on, steps, grantedTo, runSteps, run_stops (step := .press .stop) (by decide) (enter_press_stop observed),
    pwrSet, modSlot_modSlot, setSeq, modSlot_modSlot]
  refine modSlot_congr ?_
  rw [show (z.modSlot i (granted a s.now)).after _ = z.after _ from rfl, l.after, modSlot_profile, l.profileAt]
  rfl

theorem begins_hold {rest : List Step} (on : (s.slot i).record.observed = .on)
    (steps : stepsFor a .on (s.profile (usedProfile profile i s)) = .hold :: rest) :
    BeginsWith a profile .hold rest (·.holdWidth) pressed s i := by
  intro z l
  have observed : ((z.modSlot i (granted a s.now)).slot i).record.observed = .on := by
    rw [modSlot_slot_same, l.slot]
    exact on
  rw [on, steps, grantedTo, runSteps, run_stops (step := .hold) (by decide) (enter_hold observed),
    pwrSet, modSlot_modSlot, setSeq, modSlot_modSlot]
  refine modSlot_congr ?_
  rw [show (z.modSlot i (granted a s.now)).after _ = z.after _ from rfl, l.after, modSlot_profile, l.profileAt]
  rfl

theorem begins_reset (on : (s.slot i).record.observed = .on) (free : rstAsserted (s.slot i).lines = false) :
    BeginsWith .reset profile (.dwell .reset) [.gate, .releaseRst] (·.resetWidth) rstHeld s i := by
  intro z l
  have slot : (z.modSlot i (granted .reset s.now)).slot i = granted .reset s.now (s.slot i) := by
    rw [modSlot_slot_same, l.slot]
  rw [stepsFor, grantedTo, runSteps,
    run_ends (step := .assertRst) (by decide) (enter_assertRst (by rw [slot]; exact on) (by rw [slot]; exact free)),
    modSlot_modSlot, run_stops (step := .dwell .reset) (by decide) enter_dwell, setSeq, modSlot_modSlot]
  refine modSlot_congr ?_
  rw [show (z.modSlot i _).after _ = z.after _ from rfl, l.after, modSlot_profile]
  dsimp only [entered]
  rw [l.profileAt]
  rfl

/-- Settles O30. -/
theorem pressesBegin : Obligations.PressesBegin := by
  unfold Obligations.PressesBegin
  intro h e profile quotes s a taken some_ count known may passes begins
  refine ⟨?_, ?_, ?_, ?_⟩
  · rintro rfl
    refine mask_begins (first := .press .stop) (width := (·.tapWidth)) (f := pressed) taken some_ count known
      (fun _ _ => rfl) fun i mem holds => ?_
    obtain ⟨passes, on, -⟩ := passes i mem holds
    exact ⟨passes, begins_stop on rfl⟩
  · rintro rfl
    refine mask_begins (first := .press .stop) (width := (·.tapWidth)) (f := pressed) taken some_ count known
      (fun _ _ => rfl) fun i mem holds => ?_
    obtain ⟨passes, on, -⟩ := passes i mem holds
    exact ⟨passes, begins_stop on rfl⟩
  · rintro rfl
    refine mask_begins (first := .hold) (width := (·.holdWidth)) (f := pressed) taken some_ count known
      (fun _ _ => rfl) fun i mem holds => ?_
    obtain ⟨passes, on, -⟩ := passes i mem holds
    exact ⟨passes, begins_hold on rfl⟩
  · rintro rfl
    refine mask_begins (first := .dwell .reset) (width := (·.resetWidth)) (f := rstHeld) taken some_ count known
      (fun _ _ => rfl) fun i mem holds => ?_
    obtain ⟨passes, on, free⟩ := passes i mem holds
    exact ⟨passes, begins_reset on (free rfl)⟩

end Sys2Proof.Machine
end

section
/-! PROOFS. Start presses and moves of FEED that a POWER request is granted, at once or through the Inrush
Queue (R109, R112, R114, R117, R125 to R132). -/

namespace Sys2Proof.Machine

open Sys2Proof

variable {h : Header} {e : StationId} {i : SlotId} {profile : Option Nat} {q : Quote} {s t z : State} {a : Action}
  {r : SeqRecord} {st : SeqState} {g : GateOutcome} {tail : SlotId → State → State}

/-! ## A GATE and the start press behind it (R112, R114) -/

/-- The record of a sequence whose GATE has ended, in its start press. -/
def pressing (g : GateOutcome) (r : SeqRecord) : SeqRecord :=
  { r with gate := some g, current := .press .start, steps := [.expectHigh], deadline := none }

theorem gatePasses_congr {p : Profile} (units : t.units = s.units) (passes : GatePasses g p i s) :
    GatePasses g p i t := by
  have unit (u : UnitId) : t.unit u = s.unit u := congrArg (·[u]) units
  have unitOf : t.unitOf i = s.unitOf i := by simp only [State.unitOf, unit]
  cases g <;> simpa only [GatePasses, GateFails, unitOf, unit] using passes

theorem enter_press_start (off : (s.slot i).record.observed ≠ .on) :
    enterStep i (.press .start) (setSeq i (stepping r) s) = handToScheduler i .startPress (setSeq i (stepping r) s) := by
  unfold enterStep
  dsimp only
  rw [setSeq_record, if_neg (by simp [pressMet, off])]

/-- A GATE that passes at once comes to the start press. -/
theorem run_gate_press (off : (s.slot i).record.observed ≠ .on) (passes : GatePasses g (s.profile r.profile) i s)
    (hands : handToScheduler i .startPress (setSeq i (stepping (pressing g r)) s) = .stop t) :
    runWith tail i [.gate, .press .start, .expectHigh] (setSeq i (stepping r) s) = t := by
  rw [run_ends (step := .gate) (by decide) (enter_gate_passes passes)]
  exact run_stops (step := .press .start) (by decide) ((enter_press_start off).trans hands)

theorem executeCharged_pressing :
    executeCharged i .startPress (setSeq i { state := st, record := some (pressing g r) } s) =
      .stop (s.modSlot i (pressBegun g r s)) := by
  rw [executeCharged_press, setSeq, pwrSet, modSlot_modSlot]
  rfl

/-- A start press without a charge begins at once. -/
theorem run_press_free (off : (s.slot i).record.observed ≠ .on) (passes : GatePasses g (s.profile r.profile) i s)
    (free : (s.profile r.profile).startCharge = 0) :
    runWith tail i [.gate, .press .start, .expectHigh] (setSeq i (stepping r) s) =
      s.modSlot i (pressBegun g r s) := by
  refine run_gate_press off passes ?_
  rw [hand_free (by exact free), stepping, executeCharged_pressing]

/-- The start press of a slot, as it waits in the Inrush Queue. -/
def pressWaiting (i : SlotId) (p : Profile) : Waiting :=
  { slot := i, kind := .startPress, charge := p.startCharge, settle := p.startSettle }

/-- A charged start press behind others waits. -/
theorem run_press_waits (off : (s.slot i).record.observed ≠ .on) (passes : GatePasses g (s.profile r.profile) i s)
    (charged : (s.profile r.profile).startCharge ≠ 0) (others : s.inrush.queue ≠ []) :
    runWith tail i [.gate, .press .start, .expectHigh] (setSeq i (stepping r) s) =
      joinQueue (pressWaiting i (s.profile r.profile))
        (setSeq i { state := .waitBudget, record := some (pressing g r) } s) :=
  run_gate_press off passes (hand_waits (by exact charged) others)

/-- A charged start press that finds the scheduler unused starts. -/
theorem run_press_starts (off : (s.slot i).record.observed ≠ .on) (passes : GatePasses g (s.profile r.profile) i s)
    (charged : (s.profile r.profile).startCharge ≠ 0) (unused : Unused s.inrush) :
    runWith tail i [.gate, .press .start, .expectHigh] (setSeq i (stepping r) s) =
      (s.modInrush (firstStart (pressWaiting i (s.profile r.profile)) s.tables.bridge.capacity s.now)).modSlot i
        (pressBegun g r s) := by
  refine run_gate_press off passes ?_
  rw [hand_starts (by exact charged) unused fun _ => off, executeCharged_pressing]
  rfl

/-- A charged start press that finds the queue empty, but the spacing since the last start not passed, waits. -/
theorem run_press_spaced (off : (s.slot i).record.observed ≠ .on) (passes : GatePasses g (s.profile r.profile) i s)
    (charged : (s.profile r.profile).startCharge ≠ 0) (first : s.inrush.queue = []) (last : s.inrush.last = some s.now)
    (spacing : s.tables.bridge.spacing ≠ 0) :
    runWith tail i [.gate, .press .start, .expectHigh] (setSeq i (stepping r) s) =
      expireCharges (joinQueue (pressWaiting i (s.profile r.profile))
        (setSeq i { state := .waitBudget, record := some (pressing g r) } s)) := by
  refine run_gate_press off passes ?_
  rw [hand_tested (by exact charged) first]
  dsimp only
  rw [if_neg]
  · rfl
  · have late : (s.now - s.now).toNat = 0 := by simp
    simp [headPasses, expireCharges, joinQueue, State.modInrush, setSeq, State.modSlot, last, spacing]

/-! ## POWER_ON of a slot in STANDBY (R114) -/

theorem granted_view (l : SameView i s z) {now : Time} :
    (z.modSlot i (granted a now)).slot i = granted a now (s.slot i) := by
  rw [modSlot_slot_same, l.slot]

theorem pressBegun_congr (tables : t.tables = s.tables) (now : t.now = s.now) : pressBegun g r t = pressBegun g r s := by
  unfold pressBegun
  rw [State.after, State.profile, tables, now]
  rfl

/-- A granted POWER_ON of a slot in STANDBY takes its three steps. -/
theorem accept_standby (l : SameView i s z) (standby : (s.slot i).record.observed = .standby) :
    accept i .powerOn .operator (usedProfile profile i s) (setPending i .operator z) =
      runWith runTail i [.gate, .press .start, .expectHigh]
        (grantedTo .powerOn (freshRecord .powerOn profile i s) i s.now z) := by
  rw [l.accept, standby]
  rfl

/-- What the GATE and the start press of a granted POWER_ON find. -/
theorem standby_granted (l : SameView i s z) (standby : (s.slot i).record.observed = .standby)
    (gate : GatePasses g (s.profile (usedProfile profile i s)) i s) :
    let w := z.modSlot i (granted .powerOn s.now)
    (w.slot i).record.observed ≠ .on ∧
      GatePasses g (w.profile (freshRecord .powerOn profile i s).profile) i w := by
  refine ⟨?_, ?_⟩
  · rw [granted_view l]
    exact fun on => by simp [granted, standby] at on
  · rw [modSlot_profile, l.profileAt]
    exact gatePasses_congr rfl (l.gatePasses.mpr gate)

/-- A slot on which the start press of a granted POWER_ON begins. -/
def startBegun (g : GateOutcome) (profile : Option Nat) (s : State) (i : SlotId) (x : Slot) : Slot :=
  pressBegun g (startedRecord .powerOn profile i s .gate [.press .start, .expectHigh] none) s (granted .powerOn s.now x)

/-- A slot on which the start press of a granted POWER_ON waits. -/
def startQueued (g : GateOutcome) (profile : Option Nat) (s : State) (i : SlotId) (x : Slot) : Slot :=
  { granted .powerOn s.now x with
    seq := { state := .waitBudget, record := some { startedRecord .powerOn profile i s .gate [] none with
      gate := some g, current := .press .start, steps := [.expectHigh] } } }

theorem begun_granted (l : SameView i s z) {f : Inrush → Inrush} :
    ((z.modSlot i (granted .powerOn s.now)).modInrush f).modSlot i (pressBegun g (freshRecord .powerOn profile i s)
      (z.modSlot i (granted .powerOn s.now))) = (z.modInrush f).modSlot i (startBegun g profile s i) := by
  rw [pressBegun_congr (s := s) (by exact l.tables) (by exact l.now)]
  exact modSlot_modSlot (s := z.modInrush f)

/-- A granted POWER_ON of a slot in STANDBY without a start charge. -/
theorem standby_free (l : SameView i s z) (standby : (s.slot i).record.observed = .standby)
    (gate : GatePasses g (s.profile (usedProfile profile i s)) i s)
    (free : (s.profile (usedProfile profile i s)).startCharge = 0) :
    accept i .powerOn .operator (usedProfile profile i s) (setPending i .operator z) =
      z.modSlot i (startBegun g profile s i) := by
  obtain ⟨off, passes⟩ := standby_granted l standby gate
  rw [accept_standby l standby, grantedTo,
    run_press_free off passes (by rw [modSlot_profile, l.profileAt]; exact free)]
  exact begun_granted l (f := id)

/-- One with a start charge, behind others. -/
theorem standby_waits (l : SameView i s z) (standby : (s.slot i).record.observed = .standby)
    (gate : GatePasses g (s.profile (usedProfile profile i s)) i s)
    (charged : (s.profile (usedProfile profile i s)).startCharge ≠ 0) (others : z.inrush.queue ≠ []) :
    accept i .powerOn .operator (usedProfile profile i s) (setPending i .operator z) =
      joinQueue (pressWaiting i (s.profile (usedProfile profile i s))) (z.modSlot i (startQueued g profile s i)) := by
  obtain ⟨off, passes⟩ := standby_granted l standby gate
  rw [accept_standby l standby, grantedTo,
    run_press_waits off passes (by rw [modSlot_profile, l.profileAt]; exact charged) others, modSlot_profile,
    l.profileAt, setSeq, modSlot_modSlot]
  rfl

/-- One with a start charge that finds the scheduler unused. -/
theorem standby_starts (l : SameView i s z) (standby : (s.slot i).record.observed = .standby)
    (gate : GatePasses g (s.profile (usedProfile profile i s)) i s)
    (charged : (s.profile (usedProfile profile i s)).startCharge ≠ 0) (unused : Unused z.inrush) :
    accept i .powerOn .operator (usedProfile profile i s) (setPending i .operator z) =
      (z.modInrush (firstStart (pressWaiting i (s.profile (usedProfile profile i s))) s.tables.bridge.capacity
        s.now)).modSlot i (startBegun g profile s i) := by
  obtain ⟨off, passes⟩ := standby_granted l standby gate
  rw [accept_standby l standby, grantedTo,
    run_press_starts off passes (by rw [modSlot_profile, l.profileAt]; exact charged) unused, modSlot_profile,
    l.profileAt]
  have tables : (z.modSlot i (granted .powerOn s.now)).tables = s.tables := l.tables
  have now : (z.modSlot i (granted .powerOn s.now)).now = s.now := l.now
  rw [tables, now]
  exact begun_granted l

/-- One with a start charge that finds the queue empty within the spacing of the last start. -/
theorem standby_spaced (l : SameView i s z) (standby : (s.slot i).record.observed = .standby)
    (gate : GatePasses g (s.profile (usedProfile profile i s)) i s)
    (charged : (s.profile (usedProfile profile i s)).startCharge ≠ 0) (first : z.inrush.queue = [])
    (last : z.inrush.last = some s.now) (spacing : s.tables.bridge.spacing ≠ 0) :
    accept i .powerOn .operator (usedProfile profile i s) (setPending i .operator z) =
      expireCharges (joinQueue (pressWaiting i (s.profile (usedProfile profile i s)))
        (z.modSlot i (startQueued g profile s i))) := by
  obtain ⟨off, passes⟩ := standby_granted l standby gate
  have now : (z.modSlot i (granted .powerOn s.now)).now = s.now := l.now
  have tables : (z.modSlot i (granted .powerOn s.now)).tables = s.tables := l.tables
  rw [accept_standby l standby, grantedTo,
    run_press_spaced off passes (by rw [modSlot_profile, l.profileAt]; exact charged) first
      (by rw [now]; exact last) (by rw [tables]; exact spacing), modSlot_profile, l.profileAt, setSeq, modSlot_modSlot]
  rfl

/-- One whose GATE waits. -/
theorem standby_gated (l : SameView i s z) (standby : (s.slot i).record.observed = .standby)
    (waits : GateWaits (s.profile (usedProfile profile i s)) i s) :
    accept i .powerOn .operator (usedProfile profile i s) (setPending i .operator z) =
      z.modSlot i fun x => { granted .powerOn s.now x with
        seq := { state := .waitGate
                 record := some (startedRecord .powerOn profile i s .gate [.press .start, .expectHigh]
                   (some (s.after ((s.profile (usedProfile profile i s)).gateWait * 1000)))) } } := by
  have gate : GateWaits ((z.modSlot i (granted .powerOn s.now)).profile (freshRecord .powerOn profile i s).profile) i
      (z.modSlot i (granted .powerOn s.now)) := by
    rw [modSlot_profile, l.profileAt]
    exact l.gateWaits.mpr waits
  rw [accept_standby l standby, grantedTo, run_stops (step := .gate) (by decide) (enter_gate_waits (by exact gate)),
    setSeq, modSlot_modSlot]
  refine modSlot_congr ?_
  dsimp only [entered]
  rw [modSlot_profile, l.profileAt, show (z.modSlot i _).after _ = z.after _ from rfl, l.after]
  rfl

/-- One whose GATE fails under REQUIRE. -/
theorem standby_halts (l : SameView i s z) (standby : (s.slot i).record.observed = .standby)
    (fails : GateFails (s.profile (usedProfile profile i s)) i s)
    (require : (s.profile (usedProfile profile i s)).gate = .require) (free : (s.slot i).lines.rstSeq = false)
    (absent : i ∉ waitingSlots z) :
    accept i .powerOn .operator (usedProfile profile i s) (setPending i .operator z) =
      haltedNow i .gateFailed (startedRecord .powerOn profile i s .gate [.press .start, .expectHigh] none)
        (z.modSlot i (granted .powerOn s.now)) := by
  have profiles : (z.modSlot i (granted .powerOn s.now)).profile (freshRecord .powerOn profile i s).profile =
      s.profile (usedProfile profile i s) := by
    rw [modSlot_profile, l.profileAt]
    rfl
  have gate : GateFails ((z.modSlot i (granted .powerOn s.now)).profile (freshRecord .powerOn profile i s).profile) i
      (z.modSlot i (granted .powerOn s.now)) := by
    rw [profiles]
    exact l.gateFails.mpr fails
  rw [accept_standby l standby, grantedTo, run_stops (step := .gate) (by decide)
    (enter_gate_halts (by exact gate) (by rw [← profiles] at require; exact require)),
    halt_eq (by rw [setSeq_seq]; rfl) (by rw [setSeq_lines, granted_view l]; exact free) (by exact absent),
    haltedNow_setSeq]
  rfl

theorem firstStart_eq {w : Waiting} {capacity : Nat} {now : Time} {x : Inrush} : firstStart w capacity now x =
    { last := some now
      queue := []
      active := [{ slot := w.slot, kind := w.kind, charge := w.charge, settle := w.settle, start := now }]
      counters := { x.counters with
        joins := bumpBy 1 x.counters.joins
        started := bump x.counters.started
        oversized := if capacity < w.charge then bump x.counters.oversized else x.counters.oversized } } := by
  rw [bumpBy_one]
  rfl

/-- The account once a first slot has started and a second waits behind its spacing. -/
def secondWaits (v w : Waiting) (capacity : Nat) (now : Time) (x : Inrush) : Inrush :=
  { last := some now
    queue := [w]
    active := [{ slot := v.slot, kind := v.kind, charge := v.charge, settle := v.settle, start := now }]
    counters := { x.counters with
      joins := bumpBy 2 x.counters.joins
      started := bump x.counters.started
      oversized := if capacity < v.charge then bump x.counters.oversized else x.counters.oversized } }

/-- A step that waits behind the first start finds its charge still in the list. -/
theorem joined_firstStart {v w : Waiting} (settles : v.settle ≠ 0) {capacity : Nat} :
    expireCharges (joinQueue w (s.modInrush (firstStart v capacity s.now))) =
      s.modInrush (secondWaits v w capacity s.now) := by
  have live : 0 < v.settle := Nat.pos_of_ne_zero settles
  have young : (s.now - s.now).toNat = 0 := by rw [BitVec.sub_self]; rfl
  have twice : bumpBy 2 s.inrush.counters.joins = bump (bump s.inrush.counters.joins) := by
    rw [← bumpBy_bump, bumpBy_one]
  unfold expireCharges joinQueue State.modInrush secondWaits firstStart
  simp only [elapsed, List.filter, young, live, decide_true, twice, List.nil_append]

/-- Of two slots of a mask, the first starts and the second waits for the spacing (R15, R131). -/
theorem pair_starts {j : SlotId} {f : GateOutcome} {q r : Quote} (viewI : SameView i s z) (viewJ : SameView j s z)
    (same : z.inrush = s.inrush) (apart : j ≠ i) (mayI : s.holdsOn e (·.power) i = true)
    (mayJ : s.holdsOn e (·.power) j = true) (passesI : PowerPasses .powerOn profile q i s)
    (passesJ : PowerPasses .powerOn profile r j s)
    (readyI : (s.slot i).record.observed = .standby ∧ GatePasses f (s.profile (usedProfile profile i s)) i s)
    (readyJ : (s.slot j).record.observed = .standby ∧ GatePasses g (s.profile (usedProfile profile j s)) j s)
    (chargedI : (s.profile (usedProfile profile i s)).startCharge ≠ 0)
    (chargedJ : (s.profile (usedProfile profile j s)).startCharge ≠ 0)
    (settles : (s.profile (usedProfile profile i s)).startSettle ≠ 0) (unused : Unused s.inrush)
    (spacing : s.tables.bridge.spacing ≠ 0) :
    let started := (z.modInrush (firstStart (pressWaiting i (s.profile (usedProfile profile i s)))
      s.tables.bridge.capacity s.now)).modSlot i (startBegun f profile s i)
    powerSlot .powerOn profile q e i z = (.ok .stepping, started) ∧
      powerSlot .powerOn profile r e j started = (.ok .waitBudget,
        ((z.modSlot i (startBegun f profile s i)).modSlot j (startQueued g profile s j)).modInrush fun _ =>
          secondWaits (pressWaiting i (s.profile (usedProfile profile i s)))
            (pressWaiting j (s.profile (usedProfile profile j s))) s.tables.bridge.capacity s.now s.inrush) := by
  intro started
  obtain ⟨standbyI, gateI⟩ := readyI
  obtain ⟨standbyJ, gateJ⟩ := readyJ
  have first := standby_starts viewI standbyI gateI chargedI (by rw [same]; exact unused)
  have viewJ' : SameView j s started :=
    SameView.other (z := z.modInrush _) (i := i) ⟨viewJ.slot, viewJ.tables, viewJ.now, viewJ.unit⟩ apart
  have second := standby_spaced (profile := profile) viewJ' standbyJ gateJ chargedJ rfl rfl spacing
  refine ⟨?_, ?_⟩
  · rw [powerSlot_passes mayI passesI viewI]
    dsimp only
    rw [first, modSlot_slot_same]
    rfl
  · rw [powerSlot_passes mayJ passesJ viewJ']
    dsimp only
    rw [second]
    have joined := joined_firstStart (s := (z.modSlot i (startBegun f profile s i)).modSlot j (startQueued g profile s j))
      (v := pressWaiting i (s.profile (usedProfile profile i s)))
      (w := pressWaiting j (s.profile (usedProfile profile j s))) settles (capacity := s.tables.bridge.capacity)
    have now : ((z.modSlot i (startBegun f profile s i)).modSlot j (startQueued g profile s j)).now = s.now := viewI.now
    rw [now] at joined
    refine Prod.ext ?_ (joined.trans ?_)
    · exact congrArg (fun x : Slot => PowerOutcome.ok x.seq.state) (modSlot_slot_same (i := j)
        (s := (z.modSlot i (startBegun f profile s i))) (f := startQueued g profile s j))
    · rw [← same]
      rfl

/-- Settles O33. -/
theorem startPressBudgeted : Obligations.StartPressBudgeted := by
  unfold Obligations.StartPressBudgeted
  intro h e profile s profileOf s1 waiting charge gating pressing_ queued ready counted unused
  constructor
  · intro i q taken passes answer
    refine ⟨?_, ?_, ?_⟩
    · rintro g ⟨standby, gate⟩
      refine ⟨fun uncharged => ?_, fun charged others => ?_, fun charged fresh => ?_⟩
      · exact power_one (a := .powerOn) taken passes behind_modSlot
          (fun z l _ => standby_free l standby gate uncharged) fun z l _ => by rw [modSlot_slot_same]; rfl
      · refine power_one (a := .powerOn) taken passes (F := fun z => (z.modSlot i (queued g i)).modInrush fun _ =>
          { s.inrush with
              queue := s.inrush.queue ++ [waiting i]
              counters := { s.inrush.counters with joins := bump s.inrush.counters.joins } })
          (behind_modInrush.comp behind_modSlot) (fun z l same => ?_) fun z l _ => ?_
        · rw [standby_waits l standby gate charged (by rw [same]; exact others)]
          unfold joinQueue State.modInrush
          rw [show (z.modSlot i _).inrush = s.inrush from same]
          rfl
        · exact congrArg (·.seq.state) (modSlot_slot_same (s := z) (f := queued g i))
      · refine power_one (a := .powerOn) taken passes (F := fun z => (z.modInrush fun _ =>
            { last := some s.now, queue := [], active := [charge i], counters := counted 1 i }).modSlot i (pressing_ g i))
          (behind_modSlot.comp behind_modInrush) (fun z l same => ?_) fun z l _ => by rw [modSlot_slot_same]; rfl
        rw [standby_starts l standby gate charged (by rw [same]; exact fresh)]
        unfold State.modInrush
        rw [same, firstStart_eq]
        rfl
    · intro standby waits
      exact power_one (a := .powerOn) taken passes behind_modSlot
        (fun z l _ => standby_gated l standby waits) fun z l _ => by rw [modSlot_slot_same]
    · intro standby fails require free absent
      exact power_one (a := .powerOn) taken passes (behind_haltedNow.comp behind_modSlot)
        (fun z l same => standby_halts l standby fails require free (by rw [waitingSlots_congr same]; exact absent))
        fun z l _ => by rw [haltedNow, notify_slot, modSlot_slot_same]
  · intro i j f g q r taken two known mayI mayJ passesI passesJ readyI readyJ chargedI chargedJ settles fresh spacing
    have apart : j ≠ i := by
      have once := slotsOf_nodup (m := h.target)
      rw [two] at once
      exact fun eq => by simp [eq] at once
    have quoteI : quoteAt h.target [q, r] i = q := by
      unfold quoteAt
      rw [two]
      simp
    have quoteJ : quoteAt h.target [q, r] j = r := by
      unfold quoteAt
      rw [two]
      simp [apart.symm]
    obtain ⟨first, second⟩ := pair_starts (z := placed h .power (hear e h.port s)) sameView_placed_hear
      sameView_placed_hear (by simp) apart mayI mayJ passesI passesJ readyI readyJ chargedI chargedJ settles fresh spacing
    refine congrArg Host.Outcome.next (request_behind taken rfl (F := fun z =>
      ((z.modSlot i (pressing_ f i)).modSlot j (queued g j)).modInrush fun _ =>
        { last := some s.now, queue := [waiting j], active := [charge i], counters := counted 2 i })
      (behind_modInrush.comp (behind_modSlot.comp behind_modSlot)) ?_)
    obtain ⟨-, -, -, -, exact_⟩ := taken
    rw [powerRule_taken exact_ (by rw [two]; rfl) (fun zero => by rw [zero, slotsOf_zero] at two; cases two) known, two]
    simp only [eachSlot, quoteI, quoteJ, first, second]
    rfl

end Sys2Proof.Machine
end

section
/-! PROOFS. Moves of FEED that a POWER request is granted (R14, R80, R109, R114, R117, R125 to R132). -/

namespace Sys2Proof.Machine

open Sys2Proof

variable {h : Header} {e : StationId} {i : SlotId} {profile : Option Nat} {q : Quote} {s t z : State} {a : Action}
  {r : SeqRecord} {st : SeqState} {g : GateOutcome} {tail : SlotId → State → State}

/-! ## The entry of a FEED_RESTORE -/

theorem restoreCharge_eq {x : Slot} {p : Profile} {now : Time} :
    chargeOf .feedRestore x p now = (restoreCharge x p now, p.feedSettle) := by
  unfold chargeOf restoreCharge isWarm
  cases x.record.feedDropped with
  | none => rfl
  | some t => cases x.coldMark <;> simp

theorem restoreCharge_free {x : Slot} {p : Profile} {now : Time} (free : p.feedCharge = 0) :
    restoreCharge x p now = 0 := by
  unfold restoreCharge
  rw [free]
  split
  · split_ifs <;> rfl
  · rfl

theorem restoreCharge_charged {x : Slot} {p : Profile} {now : Time} (charged : p.feedCharge ≠ 0) :
    restoreCharge x p now ≠ 0 := by
  unfold restoreCharge
  split
  · split_ifs <;> omega
  · exact charged

theorem enter_feedRestore (down : (s.slot i).lines.feed = false) :
    enterStep i .feedRestore (setSeq i (stepping r) s) = handToScheduler i .feedRestore (setSeq i (stepping r) s) := by
  unfold enterStep
  dsimp only
  rw [if_neg (by rw [setSeq_lines, down]; decide)]

/-- Without a feed charge FEED is raised at once. -/
theorem enter_feedRestore_free (dark : Dark (s.slot i)) (free : (s.profile r.profile).feedCharge = 0) :
    enterStep i .feedRestore (setSeq i (stepping r) s) = .ends (setSeq i (stepping r) (raisedTo i s)) := by
  rw [enter_feedRestore dark.1, hand_free (by rw [restoreCharge_eq]; exact restoreCharge_free free)]
  exact executeCharged_feed dark

/-- With PG already active the raise is a boot observation. -/
theorem enter_feedRestore_boots (down : (s.slot i).lines.feed = false) (off : (s.slot i).record.observed = .feedOff)
    (high : (s.slot i).pg.filtered = true) (boots : BootsFree i s) (free : (s.profile r.profile).feedCharge = 0) :
    enterStep i .feedRestore (setSeq i (stepping r) s) =
      .ends (setSeq i (stepping r) (bootSeen i .feedOff (s.modSlot i feedRaisedOn))) := by
  rw [enter_feedRestore down, hand_free (by rw [restoreCharge_eq]; exact restoreCharge_free free)]
  unfold executeCharged
  rw [stepping, setSeqState_setSeq]
  dsimp only
  rw [raiseFeed_boots (by rw [setSeq_lines]; exact down) (by rw [setSeq_record]; exact off)
    (by simpa [setSeq] using high) (bootsFree_setSeq boots), setSeq_apart fun _ => rfl, bootSeen_setSeq]

/-- The restore of a slot's FEED, as it waits in the Inrush Queue. -/
def feedWaiting (i : SlotId) (p : Profile) (x : Slot) (now : Time) : Waiting :=
  { slot := i, kind := .feedRestore, charge := restoreCharge x p now, settle := p.feedSettle }

theorem waitingFor_feed {p : Profile} : waitingFor i .feedRestore p s = feedWaiting i p (s.slot i) s.now := by
  unfold waitingFor
  rw [restoreCharge_eq]
  rfl

theorem enter_feedRestore_waits (down : (s.slot i).lines.feed = false) (charged : (s.profile r.profile).feedCharge ≠ 0)
    (others : s.inrush.queue ≠ []) : enterStep i .feedRestore (setSeq i (stepping r) s) =
      .stop (joinQueue (feedWaiting i (s.profile r.profile) (s.slot i) s.now)
        (setSeq i { state := .waitBudget, record := some r } s)) := by
  rw [enter_feedRestore down, hand_waits (by rw [restoreCharge_eq]; exact restoreCharge_charged charged) others,
    waitingFor_feed]

theorem enter_feedRestore_starts (dark : Dark (s.slot i)) (charged : (s.profile r.profile).feedCharge ≠ 0)
    (unused : Unused s.inrush) : enterStep i .feedRestore (setSeq i (stepping r) s) =
      .ends (setSeq i (stepping r) (raisedTo i (s.modInrush (firstStart
        (feedWaiting i (s.profile r.profile) (s.slot i) s.now) s.tables.bridge.capacity s.now)))) := by
  rw [enter_feedRestore dark.1, hand_starts (by rw [restoreCharge_eq]; exact restoreCharge_charged charged) unused
    (fun press => by cases press), executeCharged_feed (by exact dark), waitingFor_feed]

/-! ## A granted restore (R114, R117) -/

/-- FEED of a slot in FEED_OFF is raised within an acceptance, its POWER_CHANGED notice sent. -/
def grantRaised (a : Action) (i : SlotId) (s z : State) : State :=
  (z.modSlot i fun x => feedRaised (granted a s.now x)).notify (some i)
    (.powerChanged (s.slot i).record.observed .standby false (s.slot i).record.bootCount (s.slot i).record.lastCause)

theorem raisedTo_granted (l : SameView i s z) (off : (s.slot i).record.observed = .feedOff) {k : Inrush → Inrush} :
    raisedTo i ((z.modSlot i (granted a s.now)).modInrush k) = grantRaised a i s (z.modInrush k) := by
  unfold raisedTo grantRaised
  rw [off, show ((z.modSlot i (granted a s.now)).modInrush k).slot i = granted a s.now (s.slot i) from
    granted_view l]
  exact congrArg (State.notify · _ _) (modSlot_modSlot (s := z.modInrush k))

/-- The restore of a granted action is entered and raises FEED, the scheduler's account changed by `k`. -/
def Restores (a : Action) (profile : Option Nat) (i : SlotId) (s z : State) (k : Inrush → Inrush) : Prop :=
  ∀ r : SeqRecord, r.profile = usedProfile profile i s →
    enterStep i .feedRestore (setSeq i (stepping r) (z.modSlot i (granted a s.now))) =
      .ends (setSeq i (stepping r) (raisedTo i ((z.modSlot i (granted a s.now)).modInrush k)))

theorem restores_free (l : SameView i s z) (dark : Dark (s.slot i))
    (free : (s.profile (usedProfile profile i s)).feedCharge = 0) : Restores a profile i s z id := fun r used =>
  enter_feedRestore_free (by rw [granted_view l]; exact dark) (by rw [used, modSlot_profile, l.profileAt]; exact free)

theorem restores_charged (l : SameView i s z) (dark : Dark (s.slot i))
    (charged : (s.profile (usedProfile profile i s)).feedCharge ≠ 0) (unused : Unused z.inrush) :
    Restores a profile i s z (firstStart (feedWaiting i (s.profile (usedProfile profile i s)) (s.slot i) s.now)
      s.tables.bridge.capacity s.now) := by
  intro r used
  have tables : (z.modSlot i (granted a s.now)).tables = s.tables := l.tables
  have now : (z.modSlot i (granted a s.now)).now = s.now := l.now
  rw [enter_feedRestore_starts (by rw [granted_view l]; exact dark)
    (by rw [used, modSlot_profile, l.profileAt]; exact charged) (by exact unused), used, modSlot_profile, l.profileAt,
    granted_view l, tables, now]
  rfl

/-- A restore that is the whole list. -/
theorem restore_finishes {k : Inrush → Inrush} (l : SameView i s z) (off : (s.slot i).record.observed = .feedOff)
    (steps : stepsFor a .feedOff (s.profile (usedProfile profile i s)) = [.feedRestore])
    (restores : Restores a profile i s z k) :
    accept i a .operator (usedProfile profile i s) (setPending i .operator z) =
      finished i (startedRecord a profile i s .gate [] none) (grantRaised a i s (z.modInrush k)) := by
  rw [l.accept, off, steps, grantedTo, runSteps, run_ends (step := .feedRestore) (by decide) (restores _ rfl),
    raisedTo_granted l off]
  exact run_nil

/-- A restore that goes on through a GATE that passes at once to a start press without a charge. -/
theorem restore_presses {k : Inrush → Inrush} (l : SameView i s z) (off : (s.slot i).record.observed = .feedOff)
    (steps : stepsFor a .feedOff (s.profile (usedProfile profile i s)) =
      [.feedRestore, .gate, .press .start, .expectHigh])
    (restores : Restores a profile i s z k) (passes : GatePasses g (s.profile (usedProfile profile i s)) i s)
    (free : (s.profile (usedProfile profile i s)).startCharge = 0) :
    accept i a .operator (usedProfile profile i s) (setPending i .operator z) =
      (grantRaised a i s (z.modInrush k)).modSlot i (pressBegun g (startedRecord a profile i s .gate [] none) s) := by
  have tables : (grantRaised a i s (z.modInrush k)).tables = s.tables := by
    rw [grantRaised, notify_tables]
    exact l.tables
  have now : (grantRaised a i s (z.modInrush k)).now = s.now := by
    rw [grantRaised, notify_now]
    exact l.now
  have profiles : (grantRaised a i s (z.modInrush k)).profile (usedProfile profile i s) =
      s.profile (usedProfile profile i s) := by
    rw [State.profile, tables, State.profile]
  have observed : ((grantRaised a i s (z.modInrush k)).slot i).record.observed = .standby := by
    rw [grantRaised, notify_slot, modSlot_slot_same]
    rfl
  rw [l.accept, off, steps, grantedTo, runSteps, run_ends (step := .feedRestore) (by decide) (restores _ rfl),
    raisedTo_granted l off, run_press_free (g := g) (by rw [observed]; decide)
      (gatePasses_congr (s := z) (by rw [grantRaised, notify_units]; rfl)
        (l.gatePasses.mpr (by exact profiles.symm ▸ passes))) (by exact profiles.symm ▸ free),
    pressBegun_congr tables now]
  rfl

/-- A restore behind others waits. -/
theorem restore_waits {rest : List Step} (l : SameView i s z) (down : (s.slot i).lines.feed = false)
    (off : (s.slot i).record.observed = .feedOff)
    (steps : stepsFor a .feedOff (s.profile (usedProfile profile i s)) = .feedRestore :: rest)
    (charged : (s.profile (usedProfile profile i s)).feedCharge ≠ 0) (others : z.inrush.queue ≠ []) :
    accept i a .operator (usedProfile profile i s) (setPending i .operator z) =
      joinQueue (feedWaiting i (s.profile (usedProfile profile i s)) (s.slot i) s.now)
        (z.modSlot i fun x => { granted a s.now x with
          seq := { state := .waitBudget
                   record := some (startedRecord a profile i s .feedRestore rest none) } }) := by
  have now : (z.modSlot i (granted a s.now)).now = s.now := l.now
  rw [l.accept, off, steps, grantedTo, runSteps, run_stops (step := .feedRestore) (by decide)
    (enter_feedRestore_waits (by rw [granted_view l]; exact down)
      (by rw [modSlot_profile, l.profileAt]; exact charged) (by exact others)), modSlot_profile, l.profileAt, granted_view l, now,
    setSeq, modSlot_modSlot]
  rfl

/-- A slot whose FEED, raised within an acceptance, boots it, and whose start press is skipped. -/
def bootSkipped (a : Action) (i : SlotId) (s : State) (x : Slot) : Slot :=
  let z := bootedSlot i s { granted a s.now x with
    lines := { x.lines with feed := true }
    record := { (granted a s.now (s.slot i)).record with observed := .on } }
  { z with counters := { z.counters with skipped := bump z.counters.skipped } }

theorem bootedSlot_congr (tables : t.tables = s.tables) (now : t.now = s.now) : bootedSlot i t = bootedSlot i s := by
  unfold bootedSlot
  rw [State.console, State.setup, tables, now]
  rfl

theorem skipped_bootSeen (l : SameView i s z) :
    pressSkipped i (bootSeen i .feedOff ((z.modSlot i (granted a s.now)).modSlot i feedRaisedOn)) =
      bootNotice i .feedOff (granted a s.now (s.slot i)).record (z.modSlot i (bootSkipped a i s)) := by
  unfold pressSkipped State.count bootSeen bootNotice
  rw [modSlot_notify, modSlot_slot_same, granted_view l,
    bootedSlot_congr (s := s) (by exact l.tables) (by exact l.now), modSlot_modSlot, modSlot_modSlot, modSlot_modSlot]
  refine congrArg (State.notify · _ _) (modSlot_congr ?_)
  rw [l.slot]
  rfl

/-- A restore whose PG line is already active is a boot, and its start press is skipped. -/
theorem restore_boots (l : SameView i s z) (down : (s.slot i).lines.feed = false)
    (off : (s.slot i).record.observed = .feedOff) (high : (s.slot i).pg.filtered = true) (boots : BootsFree i s)
    (steps : stepsFor a .feedOff (s.profile (usedProfile profile i s)) =
      [.feedRestore, .gate, .press .start, .expectHigh])
    (free : (s.profile (usedProfile profile i s)).feedCharge = 0)
    (passes : GatePasses g (s.profile (usedProfile profile i s)) i s) :
    accept i a .operator (usedProfile profile i s) (setPending i .operator z) =
      finished i { startedRecord a profile i s .gate [] none with gate := some g }
        (bootNotice i .feedOff (granted a s.now (s.slot i)).record (z.modSlot i (bootSkipped a i s))) := by
  have same : SameUnits ((z.modSlot i (granted a s.now)).modSlot i feedRaisedOn) (bootSeen i .feedOff
      ((z.modSlot i (granted a s.now)).modSlot i feedRaisedOn)) := sameUnits_bootSeen .feedOff
  have profiles : (bootSeen i .feedOff ((z.modSlot i (granted a s.now)).modSlot i feedRaisedOn)).profile
      (usedProfile profile i s) = s.profile (usedProfile profile i s) := by
    rw [State.profile, same.tables]
    exact l.profileAt _
  have observed : ((bootSeen i .feedOff ((z.modSlot i (granted a s.now)).modSlot i feedRaisedOn)).slot i).record.observed =
      .on := by
    rw [bootSeen, bootNotice, notify_slot, modSlot_slot_same, modSlot_slot_same]
    rfl
  rw [l.accept, off, steps, grantedTo, runSteps, run_ends (step := .feedRestore) (by decide)
      (enter_feedRestore_boots (by rw [granted_view l]; exact down) (by rw [granted_view l]; exact off)
        (by rw [granted_view l]; exact high) (bootsFree_modSlot (l.bootsFree boots))
        (by rw [modSlot_profile]; exact (l.profileAt _).symm ▸ free)),
    run_ends (step := .gate) (by decide) (enter_gate_passes (g := g)
      (gatePasses_congr same.units (l.gatePasses.mpr (by exact profiles.symm ▸ passes)))),
    run_skips (step := .press .start) (by decide) (enter_press_met (by rw [observed]; rfl)), skipped_bootSeen l]
  exact run_nil

/-! ## A granted drop (R117, R126) -/

/-- FEED of a slot is dropped within an acceptance, its POWER_CHANGED notice sent. -/
def grantLost (a : Action) (i : SlotId) (s z : State) : State :=
  (z.modSlot i fun x => feedLost s.now (granted a s.now x)).notify (some i)
    (.powerChanged (s.slot i).record.observed .feedOff false (s.slot i).record.bootCount (s.slot i).record.lastCause)

theorem enter_feedDrop_granted (l : SameView i s z) (feed : (s.slot i).lines.feed = true)
    (powered : (s.slot i).record.observed ≠ .feedOff) :
    enterStep i .feedDrop (setSeq i (stepping r) (z.modSlot i (granted a s.now))) =
      .ends (setSeq i (stepping r) (grantLost a i s z)) := by
  have now : (z.modSlot i (granted a s.now)).now = s.now := l.now
  rw [enter_feedDrop (by rw [granted_view l]; exact feed) (by rw [granted_view l]; exact powered), granted_view l, now,
    modSlot_modSlot]
  rfl

theorem drop_finishes (l : SameView i s z) (feed : (s.slot i).lines.feed = true)
    (powered : (s.slot i).record.observed ≠ .feedOff) :
    accept i .feedOff .operator (usedProfile profile i s) (setPending i .operator z) =
      finished i (startedRecord .feedOff profile i s .gate [] none) (grantLost .feedOff i s z) := by
  rw [l.accept, stepsFor, grantedTo, runSteps,
    run_ends (step := .feedDrop) (by decide) (enter_feedDrop_granted l feed powered)]
  exact run_nil

theorem drop_dwells (l : SameView i s z) (feed : (s.slot i).lines.feed = true)
    (powered : (s.slot i).record.observed ≠ .feedOff) :
    accept i .cycleFeed .operator (usedProfile profile i s) (setPending i .operator z) =
      setSeq i (stepping (startedRecord .cycleFeed profile i s (.dwell .off)
        (.feedRestore :: if (s.profile (usedProfile profile i s)).autoPress then [.dwell .one, .powerOnTail] else [])
        (some (s.after ((s.profile (usedProfile profile i s)).offDwell * 1000))))) (grantLost .cycleFeed i s z) := by
  have after (n : Nat) : (grantLost .cycleFeed i s z).after n = s.after n := by
    rw [grantLost, State.after, notify_now]
    exact l.after n
  have profiles (n : Nat) : (grantLost .cycleFeed i s z).profile n = s.profile n := by
    rw [grantLost, State.profile, notify_tables]
    exact l.profileAt n
  rw [l.accept, stepsFor, grantedTo, runSteps, List.cons_append,
    run_ends (step := .feedDrop) (by decide) (enter_feedDrop_granted l feed powered), List.cons_append,
    run_stops (step := .dwell .off) (by decide) enter_dwell, after]
  dsimp only [entered]
  rw [profiles]
  rfl

/-! ## The requests -/

/-- The reply to a POWER request for one slot, and what was heard before it. -/
def powerReplied (h : Header) (e : StationId) (i : SlotId) (st : SeqState) (s : State) : State :=
  replied h .power .ok (.power [(i, .ok st)]) (hear e h.port s)

theorem powerReplied_inrush : (powerReplied h e i st s).inrush = s.inrush := by
  rw [powerReplied, replied_inrush, hear_inrush]

theorem modInrush_self {x : Inrush} (same : s.inrush = x) : s.modInrush (fun _ => x) = s := by
  subst same
  rfl

theorem behind_grantRaised : Behind (grantRaised a i s) := behind_notify.comp behind_modSlot

theorem behind_grantLost : Behind (grantLost a i s) := behind_notify.comp behind_modSlot

section

variable {k : Inrush → Inrush} (taken : PowerTaken h e i profile s) (passes : PowerPasses a profile q i s)
  (off : (s.slot i).record.observed = .feedOff)

include taken passes off

theorem request_restore_finishes
    (steps : stepsFor a .feedOff (s.profile (usedProfile profile i s)) = [.feedRestore])
    (restores : ∀ z, SameView i s z → z.inrush = s.inrush → Restores a profile i s z k) :
    exec (powerCommand a h profile [q]) s = .next (finished i (startedRecord a profile i s .gate [] none)
      (grantRaised a i s ((powerReplied h e i .idle s).modInrush fun _ => k s.inrush))) := by
  refine power_one taken passes (behind_finished.comp (behind_grantRaised.comp behind_modInrush))
    (fun z l same => ?_) fun z l _ => finished_idle
  rw [restore_finishes l off steps (restores z l same), State.modInrush, same]
  rfl

theorem request_restore_presses
    (steps : stepsFor a .feedOff (s.profile (usedProfile profile i s)) =
      [.feedRestore, .gate, .press .start, .expectHigh])
    (restores : ∀ z, SameView i s z → z.inrush = s.inrush → Restores a profile i s z k)
    (gate : GatePasses g (s.profile (usedProfile profile i s)) i s)
    (free : (s.profile (usedProfile profile i s)).startCharge = 0) :
    exec (powerCommand a h profile [q]) s =
      .next ((grantRaised a i s ((powerReplied h e i .stepping s).modInrush fun _ => k s.inrush)).modSlot i
        (pressBegun g (startedRecord a profile i s .gate [] none) s)) := by
  refine power_one taken passes (behind_modSlot.comp (behind_grantRaised.comp behind_modInrush))
    (fun z l same => ?_) fun z l _ => by rw [modSlot_slot_same]; rfl
  rw [restore_presses l off steps (restores z l same) gate free, State.modInrush, same]
  rfl

theorem request_restore_waits {rest : List Step} (down : (s.slot i).lines.feed = false)
    (steps : stepsFor a .feedOff (s.profile (usedProfile profile i s)) = .feedRestore :: rest)
    (charged : (s.profile (usedProfile profile i s)).feedCharge ≠ 0) (others : s.inrush.queue ≠ []) :
    exec (powerCommand a h profile [q]) s =
      .next (((powerReplied h e i .waitBudget s).modSlot i fun x => { granted a s.now x with
          seq := { state := .waitBudget, record := some (startedRecord a profile i s .feedRestore rest none) } }).modInrush
        fun _ => (joinQueue (feedWaiting i (s.profile (usedProfile profile i s)) (s.slot i) s.now) s).inrush) := by
  refine power_one taken passes (behind_modInrush.comp behind_modSlot) (fun z l same => ?_) fun z l _ =>
    congrArg (·.seq.state) (modSlot_slot_same (s := z))
  rw [restore_waits l down off steps charged (by rw [same]; exact others), joinQueue, joinQueue, State.modInrush,
    show (z.modSlot i _).inrush = s.inrush from same]
  rfl

end

/-- Settles O31. -/
theorem feedSwitched : Obligations.FeedSwitched := by
  unfold Obligations.FeedSwitched
  intro h e i profile q s taken x p answer begun changed presses raised charge counters charged ends
  refine ⟨fun a mem passes down off low => ?_, ?_, fun feed powered => ?_⟩
  · have dark : Dark (s.slot i) := ⟨down, off, low⟩
    have acts : a = .feedOn ∨ a = .powerOn := by simpa using mem
    have short : ¬ presses a → stepsFor a .feedOff p = [.feedRestore] := by
      rcases acts with rfl | rfl
      · exact fun _ => rfl
      · intro none_
        have auto : p.autoPress = false := by simpa [presses] using none_
        simp [stepsFor, powerOnSteps, auto]
    have long : presses a → stepsFor a .feedOff p = [.feedRestore, .gate, .press .start, .expectHigh] := by
      rintro ⟨rfl, auto⟩
      simp [stepsFor, powerOnSteps, auto]
    have steps : stepsFor a .feedOff p =
        .feedRestore :: if presses a then [.gate, .press .start, .expectHigh] else [] := by
      by_cases some_ : presses a
      · rw [long some_, if_pos some_]
      · rw [short some_, if_neg some_]
    refine ⟨fun free => ⟨fun none_ => ?_, fun g some_ gate uncharged => ?_⟩, fun costs others => ?_,
      fun costs empty idle never => ⟨fun none_ => ?_, fun g some_ gate uncharged => ?_⟩⟩
    · rw [request_restore_finishes (k := id) taken passes off (short none_) fun z l _ => restores_free l dark free,
        id, modInrush_self powerReplied_inrush]
      rfl
    · rw [request_restore_presses (k := id) taken passes off (long some_) (fun z l _ => restores_free l dark free) gate
        uncharged, id, modInrush_self powerReplied_inrush]
      rfl
    · rw [request_restore_waits taken passes off down steps costs others]
      rfl
    · rw [request_restore_finishes taken passes off (short none_) fun z l same =>
        restores_charged l dark costs (by rw [same]; exact ⟨empty, idle, never⟩)]
      rfl
    · rw [request_restore_presses taken passes off (long some_) (fun z l same =>
        restores_charged l dark costs (by rw [same]; exact ⟨empty, idle, never⟩)) gate uncharged]
      rfl
  · intro g passes down off high free auto boots gate y
    exact power_one (a := .powerOn) taken passes
      (behind_finished.comp (behind_notify.comp behind_modSlot))
      (fun z l _ => restore_boots l down off high boots (by
        rw [stepsFor, powerOnSteps, show (s.profile (usedProfile profile i s)).autoPress = true from auto]; rfl) free gate)
      fun z l _ => finished_idle
  · intro dropped
    refine ⟨fun passes => ?_, fun passes => ?_⟩
    · exact power_one (a := .feedOff) taken passes (F := fun z => finished i (begun .feedOff) (grantLost .feedOff i s z))
        (behind_finished.comp behind_grantLost)
        (fun z l _ => drop_finishes l feed powered) fun z l _ => finished_idle
    · refine (power_one (a := .cycleFeed) taken passes (behind_modSlot.comp behind_grantLost)
        (fun z l _ => drop_dwells l feed powered) fun z l _ => by rw [modSlot_slot_same]; rfl).trans ?_
      refine congrArg Host.Outcome.next ?_
      rw [grantLost, modSlot_notify, modSlot_modSlot]
      rfl

end Sys2Proof.Machine
end

section
/-! PROOFS. The deadlines of steps: presses, dwells, expectations, gates, and the release of a RESET (R104,
R107, R110 to R118). -/

namespace Sys2Proof.Machine

open Sys2Proof

variable {i : SlotId} {s t z : State} {r : SeqRecord} {st : SeqState} {g : GateOutcome} {due : Time}
  {tail : SlotId → State → State}

theorem stepDue_of {which : Step → Bool} (state : (s.slot i).seq.state = st) (record : (s.slot i).seq.record = some r)
    (deadline : r.deadline = some due) (now : reached due s.now = true) (current : which r.current = true) :
    s.stepDue i st which = true := by
  unfold State.stepDue
  rw [record]
  simp [state, current, deadline, expired, now]

theorem seq_eq {q : Sequencer} (state : q.state = st) (record : q.record = some r) :
    q = { state := st, record := some r } := by
  cases q
  cases state
  cases record
  rfl

theorem stepping_self (seq : (s.slot i).seq = { state := .stepping, record := some r }) : setSeq i (stepping r) s = s :=
  setSeq_self seq

theorem stepEnds_setSeq : stepEnds i (setSeq i (stepping r) s) = runSteps i r.steps (setSeq i (stepping r) s) := by
  rw [stepEnds, stepping, setSeq_restOf]

/-! ## Presses and dwells (R107) -/

theorem pressDeadline_runs (seq : (s.slot i).seq = { state := .stepping, record := some r })
    (deadline : r.deadline = some due) (now : reached due s.now = true) (press : isPress r.current = true) :
    exec (.pressDeadline i) s = .next (runSteps i r.steps (setSeq i (stepping r) (pwrSet false i s))) := by
  refine congrArg Host.Outcome.next ?_
  rw [if_pos (stepDue_of (r := r) (by rw [seq]) (by rw [seq]) deadline now press), setClaims_pwrSet]
  conv_lhs => rw [← stepping_self seq]
  rw [pwrSet_setSeq, stepEnds_setSeq]

theorem dwellDeadline_runs (seq : (s.slot i).seq = { state := .stepping, record := some r })
    (deadline : r.deadline = some due) (now : reached due s.now = true) (dwell : isDwell r.current = true) :
    exec (.dwellDeadline i) s = .next (runSteps i r.steps (setSeq i (stepping r) s)) := by
  refine congrArg Host.Outcome.next ?_
  rw [if_pos (stepDue_of (r := r) (by rw [seq]) (by rw [seq]) deadline now dwell)]
  conv_lhs => rw [← stepping_self seq]
  rw [stepEnds_setSeq]

/-- The tail of a cycle on a slot that is ON has no step. -/
theorem run_tail_on (on : (s.slot i).record.observed = .on) :
    runSteps i [.powerOnTail] (setSeq i (stepping r) s) = finished i r s := by
  rw [runSteps, runWith, runTail, setSeq_record, on]
  exact run_nil

/-- The tail of a cycle on a slot in STANDBY is the start press behind its GATE. -/
theorem run_tail_standby (standby : (s.slot i).record.observed = .standby)
    (passes : GatePasses g (s.profile r.profile) i s) (free : (s.profile r.profile).startCharge = 0) :
    runSteps i [.powerOnTail] (setSeq i (stepping r) s) = s.modSlot i (pressBegun g r s) := by
  rw [runSteps, runWith, runTail, setSeq_record, standby]
  exact run_press_free (by rw [standby]; decide) passes free

/-- A step that waits, entered on a slot changed by `f`. -/
theorem run_stops_modSlot {step : Step} {rest : List Step} {f : Slot → Slot} {wait : Nat} (plain : step ≠ .powerOnTail)
    (stops : enterStep i step (setSeq i (stepping (entered r step rest)) (s.modSlot i f)) =
      .stop (setSeq i (stepping { entered r step rest with deadline := some (s.after wait) }) (s.modSlot i f))) :
    runWith tail i (step :: rest) (setSeq i (stepping r) (s.modSlot i f)) = s.modSlot i fun x => { f x with
      seq := { state := .stepping, record := some { r with
        current := step, steps := rest, deadline := some (s.after wait) } } } := by
  rw [run_stops plain stops, setSeq, modSlot_modSlot]
  rfl

theorem pwrSet_record {b : Bool} : ((pwrSet b i s).slot i).record = (s.slot i).record := by
  rw [pwrSet, modSlot_slot_same]

theorem raisedTo_after {n : Nat} : (raisedTo i s).after n = s.after n := by
  rw [State.after, raisedTo, notify_now]
  rfl

/-- Settles O36. -/
theorem stepDeadlines : Obligations.StepDeadlines := by
  unfold Obligations.StepDeadlines
  intro i s r due x p entered_ released seq deadline now
  refine ⟨fun press st more steps waits => ?_, fun press st more steps met => ?_, fun dwell => ⟨fun done => ?_,
    fun g steps standby gate free => ?_, ?_⟩⟩
  · rw [pressDeadline_runs seq deadline now press, steps]
    refine congrArg Host.Outcome.next ?_
    rcases waits with ⟨rfl, off⟩ | ⟨⟨soft, rfl⟩, on⟩
    · exact run_stops_modSlot (by decide) (enter_expectHigh (s := pwrSet false i s) (by rw [pwrSet_record]; exact off))
    · cases soft
      · exact run_stops_modSlot (by decide) (enter_expectLow (s := pwrSet false i s) (by rw [pwrSet_record]; exact on))
      · exact run_stops_modSlot (by decide) (enter_expectLow (s := pwrSet false i s) (by rw [pwrSet_record]; exact on))
  · rw [pressDeadline_runs seq deadline now press, steps]
    have ends : runSteps i (st :: more) (setSeq i (stepping r) (pwrSet false i s)) =
        runSteps i more (setSeq i (stepping (entered r st more)) (pwrSet false i s)) := by
      rcases met with ⟨rfl, on⟩ | ⟨⟨soft, rfl⟩, off⟩
      · exact run_ends (by decide) (enter_expectHigh_met (by rw [pwrSet_record]; exact on))
      · exact run_ends (fun eq => by cases eq) (enter_expectLow_met (by rw [pwrSet_record]; exact off))
    rw [ends]
    refine ⟨fun last => ?_, fun rest next => ?_⟩
    · rw [last]
      exact congrArg Host.Outcome.next run_nil
    · rw [next]
      exact congrArg Host.Outcome.next (run_stops_modSlot (by decide) enter_dwell)
  · rw [dwellDeadline_runs seq deadline now dwell]
    rcases done with last | ⟨tail, on⟩
    · rw [last]
      exact congrArg Host.Outcome.next run_nil
    · rw [tail]
      exact congrArg Host.Outcome.next (run_tail_on on)
  · rw [dwellDeadline_runs seq deadline now dwell, steps, run_tail_standby standby gate free]
  · intro more steps down off low free raised
    rw [dwellDeadline_runs seq deadline now dwell, steps]
    have ends : runSteps i (.feedRestore :: more) (setSeq i (stepping r) s) =
        runSteps i more (setSeq i (stepping (entered r .feedRestore more)) (raisedTo i s)) :=
      run_ends (by decide) (enter_feedRestore_free ⟨down, off, low⟩ free)
    rw [ends]
    refine ⟨fun last => ?_, fun rest next => ?_⟩
    · rw [last]
      exact congrArg Host.Outcome.next run_nil
    · rw [next]
      refine congrArg Host.Outcome.next ((run_stops (by decide) enter_dwell).trans ?_)
      rw [raisedTo_after]
      rfl

/-! ## The GATE of a sequence that waits (R113) -/

/-- What a waiting GATE hears sets its sequence going again. -/
theorem gateReport_eq {primed : Bool} (seq : (s.slot i).seq = { state := .waitGate, record := some r }) :
    gateReport i primed s =
      let z := setSeq i (stepping { r with deadline := none }) s
      if primed then stepEnds i (setGate i .primed z) else goOn i (gateFails i z) := by
  have woken : setSeqState i .stepping (modRecordOf i (fun r => { r with deadline := none }) s) =
      setSeq i (stepping { r with deadline := none }) s := by
    rw [modRecordOf_setSeq, setSeqState_setSeq, seq]
    rfl
  unfold gateReport
  rw [if_pos (by rw [seq]), woken]

/-- The record of a sequence whose GATE has ended with an outcome. -/
def gated (g : GateOutcome) (r : SeqRecord) : SeqRecord := { r with deadline := none, gate := some g }

theorem gateReport_primed (seq : (s.slot i).seq = { state := .waitGate, record := some r }) :
    gateReport i true s = runSteps i r.steps (setSeq i (stepping (gated .primed r)) s) := by
  rw [gateReport_eq seq]
  dsimp only
  rw [if_pos rfl, stepping, setGate_setSeq]
  exact stepEnds_setSeq (r := gated .primed r)

theorem gateReport_waives (seq : (s.slot i).seq = { state := .waitGate, record := some r })
    (wait : (s.profile r.profile).gate ≠ .require) :
    gateReport i false s = runSteps i r.steps (setSeq i (stepping (gated .waived r)) s) := by
  rw [gateReport_eq seq]
  dsimp only
  rw [if_neg (by decide), gateFails_waives (r := { r with deadline := none }) wait]
  exact stepEnds_setSeq (r := gated .waived r)

theorem gateReport_halts (seq : (s.slot i).seq = { state := .waitGate, record := some r })
    (require : (s.profile r.profile).gate = .require) :
    gateReport i false s = halt i .gateFailed (setSeq i (stepping { r with deadline := none }) s) := by
  rw [gateReport_eq seq]
  dsimp only
  rw [if_neg (by decide), gateFails_halts (r := { r with deadline := none }) require]
  rfl

theorem gateWaitDeadline_reports (seq : (s.slot i).seq = { state := .waitGate, record := some r })
    (deadline : r.deadline = some due) (now : reached due s.now = true) (gate : r.current = .gate) :
    exec (.gateWaitDeadline i) s = .next (gateReport i false s) := by
  refine congrArg Host.Outcome.next ?_
  rw [if_pos (stepDue_of (r := r) (by rw [seq]) (by rw [seq]) deadline now (by rw [gate]; rfl))]

/-- The end of a RESET. -/
theorem run_release (claim : (s.slot i).lines.rstSeq = true) (loc : (s.slot i).lines.rstLocal = false)
    (free : BootsFree i s) :
    runWith tail i [.releaseRst] (setSeq i (stepping r) s) = finished i r (rstReleased i s) := by
  rw [run_ends (step := .releaseRst) (by decide) (enter_releaseRst claim loc free)]
  exact run_nil

/-- The start press behind a GATE that has ended. -/
theorem run_gated_press (off : (s.slot i).record.observed ≠ .on) (free : (s.profile r.profile).startCharge = 0) :
    runWith tail i [.press .start, .expectHigh] (setSeq i (stepping (gated g r)) s) =
      s.modSlot i (pressBegun g r s) := by
  refine run_stops (step := .press .start) (by decide) ((enter_press_start off).trans ?_)
  rw [hand_free (by exact free)]
  exact executeCharged_pressing (r := r)

/-! ## The end of a RESET (R8, R116, R118) -/

theorem unfilled_booted (i : SlotId) : Unfilled fun s => (s.slot i, bootedSlot i s) := fun p n k x s => by
  cases p <;> rfl

theorem behind_rstReleased : Behind (rstReleased i) := by
  refine Behind.read (unfilled_booted i) (F := fun (y, f) s =>
    let cleared := fun (x : Slot) => { x with
      lines := { x.lines with rstSeq := false }
      record := { x.record with resetWhileOn := false } }
    if y.record.observed = .on ∧ y.record.resetWhileOn = true then
      bootNotice i .on y.record (s.modSlot i fun x => f (cleared x))
    else s.modSlot i cleared) fun (y, f) => ?_
  dsimp only
  split_ifs
  · exact behind_notify.comp behind_modSlot
  · exact behind_modSlot

/-- Settles O37. -/
theorem resetReleases : Obligations.ResetReleases := by
  unfold Obligations.ResetReleases
  intro i s r free x p record claim loc
  refine ⟨fun due deadline now => ⟨fun state current steps => ?_, fun state current steps => ?_⟩,
    fun h e profile q taken absent waits => ?_⟩
  · have seq : (s.slot i).seq = { state := .stepping, record := some r } := seq_eq state record
    have dwell : isDwell r.current = true := by rw [current]; rfl
    rw [dwellDeadline_runs seq deadline now dwell, steps]
    refine ⟨fun g passes => ?_, fun fails require absent => ?_, fun waits => ?_⟩
    · refine congrArg Host.Outcome.next ?_
      rw [runSteps, run_ends (step := .gate) (by decide) (enter_gate_passes (g := g) (by exact passes)),
        run_release claim loc free]
      rfl
    · refine congrArg Host.Outcome.next ?_
      rw [runSteps, run_stops (step := .gate) (by decide) (enter_gate_halts (by exact fails) (by exact require)),
        halt_released (by rw [setSeq_seq]; rfl) (by rw [setSeq_lines]; exact claim) (by rw [setSeq_lines]; exact loc)
          (bootsFree_setSeq free) (by exact absent), rstReleased_setSeq, haltedNow_setSeq]
      rfl
    · exact congrArg Host.Outcome.next (run_stops (step := .gate) (by decide) (enter_gate_waits (by exact waits)))
  · have seq : (s.slot i).seq = { state := .waitGate, record := some r } := seq_eq state record
    rw [gateWaitDeadline_reports seq deadline now current]
    refine ⟨fun wait => ?_, fun require absent => ?_⟩
    · rw [gateReport_waives seq (by rw [show (s.profile r.profile).gate = _ from wait]; decide), steps, runSteps,
        run_release claim loc free]
      rfl
    · rw [gateReport_halts seq require, halt_released (by rw [setSeq_seq]; rfl) (by rw [setSeq_lines]; exact claim)
        (by rw [setSeq_lines]; exact loc) (bootsFree_setSeq free) (by exact absent), rstReleased_setSeq, haltedNow_setSeq]
      rfl
  · refine power_abort taken (behind_haltedNow.comp behind_rstReleased) fun z l same => ?_
    have busy : seqBusy (z.slot i).seq.state = true := by
      rw [l.slot]
      rcases waits with w | w <;> rw [show (s.slot i).seq.state = _ from w] <;> rfl
    rw [abort_busy busy]
    exact halt_released (by rw [l.slot]; exact record) (by rw [l.slot]; exact claim) (by rw [l.slot]; exact loc)
      (l.bootsFree free) (by rw [waitingSlots_congr same]; exact absent)

/-! ## Expectations that expire (R110, R111) -/

theorem currentIs_of (seq : (s.slot i).seq = { state := .stepping, record := some r }) (step : Step) :
    s.currentIs i step = decide (r.current = step) := by
  unfold State.currentIs
  rw [seq]
  simp

/-- Settles O38. -/
theorem expectationsExpire : Obligations.ExpectationsExpire := by
  unfold Obligations.ExpectationsExpire
  intro i s r due x p record deadline now free absent halts
  have halted (why : HaltReason) : halt i why s = haltedNow i why r s := halt_eq record free absent
  refine ⟨fun state current => ?_, fun soft state current => ?_, fun state current => ?_⟩
  · refine congrArg Host.Outcome.next ?_
    rw [if_pos (stepDue_of (r := r) state record deadline now (by rw [current]; rfl)), halted]
  · have seq : (s.slot i).seq = { state := .stepping, record := some r } := seq_eq state record
    have profiles : s.seqProfile i = p := by
      unfold State.seqProfile
      rw [seq]
    have lows : exec (.expectLowDeadline i) s = .next (lowExpires i s) := by
      refine congrArg Host.Outcome.next ?_
      rw [if_pos (stepDue_of (r := r) state record deadline now (by rw [current]; rfl))]
    refine ⟨fun hard => ?_, fun isSoft escalate on => ?_⟩
    · show exec _ _ = _
      rw [lows, lowExpires, currentIs_of seq, profiles, current, if_neg, halted]
      rcases hard with rfl | never
      · simp
      · simp [never]
    · rw [lows, lowExpires, currentIs_of seq, profiles, current, isSoft, escalate, if_pos (by decide), modRecordOf_setSeq, seq]
      refine congrArg Host.Outcome.next ?_
      have rest : s.restOf i = r.steps := by
        unfold State.restOf
        rw [seq]
      rw [rest]
      refine (run_stops (step := .hold) (r := { r with escalated := true }) (by decide) (enter_hold on)).trans ?_
      rw [setSeq, pwrSet, modSlot_modSlot]
      rfl
  · have seq : (s.slot i).seq = { state := .waitGate, record := some r } := seq_eq state record
    refine ⟨fun require => ?_, fun wait steps uncharged standby => ?_⟩
    · show exec _ _ = _
      rw [gateWaitDeadline_reports seq deadline now current, gateReport_halts seq require,
        halt_eq (by rw [setSeq_seq]; rfl) (by rw [setSeq_lines]; exact free) (by exact absent), haltedNow_setSeq]
      rfl
    · rw [gateWaitDeadline_reports seq deadline now current,
        gateReport_waives seq (by rw [show (s.profile r.profile).gate = _ from wait]; decide), steps]
      exact congrArg Host.Outcome.next (run_gated_press (by rw [show (s.slot i).record.observed = _ from standby]; decide)
        uncharged)

end Sys2Proof.Machine
end

section
/-! PROOFS. The evaluation of the Inrush Queue (R128 to R132), and the recovery requests (R71 to R74). -/

namespace Sys2Proof.Machine

open Sys2Proof

variable {i : SlotId} {s t z : State} {r : SeqRecord} {st : SeqState} {g : GateOutcome} {w : Waiting} {ws : List Waiting}

/-! ## The test of the head (R128 to R131) -/

/-- The charges that have not expired. -/
def liveCharges (s : State) : List Charge := s.inrush.active.filter fun c => decide (elapsed c s.now < c.settle)

/-- The share of a charge that has not expired. -/
def shareOf (now : Time) (c : Charge) : Nat := (c.charge * (c.settle - elapsed c now) + c.settle - 1) / c.settle

theorem loadOf_live : loadOf (liveCharges s) s.now = ((liveCharges s).map (shareOf s.now)).sum := by
  refine congrArg List.sum (List.map_congr_left fun c mem => ?_)
  have young : elapsed c s.now < c.settle := of_decide_eq_true (List.mem_filter.mp mem).2
  unfold contribution
  rw [if_neg (by omega)]
  rfl

/-- The head of the queue passes its test. -/
def HeadPasses (charge : Nat) (s : State) : Prop :=
  let b := s.tables.bridge
  (liveCharges s = [] ∨ ((liveCharges s).map (shareOf s.now)).sum + min charge b.capacity ≤ b.capacity) ∧
    (∀ t, s.inrush.last = some t → b.spacing ≤ (s.now - t).toNat) ∧ (liveCharges s).length < 16

theorem headPasses_iff {charge : Nat} : headPasses (expireCharges s) charge = true ↔ HeadPasses charge s := by
  have active : (expireCharges s).inrush.active = liveCharges s := rfl
  have spaced : (match s.inrush.last with
      | none => true
      | some t => decide (s.tables.bridge.spacing ≤ (s.now - t).toNat)) = true ↔
      ∀ t, s.inrush.last = some t → s.tables.bridge.spacing ≤ (s.now - t).toNat := by
    cases s.inrush.last <;> simp
  unfold headPasses HeadPasses
  dsimp only
  rw [Bool.and_eq_true, Bool.and_eq_true, Bool.or_eq_true, decide_eq_true_eq, decide_eq_true_eq, List.isEmpty_iff,
    active, ← loadOf_live, and_assoc]
  exact and_congr_right fun _ => and_congr_left fun _ => spaced

/-- The account once the head has started. -/
def headStarted (w : Waiting) (ws : List Waiting) (s : State) : Inrush :=
  { last := some s.now
    queue := ws
    active := liveCharges s ++
      [{ slot := w.slot, kind := w.kind, charge := w.charge, settle := w.settle, start := s.now }]
    counters := { s.inrush.counters with
      started := bump s.inrush.counters.started
      oversized := if s.tables.bridge.capacity < w.charge then bump s.inrush.counters.oversized
        else s.inrush.counters.oversized } }

theorem startCharge_expired (queue : s.inrush.queue = w :: ws) :
    startCharge w (expireCharges s) = s.modInrush fun _ => headStarted w ws s := by
  unfold startCharge expireCharges State.modInrush headStarted
  simp only [queue, List.drop_one, List.tail_cons]
  rfl

theorem skipStart_expired (queue : s.inrush.queue = w :: ws) : skipStart (expireCharges s) = s.modInrush fun x =>
    { x with queue := ws, active := liveCharges s, counters := { x.counters with skipped := bump x.counters.skipped } } := by
  unfold skipStart expireCharges State.modInrush
  simp only [queue, List.drop_one, List.tail_cons]
  rfl

/-- A head that passes is given its start. -/
theorem evaluation_starts (queue : s.inrush.queue = w :: ws) (passes : HeadPasses w.charge s) :
    exec .inrushEvaluation s = .next (goOn w.slot (giveStart w (expireCharges s))) := by
  refine congrArg Host.Outcome.next ?_
  rw [queue]
  exact if_pos (headPasses_iff.mpr passes)

theorem evaluation_waits (queue : s.inrush.queue = w :: ws) (fails : ¬ HeadPasses w.charge s) :
    exec .inrushEvaluation s = .next (expireCharges s) := by
  refine congrArg Host.Outcome.next ?_
  rw [queue]
  exact if_neg fun passes => fails (headPasses_iff.mp passes)

/-- A step that starts runs with its charge in the account. -/
theorem giveStart_runs (queue : s.inrush.queue = w :: ws) (seq : (s.slot w.slot).seq = { state := st, record := some r })
    (cold : w.kind = .startPress → (s.slot w.slot).record.observed ≠ .on) :
    giveStart w (expireCharges s) = executeCharged w.slot w.kind
      (setSeq w.slot { state := st, record := some r } (s.modInrush fun _ => headStarted w ws s)) := by
  unfold giveStart
  rw [if_neg fun skip => cold skip.1 skip.2, startCharge_expired queue]
  exact congrArg (executeCharged w.slot w.kind) (setSeq_self (s := s.modInrush _) seq).symm

/-- A start press of a slot that is ON is skipped, its EXPECT_HIGH with it. -/
theorem giveStart_skips (queue : s.inrush.queue = w :: ws)
    (seq : (s.slot w.slot).seq = { state := st, record := some r }) (kind : w.kind = .startPress)
    (on : (s.slot w.slot).record.observed = .on) : goOn w.slot (giveStart w (expireCharges s)) =
      runSteps w.slot (r.steps.drop 1) (setSeq w.slot (stepping r) (pressSkipped w.slot (s.modInrush fun x =>
        { x with
            queue := ws, active := liveCharges s
            counters := { x.counters with skipped := bump x.counters.skipped } }))) := by
  unfold giveStart
  rw [if_pos ⟨kind, on⟩, skipStart_expired queue]
  conv_lhs => rw [← setSeq_self (s := s.modInrush _) (i := w.slot) seq, setSeqState_setSeq]
  unfold skipPress goOn
  dsimp only
  rw [show ∀ z : State, z.count w.slot (fun c => { c with skipped := bump c.skipped }) = pressSkipped w.slot z from
    fun _ => rfl, pressSkipped_setSeq, setSeq_restOf]
  rfl

/-- A start press that starts is pressed. -/
theorem start_pressed (queue : s.inrush.queue = w :: ws)
    (seq : (s.slot w.slot).seq = { state := st, record := some r }) (kind : w.kind = .startPress)
    (off : (s.slot w.slot).record.observed ≠ .on) : goOn w.slot (giveStart w (expireCharges s)) =
      setSeq w.slot (stepping { r with deadline := some (s.after (s.profile r.profile).tapWidth) })
        (pwrSet true w.slot (s.modInrush fun _ => headStarted w ws s)) := by
  rw [giveStart_runs queue seq fun _ => off, kind, executeCharged_press]
  rfl

/-- A restore that starts raises FEED and goes on. -/
theorem start_raises (queue : s.inrush.queue = w :: ws)
    (seq : (s.slot w.slot).seq = { state := st, record := some r }) (kind : w.kind = .feedRestore)
    (dark : Dark (s.slot w.slot)) : goOn w.slot (giveStart w (expireCharges s)) =
      runSteps w.slot r.steps
        (setSeq w.slot (stepping r) (raisedTo w.slot (s.modInrush fun _ => headStarted w ws s))) := by
  rw [giveStart_runs queue seq (fun press => by rw [kind] at press; cases press), kind,
    executeCharged_feed (by exact dark)]
  exact stepEnds_setSeq

theorem raisedTo_profile {n : Nat} : (raisedTo i s).profile n = s.profile n := by
  rw [State.profile, raisedTo, notify_tables]
  rfl

theorem raisedTo_observed : ((raisedTo i s).slot i).record.observed = .standby := by
  rw [raisedTo, notify_slot, modSlot_slot_same]
  rfl

theorem raisedTo_passes {p : Profile} (passes : GatePasses g p i s) : GatePasses g p i (raisedTo i s) :=
  gatePasses_congr (by rw [raisedTo, notify_units]; rfl) passes

theorem raisedTo_inrush : (raisedTo i s).inrush = s.inrush := by
  rw [raisedTo, notify_inrush]
  rfl

theorem raisedTo_pressBegun : pressBegun g r (raisedTo i s) = pressBegun g r s :=
  pressBegun_congr (by rw [raisedTo, notify_tables]; rfl) (by rw [raisedTo, notify_now]; rfl)

theorem joinQueue_behind {q : List Waiting} (queue : s.inrush.queue = q) : joinQueue w s = { s with
    inrush := { s.inrush with
      queue := q ++ [w], counters := { s.inrush.counters with joins := bump s.inrush.counters.joins } } } := by
  subst queue
  rfl

/-- Settles O39. -/
theorem inrushEvaluated : Obligations.InrushEvaluated := by
  unfold Obligations.InrushEvaluated
  intro s b live share load
  refine ⟨fun empty => ?_, ?_⟩
  · refine congrArg Host.Outcome.next ?_
    rw [empty]
  · intro w ws queue fits spaced
    refine ⟨fun fails => evaluation_waits queue fails, ?_⟩
    intro i x starts stepping_ r fit space room seq
    have evaluates := evaluation_starts queue ⟨fit, space, room⟩
    refine ⟨fun kind off => ?_, fun kind on steps => ?_, fun kind down off low => ?_⟩
    · rw [evaluates, start_pressed queue seq kind off, pwrSet, setSeq_modSlot]
      rfl
    · rw [evaluates, giveStart_skips queue seq kind on, steps]
      exact congrArg Host.Outcome.next run_nil
    · have dark : Dark (s.slot i) := ⟨down, off, low⟩
      intro told
      rw [evaluates, start_raises queue seq kind dark]
      have raised (f : Slot → Slot) : told (s.modSlot i fun x => f (feedRaised x)) =
          (raisedTo i (s.modInrush fun _ => headStarted w ws s)).modSlot i f := by
        rw [raisedTo, modSlot_notify, modSlot_modSlot]
        rfl
      refine ⟨fun last => ?_, fun rest steps => ?_, fun g steps passes => ⟨fun free => ?_, fun charged others => ?_⟩⟩
      · rw [last]
        exact congrArg Host.Outcome.next run_nil
      · rw [steps, runSteps, run_stops (step := .dwell .one) (by decide) enter_dwell, raisedTo_after]
        exact congrArg Host.Outcome.next (raised _).symm
      · rw [steps, runSteps, run_press_free (by rw [raisedTo_observed]; decide)
          (raisedTo_passes (by rw [raisedTo_profile]; exact passes)) (by rw [raisedTo_profile]; exact free),
          raisedTo_pressBegun]
        exact congrArg Host.Outcome.next (raised (pressBegun g r s)).symm
      · intro z
        rw [steps, runSteps, run_press_waits (by rw [raisedTo_observed]; decide)
          (raisedTo_passes (by rw [raisedTo_profile]; exact passes)) (by rw [raisedTo_profile]; exact charged)
          (by rw [raisedTo_inrush]; exact others), raisedTo_profile]
        have queued : z = setSeq i { state := .waitBudget, record := some (pressing g r) }
            (raisedTo i (s.modInrush fun _ => headStarted w ws s)) :=
          raised fun y => { y with seq := { state := .waitBudget, record := some (pressing g r) } }
        have waiting : z.inrush.queue = ws := by
          rw [queued]
          exact congrArg Inrush.queue raisedTo_inrush
        rw [← queued, joinQueue_behind waiting]
        rfl

end Sys2Proof.Machine
end

section
/-! PROOFS. Recovery requests, started or declined (R71 to R74). -/

namespace Sys2Proof.Machine

open Sys2Proof

variable {i : SlotId} {s t z : State} {r : SeqRecord} {q : Sequencer} {a : Action} {req : RecoveryRequest}

/-! ## What a start of a recovery keeps -/

/-- What the steps of a recovery's action leave of the slot as its acceptance made it. -/
def StartKept (x y : Slot) : Prop :=
  y.recovery = x.recovery ∧ y.record.pendingCause = x.record.pendingCause ∧
    y.counters.recoveriesStarted = x.counters.recoveriesStarted ∧ y.counters.accepted = x.counters.accepted

theorem StartKept.trans {x y w : Slot} (h : StartKept x y) (k : StartKept y w) : StartKept x w :=
  ⟨k.1.trans h.1, k.2.1.trans h.2.1, k.2.2.1.trans h.2.2.1, k.2.2.2.trans h.2.2.2⟩

/-- A move of slot `i` that leaves what its acceptance made. -/
def StepKept (i : SlotId) (s t : State) : Prop := OnlySlot i s t ∧ StartKept (s.slot i) (t.slot i)

theorem stepKept_refl : StepKept i s s := ⟨onlySlot_refl, rfl, rfl, rfl, rfl⟩

theorem StepKept.trans (h : StepKept i s t) (k : StepKept i t z) : StepKept i s z :=
  ⟨onlySlot_trans h.1 k.1, h.2.trans k.2⟩

theorem stepKept_modSlot {f : Slot → Slot} (kept : StartKept (s.slot i) (f (s.slot i))) :
    StepKept i s (s.modSlot i f) := ⟨onlySlot_modSlot, by rw [modSlot_slot_same]; exact kept⟩

theorem stepKept_notify {o : Option SlotId} {b : NoticeBody} : StepKept i s (s.notify o b) :=
  ⟨onlySlot_notify, by rw [notify_slot]; exact ⟨rfl, rfl, rfl, rfl⟩⟩

theorem stepKept_setSeq : StepKept i s (setSeq i q s) := stepKept_modSlot ⟨rfl, rfl, rfl, rfl⟩

theorem stepKept_pwrSet {b : Bool} : StepKept i s (pwrSet b i s) := stepKept_modSlot ⟨rfl, rfl, rfl, rfl⟩

theorem stepKept_pressSkipped : StepKept i s (pressSkipped i s) := stepKept_modSlot ⟨rfl, rfl, rfl, rfl⟩

theorem stepKept_finished : StepKept i s (finished i r s) := by
  unfold finished
  exact (stepKept_modSlot (by exact ⟨rfl, rfl, rfl, rfl⟩)).trans stepKept_notify

/-- The sequence of the slot, where it still runs, is the one that was started with record `r`. -/
def StillRuns (i : SlotId) (r : SeqRecord) (t : State) : Prop :=
  ∀ p, (t.slot i).seq.record = some p →
    p.action = r.action ∧ p.origin = r.origin ∧ p.profile = r.profile ∧ p.accepted = r.accepted

theorem stillRuns_setSeq {p : SeqRecord} (same : p.action = r.action ∧ p.origin = r.origin ∧ p.profile = r.profile ∧
    p.accepted = r.accepted) : StillRuns i r (setSeq i (stepping p) s) := by
  intro p' eq
  rw [setSeq_seq] at eq
  cases eq
  exact same

theorem stillRuns_finished : StillRuns i r (finished i r s) := by
  intro p eq
  rw [finished, notify_slot, modSlot_slot_same] at eq
  cases eq

/-- A claim on RST_OUT is made. -/
theorem enter_assertRst_kept : ∃ w, enterStep i .assertRst (setSeq i q s) = .ends (setSeq i q w) ∧ StepKept i s w := by
  by_cases asserted : rstAsserted (s.slot i).lines = true
  · refine ⟨s.modSlot i fun x => { x with lines := { x.lines with rstSeq := true } }, ?_, stepKept_modSlot ⟨rfl, rfl, rfl, rfl⟩⟩
    unfold enterStep
    dsimp only
    rw [setClaims_rstKept (by rw [setSeq_lines, asserted]; simp [rstAsserted]), setSeq_apart fun _ => rfl]
  · rw [Bool.not_eq_true] at asserted
    refine ⟨s.modSlot i fun x => { x with
        lines := { x.lines with rstSeq := true }
        record := { x.record with
          resetWhileOn := if x.record.observed = .on then true else x.record.resetWhileOn } }, ?_,
      stepKept_modSlot ⟨rfl, rfl, rfl, rfl⟩⟩
    unfold enterStep
    dsimp only
    rw [setClaims_asserts (by rw [setSeq_lines]; exact asserted) (by simp [rstAsserted]), setSeq_apart fun _ => rfl]

/-- FEED is dropped, where it was raised. -/
theorem enter_feedDrop_kept : ∃ w, enterStep i .feedDrop (setSeq i q s) = .ends (setSeq i q w) ∧ StepKept i s w := by
  by_cases feed : (s.slot i).lines.feed = true
  · by_cases powered : (s.slot i).record.observed = .feedOff
    · refine ⟨s.modSlot i (feedDown s.now), ?_, stepKept_modSlot ⟨rfl, rfl, rfl, rfl⟩⟩
      unfold enterStep
      dsimp only
      rw [dropFeed_cold (by rw [setSeq_lines]; exact feed) (by rw [setSeq_record]; exact powered), setSeq_apart fun _ => rfl]
      rfl
    · exact ⟨_, enter_feedDrop feed powered,
        (stepKept_modSlot (by exact ⟨rfl, rfl, rfl, rfl⟩)).trans stepKept_notify⟩
  · exact ⟨s, enter_feedDrop_down (by simpa using feed), stepKept_refl⟩

/-- The steps of a recovery's action, entered at its acceptance, leave what the acceptance made. -/
theorem run_recovery {act : RecoveryAction} {obs : Power} {p : Profile} (observed : (s.slot i).record.observed = obs) :
    let t := runSteps i (stepsFor (recoveryStep act) obs p) (setSeq i (stepping r) s)
    StepKept i s t ∧ StillRuns i r t := by
  subst observed
  intro t
  cases act with
  | reset =>
    obtain ⟨w, ends, kept⟩ := enter_assertRst_kept (i := i) (s := s)
      (q := stepping (entered r .assertRst [.dwell .reset, .gate, .releaseRst]))
    have eq : t = setSeq i _ w := (run_ends (by decide) ends).trans (run_stops (by decide) enter_dwell)
    rw [eq]
    exact ⟨kept.trans stepKept_setSeq, stillRuns_setSeq ⟨rfl, rfl, rfl, rfl⟩⟩
  | cycleSoft =>
    by_cases on : (s.slot i).record.observed = .on
    · have eq : t = setSeq i _ (pwrSet true i s) := run_stops (by decide) (enter_press_stop on)
      rw [eq]
      exact ⟨stepKept_pwrSet.trans stepKept_setSeq, stillRuns_setSeq ⟨rfl, rfl, rfl, rfl⟩⟩
    · have eq : t = setSeq i _ (pressSkipped i s) :=
        (run_skips (step := .press .stop) (by decide) (enter_press_met (decide_eq_true on))).trans
          (run_stops (by decide) enter_dwell)
      rw [eq]
      exact ⟨stepKept_pressSkipped.trans stepKept_setSeq, stillRuns_setSeq ⟨rfl, rfl, rfl, rfl⟩⟩
  | powerOffHard =>
    by_cases on : (s.slot i).record.observed = .on
    · have eq : t = setSeq i _ (pwrSet true i s) := run_stops (by decide) (enter_hold on)
      rw [eq]
      exact ⟨stepKept_pwrSet.trans stepKept_setSeq, stillRuns_setSeq ⟨rfl, rfl, rfl, rfl⟩⟩
    · have eq : t = finished i (entered r .hold [.expectLow false]) (pressSkipped i s) :=
        (run_skips (step := .hold) (by decide) (enter_hold_met on)).trans run_nil
      rw [eq]
      exact ⟨stepKept_pressSkipped.trans stepKept_finished, stillRuns_finished⟩
  | cycleFeed =>
    obtain ⟨w, ends, kept⟩ := enter_feedDrop_kept (i := i) (s := s)
      (q := stepping (entered r .feedDrop (.dwell .off :: .feedRestore ::
        if p.autoPress then [.dwell .one, .powerOnTail] else [])))
    have eq : t = setSeq i _ w := (run_ends (by decide) ends).trans (run_stops (by decide) enter_dwell)
    rw [eq]
    exact ⟨kept.trans stepKept_setSeq, stillRuns_setSeq ⟨rfl, rfl, rfl, rfl⟩⟩

/-! ## The start -/

/-- The record that an acceptance makes. -/
def acceptedRecord (a : Action) (o : Origin) (n : Nat) (i : SlotId) (s : State) : SeqRecord :=
  let steps := stepsFor a (s.slot i).record.observed (s.profile n)
  { action := a, origin := o, profile := n, steps, current := steps.headD .gate, accepted := s.now }

/-- A slot on which a sequence has been accepted. -/
def acceptedSlot (a : Action) (now : Time) (x : Slot) : Slot :=
  { x with
    hist := postTo x.hist now (.sequence a .started)
    counters := { x.counters with accepted := bump x.counters.accepted } }

theorem accept_runs {o : Origin} {n : Nat} : accept i a o n s =
    runSteps i (stepsFor a (s.slot i).record.observed (s.profile n))
      (setSeq i (stepping (acceptedRecord a o n i s)) (s.modSlot i (acceptedSlot a s.now))) := by
  unfold accept modSeq setSeq State.post State.count
  simp only [modSlot_modSlot]
  rfl

/-- The window of a recovery that is started (R73). -/
def windowAfter (left : Option Window) (i : SlotId) (s : State) : Window :=
  match left with
  | some w => { w with count := w.count + 1 }
  | none => { start := s.now, count := 1, closes := s.after ((s.setup i).windowHours * 3600000) }

/-- A slot whose waiting recovery is about to be accepted. -/
def recoveryTaken (req : RecoveryRequest) (rest : List RecoveryRequest) (w : Window) (x : Slot) : Slot :=
  { x with
    recovery := { waiting := rest, window := some w }
    record := { x.record with pendingCause := some (recoveryCause req.source) } }

theorem startRecovery_eq {rest : List RecoveryRequest} :
    startRecovery i req (modRecovery i (fun x => { x with waiting := rest }) s) =
      let w := windowAfter (s.slot i).recovery.window i s
      ((accept i (recoveryStep req.action) (.recovery req.source) (s.setup i).profile
        (s.modSlot i (recoveryTaken req rest w))).notify (some i)
          (.recoveryStarted req.action req.source req.watch w.count w.closes)).modSlot i fun x =>
        { x with counters := { x.counters with recoveriesStarted := bump x.counters.recoveriesStarted } } := by
  have counted : countRecovery i (modRecovery i (fun x => { x with waiting := rest }) s) =
      windowAfter (s.slot i).recovery.window i s := by
    unfold countRecovery windowAfter modRecovery
    rw [modSlot_slot_same]
    rfl
  have taken : setPending i (recoveryCause req.source) (modRecovery i
      (fun x => { x with window := some (windowAfter (s.slot i).recovery.window i s) })
        (modRecovery i (fun x => { x with waiting := rest }) s)) =
      s.modSlot i (recoveryTaken req rest (windowAfter (s.slot i).recovery.window i s)) := by
    unfold setPending modRecovery
    rw [modSlot_modSlot, modSlot_modSlot]
    rfl
  unfold startRecovery
  dsimp only
  rw [counted, taken]
  rfl

/-! ## The tests (R71) -/

/-- The tests of R71 with the reasons of their failure. -/
def recoveryTests (i : SlotId) (req : RecoveryRequest) (s : State) : List (Prop × DeclineReason) :=
  let x := s.slot i
  let c := s.setup i
  let left := x.recovery.window
  [(c.armed = false ∨ c.powerControl = false, .disarmed),
    (seqBusy x.seq.state = true, .busySequencer x.seq.state),
    (s.localPassing i = true, .busyLocal),
    (c.recoveryLimit ≤ windowCount left,
      .exhausted (windowCount left) c.recoveryLimit (left.map (·.closes))),
    (req.quote ≠ x.record.bootCount, .stale req.quote x.record.bootCount),
    (linesEnabled (recoveryStep req.action) c (s.profile c.profile) = false ∨
      (req.action = .reset ∧ x.record.observed ≠ .on), .state)]

theorem recoveryStep_reset {act : RecoveryAction} : recoveryStep act = .reset ↔ act = .reset := by
  cases act <;> simp [recoveryStep]

theorem declineReason_first {why : DeclineReason} (first : FirstOf (recoveryTests i req s) why) :
    declineReason i req s = some why := by
  unfold recoveryTests at first
  simp only [FirstOf] at first
  unfold declineReason
  simp only [recoveryStep_reset]
  rcases first with ⟨test, rfl⟩ | ⟨armed, ⟨test, rfl⟩ | ⟨idle, ⟨test, rfl⟩ | ⟨remote, ⟨test, rfl⟩ | ⟨budget,
    ⟨test, rfl⟩ | ⟨fresh, ⟨test, rfl⟩ | ⟨-, never⟩⟩⟩⟩⟩⟩
  · rcases test with off | off <;> simp [off]
  · simp_all
  · simp_all
  · simp_all
  · simp_all
  · rw [if_neg budget]
    rcases test with off | off
    · simp_all
    · simp_all
  · exact never.elim

theorem declineReason_passes (armed : (s.setup i).armed = true) (control : (s.setup i).powerControl = true)
    (idle : seqBusy (s.slot i).seq.state = false) (remote : s.localPassing i = false)
    (budget : windowCount (s.slot i).recovery.window < (s.setup i).recoveryLimit)
    (fresh : req.quote = (s.slot i).record.bootCount)
    (lines : linesEnabled (recoveryStep req.action) (s.setup i) (s.profile (s.setup i).profile) = true)
    (on : req.action = .reset → (s.slot i).record.observed = .on) : declineReason i req s = none := by
  unfold declineReason
  simp only [recoveryStep_reset, armed, control, idle, remote, fresh, lines, Bool.not_true, Bool.false_eq_true, if_false,
    ne_eq, not_true]
  have started : ¬ (req.action = .reset ∧ ¬ (s.slot i).record.observed = .on) := fun h => h.2 (on h.1)
  rw [if_neg (not_le.mpr budget), if_neg started]

theorem declineReason_waiting {rest : List RecoveryRequest} :
    declineReason i req (modRecovery i (fun x => { x with waiting := rest }) s) = declineReason i req s := by
  unfold declineReason State.localPassing modRecovery
  rw [modSlot_slot_same]
  rfl

theorem declineRecovery_eq {rest : List RecoveryRequest} {why : DeclineReason} :
    declineRecovery i req why (modRecovery i (fun x => { x with waiting := rest }) s) =
      (s.notify (some i) (.recoveryDeclined req.action req.source req.watch why)).modSlot i fun x => { x with
        recovery := { x.recovery with waiting := rest }
        counters := { x.counters with recoveriesDeclined := bump x.counters.recoveriesDeclined } } := by
  unfold declineRecovery modRecovery State.count
  rw [← modSlot_notify, modSlot_modSlot]

theorem exec_recovery_declined {rest : List RecoveryRequest} {why : DeclineReason}
    (waiting : (s.slot i).recovery.waiting = req :: rest) (declined : declineReason i req s = some why) :
    exec (.recoveryRequestTaken i) s =
      .next (declineRecovery i req why (modRecovery i (fun x => { x with waiting := rest }) s)) := by
  refine congrArg Host.Outcome.next ?_
  rw [waiting]
  dsimp only
  rw [declineReason_waiting, declined]

theorem exec_recovery_started {rest : List RecoveryRequest} (waiting : (s.slot i).recovery.waiting = req :: rest)
    (passes : declineReason i req s = none) : exec (.recoveryRequestTaken i) s =
      .next (startRecovery i req (modRecovery i (fun x => { x with waiting := rest }) s)) := by
  refine congrArg Host.Outcome.next ?_
  rw [waiting]
  dsimp only
  rw [declineReason_waiting, passes]

/-- Settles O20. -/
theorem recoveryDecided : Obligations.RecoveryDecided := by
  unfold Obligations.RecoveryDecided
  intro i req rest s x c left w waiting
  refine ⟨fun armed control idle remote budget fresh lines on => ?_, ?_⟩
  · refine ⟨accept i (recoveryStep req.action) (.recovery req.source) c.profile
      (s.modSlot i (recoveryTaken req rest w)), ?_⟩
    have runs := exec_recovery_started waiting (declineReason_passes armed control idle remote budget fresh lines on)
    rw [startRecovery_eq] at runs
    set t := s.modSlot i (recoveryTaken req rest w) with taken
    have slot : t.slot i = recoveryTaken req rest w x := modSlot_slot_same
    obtain ⟨⟨only, recovery, pending, started, counted⟩, still⟩ := run_recovery (i := i)
      (s := t.modSlot i (acceptedSlot (recoveryStep req.action) t.now)) (act := req.action)
      (r := acceptedRecord (recoveryStep req.action) (.recovery req.source) c.profile i t)
      (p := t.profile c.profile) (obs := (t.slot i).record.observed) (by rw [modSlot_slot_same]; rfl)
    obtain ⟨recovery', pending', started', counted'⟩ : StartKept (acceptedSlot (recoveryStep req.action) t.now (t.slot i))
        ((accept i (recoveryStep req.action) (.recovery req.source) c.profile t).slot i) := by
      rw [accept_runs, ← modSlot_slot_same (s := t) (f := acceptedSlot (recoveryStep req.action) t.now)]
      exact ⟨recovery, pending, started, counted⟩
    rw [slot] at recovery' pending' started' counted'
    refine ⟨?_, runs, recovery', pending', started', counted', fun q record => ?_⟩
    · rw [accept_runs]
      exact onlySlot_trans (onlySlot_trans onlySlot_modSlot onlySlot_modSlot) only
    · rw [accept_runs] at record
      exact still q record
  · intro tests before after test split passed failed
    rw [exec_recovery_declined (why := test.2) waiting (declineReason_first (by
      have eq : recoveryTests i req s = before ++ test :: after := split
      rw [eq]
      exact firstOf_append failed before passed))]
    exact congrArg Host.Outcome.next declineRecovery_eq

end Sys2Proof.Machine
end

section
/-! PROOFS. What the fetch path leaves of the units, the detach, and the eject with what the slot's sequencer
hears of it (R113, R141, R142, R158). -/

namespace Sys2Proof.Machine

open Sys2Proof

variable {A : UnitId → Prop} {s t z : State} {u v : UnitId} {i : SlotId}

/-! ## Fetches count at their units alone (R165) -/

/-- Each unit keeps all but its count of fetches, and one outside `A` that too. -/
structure FetchCounts (A : UnitId → Prop) (s t : State) : Prop where
  unit : ∀ v, t.unit v = { s.unit v with
    counters := { (s.unit v).counters with fetches := (t.unit v).counters.fetches } }
  other : ∀ v, ¬ A v → t.unit v = s.unit v

theorem fetchCounts_units (same : t.units = s.units) : FetchCounts A s t := by
  have unit (v : UnitId) : t.unit v = s.unit v := congrArg (·[v]) same
  exact ⟨fun v => by rw [unit], fun v _ => unit v⟩

theorem FetchCounts.trans (h : FetchCounts A s t) (k : FetchCounts A t z) : FetchCounts A s z where
  unit v := by rw [k.unit, h.unit]
  other v out := (k.other v out).trans (h.other v out)

theorem FetchCounts.foldl {α : Type} {f : State → α → State} (h : ∀ s a, FetchCounts A s (f s a)) :
    ∀ (l : List α) (s : State), FetchCounts A s (l.foldl f s)
  | [], _ => fetchCounts_units rfl
  | a :: l, s => (h s a).trans (foldl h l (f s a))

theorem FetchCounts.after (k : FetchCounts A t z) (same : t.units = s.units) : FetchCounts A s z :=
  (fetchCounts_units same).trans k

theorem countFetches_counts (asks : A u) :
    FetchCounts A s (s.countUnit u fun c => { c with fetches := bump c.fetches }) where
  unit v := by
    rw [State.countUnit, modUnit_unit]
    split_ifs <;> rfl
  other v out := by rw [State.countUnit, modUnit_unit, if_neg fun eq => out (by rw [eq]; exact asks)]

theorem offerFetch_counts {r : FetchRecord} (asks : A r.unit) : FetchCounts A s (offerFetch s r) := by
  unfold offerFetch
  split
  · exact fetchCounts_units rfl
  · dsimp only
    split_ifs
    · exact (countFetches_counts asks).after (by simp [State.modRecord])
    · exact fetchCounts_units rfl

theorem offerHeld_counts {which : State → FetchRecord → Bool} : FetchCounts (fun _ => True) s (offerHeld which s) :=
  FetchCounts.foldl (fun s r => by
    split_ifs
    · exact offerFetch_counts trivial
    · exact fetchCounts_units rfl) _ s

theorem hear_counts {e : StationId} {p : Port} : FetchCounts (fun _ => True) s (hear e p s) := by
  unfold hear
  dsimp only
  split_ifs
  · exact fetchCounts_units rfl
  · exact (offerHeld_counts).after rfl

theorem setBlocks_units {b : CacheBlock} (l : List Nat) : (l.foldl (setBlock u b) s).units = s.units :=
  foldl_keeps State.units (setBlock u b) (fun _ _ => rfl) l s

theorem createRecord_counts {first count reAsk : Nat} {waiting : List Nat} (asks : A u) :
    FetchCounts A s (createRecord u first count reAsk waiting s) :=
  (offerFetch_counts asks).after rfl

theorem issueFetch_counts {need : List Nat} (asks : A u) : FetchCounts A s (issueFetch u need s) := by
  unfold issueFetch
  cases need with
  | nil => exact fetchCounts_units rfl
  | cons b bs => exact (createRecord_counts asks).after (setBlocks_units _)

theorem serveEntry_counts {e : IssueEntry} (asks : A e.unit) : FetchCounts A s (serveEntry s e) := by
  unfold serveEntry
  dsimp only
  split_ifs
  · exact fetchCounts_units rfl
  · exact (issueFetch_counts asks).after rfl
  · exact fetchCounts_units rfl

theorem serveIssue_counts (asks : ∀ e ∈ s.fetch.issue, A e.unit) : FetchCounts A s (serveIssue s) := by
  have each : ∀ (l : List IssueEntry) (t : State), (∀ e ∈ l, A e.unit) → FetchCounts A t (l.foldl serveEntry t) := by
    intro l
    induction l with
    | nil => exact fun _ _ => fetchCounts_units rfl
    | cons e l ih => exact fun t h => (serveEntry_counts (h e (by simp))).trans (ih _ fun x hx => h x (by simp [hx]))
  exact each _ s asks

theorem invalidate_counts : FetchCounts (· ≠ u) s (invalidate u s) := by
  rcases invalidate_eq (u := u) (s := s) with e | e <;> rw [e]
  · exact fetchCounts_units rfl
  · exact (serveIssue_counts unasked_forget.issue).after rfl

theorem serveIssue_empty (none_ : s.fetch.issue = []) : serveIssue s = s := by
  unfold serveIssue
  rw [none_]
  rfl

theorem invalidate_empty (none_ : s.fetch.issue = []) : invalidate u s = forget u s := by
  rcases invalidate_eq (u := u) (s := s) with e | e <;> rw [e]
  exact serveIssue_empty (by simp [forget, none_])

/-! ## Changes of units, lines and fetches alone -/

/-- Units, pool, lines and fetches are replaced by those of `t`. -/
def mediaOf (t s : State) : State :=
  { s with units := t.units, poolFree := t.poolFree, cache := t.cache, fetch := t.fetch }

theorem beside_mediaOf : Beside (mediaOf t) :=
  ⟨fun _ p _ => by cases p <;> rfl, fun _ _ => rfl, fun _ p => by cases p <;> rfl, fun _ => rfl, fun _ => rfl,
    fun _ => rfl, fun _ => rfl⟩

/-! ## The detach (R142, R158) -/

/-- A unit once it is detached. -/
def detachedUnit (m : MediaUnit) : MediaUnit := { counters := m.counters, bootsLeft := m.bootsLeft }

theorem detach_eq : detach u s =
    let z := invalidate u s
    (({ z with poolFree := z.poolFree + heldCount (z.unit u) } : State).modUnit u detachedUnit).notify (z.unit u).slot
      (.mediaState u .detached .detached (z.unit u).ejectReason 0) := by
  unfold detach mediaNotice
  dsimp only
  rw [modUnit_notify, modUnit_modUnit, modUnit_unit, if_pos rfl]
  rfl

theorem detach_unit_ne (ne : v ≠ u) : (detach u s).unit v = (invalidate u s).unit v := by
  rw [detach_eq, notify_unit, modUnit_unit, if_neg ne]
  rfl

theorem detach_unit : (detach u s).unit u = detachedUnit (s.unit u) := by
  rw [detach_eq, notify_unit, modUnit_unit, if_pos rfl]
  exact congrArg detachedUnit (invalidate_counts.other u (fun ne => ne rfl))

theorem invalidate_unit : (invalidate u s).unit u = s.unit u := invalidate_counts.other u fun ne => ne rfl

/-- What a detach leaves of a unit bound to a slot. -/
theorem detach_detached (bound : (s.unit u).slot = some i) :
    Detached u i (s.unit u).ejectReason (heldCount (s.unit u)) s (detach u s) := by
  have kept := unasked_invalidate (u := u) (s := s)
  have frame := (invalidate_frame (u := u) (s := s)).frame
  have number : (invalidate u s).noticeNumber = s.noticeNumber := by rw [frame]
  have pool : (invalidate u s).poolFree = s.poolFree := by rw [frame]
  refine ⟨by rw [detach_unit]; rfl, ?_, ?_, ?_, ?_, fun none_ => ⟨?_, fun v ne => ?_⟩⟩
  · rw [detach_eq, notify_poolFree, invalidate_unit]
    exact congrArg (· + heldCount (s.unit u)) pool
  · rw [detach_eq, notify_cache]
    exact kept.cache
  · rw [detach_eq, notify_fetch]
    exact kept.records
  · rw [detach_eq, notify_noticeNumber]
    exact congrArg (· + 1) number
  · have eq : detach u s = mediaOf (({ forget u s with poolFree := s.poolFree + heldCount (s.unit u) } : State).modUnit u
        detachedUnit) (s.notify (some i) (.mediaState u .detached .detached (s.unit u).ejectReason 0)) := by
      rw [← notify_beside beside_mediaOf, ← bound, detach_eq, invalidate_empty none_]
      rfl
    rw [eq]
    rfl
  · rw [detach_unit_ne ne, invalidate_empty none_]
    rfl

/-! ## What a waiting GATE makes of the news (R113) -/

section

variable {r : SeqRecord} {g : GateOutcome}

/-- The steps behind a GATE that has ended. -/
theorem run_gated (waits : WaitsAtGate i r s) (free : BootsFree i s) :
    runSteps i r.steps (setSeq i (stepping (gated g r)) s) = gatePassed i g r s := by
  obtain ⟨-, -, -, ⟨steps, claim, loc⟩ | ⟨steps, uncharged, standby, -⟩⟩ := waits
  · rw [gatePassed, if_pos steps, steps, runSteps, run_release claim loc free]
    rfl
  · rw [gatePassed, if_neg (by rw [steps]; decide), steps]
    exact run_gated_press (by rw [standby]; decide) uncharged

theorem gateReport_passed (waits : WaitsAtGate i r s) (free : BootsFree i s) :
    gateReport i true s = gatePassed i .primed r s := by
  rw [gateReport_primed waits.1, run_gated waits free]

theorem gateReport_gateFailed (waits : WaitsAtGate i r s) (free : BootsFree i s) :
    gateReport i false s = gateFailed i r s := by
  by_cases require : (s.profile r.profile).gate = .require
  · obtain ⟨seq, -, absent, ⟨steps, claim, loc⟩ | ⟨steps, -, -, unclaimed⟩⟩ := waits
    · rw [gateReport_halts seq require, gateFailed, if_pos require, if_pos steps,
        halt_released (by rw [setSeq_seq]; rfl) (by rw [setSeq_lines]; exact claim) (by rw [setSeq_lines]; exact loc)
          (bootsFree_setSeq free) (by exact absent), rstReleased_setSeq, haltedNow_setSeq]
      rfl
    · rw [gateReport_halts seq require, gateFailed, if_pos require, if_neg (by rw [steps]; decide),
        halt_eq (by rw [setSeq_seq]; rfl) (by rw [setSeq_lines]; exact unclaimed) (by exact absent), haltedNow_setSeq]
      rfl
  · rw [gateReport_waives waits.1 require, run_gated waits free, gateFailed, if_neg require]

theorem gateTold_waits (waits : WaitsAtGate i r s) : gateTold i s = gateFailed i r s := by
  unfold gateTold
  rw [waits.1]

theorem gateTold_idle (idle : (s.slot i).seq.state ≠ .waitGate) : gateTold i s = s := by
  unfold gateTold
  split
  · next seq => rw [seq] at idle; exact absurd rfl idle
  · rfl

/-- The sequencer of a slot whose GATE, should it wait, is known, hears that its unit will not be primed. -/
theorem gateReport_told (known : (s.slot i).seq.state = .waitGate → ∃ r, WaitsAtGate i r s)
    (free : (s.slot i).seq.state = .waitGate → BootsFree i s) : gateReport i false s = gateTold i s := by
  by_cases waiting : (s.slot i).seq.state = .waitGate
  · obtain ⟨r, waits⟩ := known waiting
    rw [gateReport_gateFailed waits (free waiting), gateTold_waits waits]
  · rw [gateTold_idle waiting, gateReport, if_neg waiting]

/-! ## The sequencer beside the units -/

theorem slot_mediaOf {j : SlotId} : (mediaOf t s).slot j = s.slot j := rfl

theorem modSlot_mediaOf {f : Slot → Slot} : (mediaOf t s).modSlot i f = mediaOf t (s.modSlot i f) := rfl

theorem notify_mediaOf {o : Option SlotId} {b : NoticeBody} : (mediaOf t s).notify o b = mediaOf t (s.notify o b) :=
  notify_beside beside_mediaOf

theorem finished_mediaOf : finished i r (mediaOf t s) = mediaOf t (finished i r s) := by
  unfold finished
  rw [slot_mediaOf, modSlot_mediaOf, notify_mediaOf]
  rfl

theorem haltEnded_mediaOf {why : HaltReason} : haltEnded i why r (mediaOf t s) = mediaOf t (haltEnded i why r s) := by
  unfold haltEnded
  rw [slot_mediaOf, modSlot_mediaOf, notify_mediaOf]
  rfl

theorem haltedNow_mediaOf {why : HaltReason} : haltedNow i why r (mediaOf t s) = mediaOf t (haltedNow i why r s) := by
  rw [haltedNow_eq, haltedNow_eq, modSlot_mediaOf, haltEnded_mediaOf]

theorem rstReleased_mediaOf : rstReleased i (mediaOf t s) = mediaOf t (rstReleased i s) := by
  unfold rstReleased bootNotice
  dsimp only
  rw [slot_mediaOf, modSlot_mediaOf, modSlot_mediaOf, notify_mediaOf]
  split_ifs <;> rfl

theorem gatePassed_mediaOf : gatePassed i g r (mediaOf t s) = mediaOf t (gatePassed i g r s) := by
  unfold gatePassed
  split_ifs
  · rw [rstReleased_mediaOf, finished_mediaOf]
  · rfl

theorem gateFailed_mediaOf : gateFailed i r (mediaOf t s) = mediaOf t (gateFailed i r s) := by
  unfold gateFailed
  rw [show (mediaOf t s).profile r.profile = s.profile r.profile from rfl]
  by_cases require : (s.profile r.profile).gate = .require
  · rw [if_pos require, if_pos require]
    by_cases steps : r.steps = [.releaseRst]
    · rw [if_pos steps, if_pos steps, rstReleased_mediaOf, haltedNow_mediaOf]
    · rw [if_neg steps, if_neg steps, haltedNow_mediaOf]
  · rw [if_neg require, if_neg require, gatePassed_mediaOf]

theorem gateTold_mediaOf : gateTold i (mediaOf t s) = mediaOf t (gateTold i s) := by
  by_cases waits : ∃ r, (s.slot i).seq = { state := .waitGate, record := some r }
  · obtain ⟨r, seq⟩ := waits
    unfold gateTold
    rw [seq, show ((mediaOf t s).slot i).seq = _ from seq]
    exact gateFailed_mediaOf
  · have deaf (z : State) (same : (z.slot i).seq = (s.slot i).seq) : gateTold i z = z := by
      unfold gateTold
      split
      · next r seq => exact absurd ⟨r, same.symm.trans seq⟩ waits
      · rfl
    exact (deaf (mediaOf t s) rfl).trans (congrArg (mediaOf t) (deaf s rfl).symm)

end

/-! ## What the sequencer's reaction leaves alone -/

/-- A change of slot `i` that leaves its storage port, and of the rest no more than notices. -/
structure GateMove (i : SlotId) (s t : State) : Prop where
  media : t.units = s.units ∧ t.poolFree = s.poolFree ∧ t.cache = s.cache ∧ t.fetch = s.fetch
  tables : t.tables = s.tables
  slot : ∀ j, j ≠ i → t.slot j = s.slot j
  port : (t.slot i).port = (s.slot i).port

theorem gateMove_refl : GateMove i s s := ⟨⟨rfl, rfl, rfl, rfl⟩, rfl, fun _ _ => rfl, rfl⟩

theorem GateMove.trans (h : GateMove i s t) (k : GateMove i t z) : GateMove i s z where
  media := ⟨k.media.1.trans h.media.1, k.media.2.1.trans h.media.2.1, k.media.2.2.1.trans h.media.2.2.1,
    k.media.2.2.2.trans h.media.2.2.2⟩
  tables := k.tables.trans h.tables
  slot j ne := (k.slot j ne).trans (h.slot j ne)
  port := k.port.trans h.port

theorem gateMove_modSlot {f : Slot → Slot} (kept : (f (s.slot i)).port = (s.slot i).port) :
    GateMove i s (s.modSlot i f) :=
  ⟨⟨rfl, rfl, rfl, rfl⟩, rfl, fun _ ne => modSlot_slot_ne ne, by rw [modSlot_slot_same]; exact kept⟩

theorem gateMove_notify {o : Option SlotId} {b : NoticeBody} : GateMove i s (s.notify o b) :=
  ⟨⟨notify_units, notify_poolFree, notify_cache, notify_fetch⟩, notify_tables, fun _ _ => notify_slot,
    by rw [notify_slot]⟩

theorem gateMove_noticed {f : Slot → Slot} {o : Option SlotId} {b : NoticeBody}
    (kept : (f (s.slot i)).port = (s.slot i).port) : GateMove i s ((s.modSlot i f).notify o b) :=
  (gateMove_modSlot kept).trans gateMove_notify

theorem gateMove_rstReleased : GateMove i s (rstReleased i s) := by
  unfold rstReleased
  dsimp only
  split_ifs
  · exact gateMove_noticed rfl
  · exact gateMove_modSlot rfl

theorem gateMove_gatePassed {r : SeqRecord} {g : GateOutcome} : GateMove i s (gatePassed i g r s) := by
  unfold gatePassed
  split_ifs
  · exact gateMove_rstReleased.trans (gateMove_noticed rfl)
  · exact gateMove_modSlot rfl

theorem gateMove_gateFailed {r : SeqRecord} : GateMove i s (gateFailed i r s) := by
  unfold gateFailed
  split_ifs
  · exact gateMove_rstReleased.trans (gateMove_noticed rfl)
  · exact gateMove_noticed rfl
  · exact gateMove_gatePassed

theorem gateMove_gateTold : GateMove i s (gateTold i s) := by
  unfold gateTold
  split
  · exact gateMove_gateFailed
  · exact gateMove_refl

/-! ## The eject (R141, R142) -/

/-- A unit as its eject begins: EJECTING, a running prime abandoned. -/
def ejectingUnit (why : EjectReason) (m : MediaUnit) : MediaUnit :=
  { m with
    state := .ejecting
    ejectReason := some why
    prime := if m.prime = .running then .none else m.prime
    primeImages := if m.prime = .running then [] else m.primeImages }

/-- The units and fetches once an eject has begun. -/
def ejectBegun (u : UnitId) (why : EjectReason) (s : State) : State :=
  let s := s.modUnit u fun m => { m with state := .ejecting, ejectReason := some why }
  if (s.unit u).prime = .running then
    (endRequester u true (s.unit u).primeImages s).modUnit u fun m => { m with prime := .none, primeImages := [] }
  else s

theorem ejectBegun_frame {why : EjectReason} : ejectBegun u why s = mediaOf (ejectBegun u why s) s := by
  unfold ejectBegun
  dsimp only
  split_ifs
  · rw [endRequester_eq]
    rfl
  · rfl

theorem ejectBegun_unit {why : EjectReason} : (ejectBegun u why s).unit u = ejectingUnit why (s.unit u) := by
  unfold ejectBegun ejectingUnit
  dsimp only
  rw [modUnit_unit_same]
  by_cases running : (s.unit u).prime = .running
  · rw [if_pos running, modUnit_unit_same, endRequester_unit, modUnit_unit_same, if_pos running, if_pos running]
  · rw [if_neg running, modUnit_unit_same, if_neg running, if_neg running]

theorem ejectBegun_unit_ne {why : EjectReason} (ne : v ≠ u) : (ejectBegun u why s).unit v = s.unit v := by
  unfold ejectBegun
  dsimp only
  split_ifs
  · rw [modUnit_unit_ne ne, endRequester_unit, modUnit_unit_ne ne]
  · rw [modUnit_unit_ne ne]

theorem ejectBegun_records {why : EjectReason} : (ejectBegun u why s).fetch.records = s.fetch.records := by
  unfold ejectBegun
  dsimp only
  split_ifs
  · exact endRequester_records
  · rfl

theorem ejectBegun_issue {why : EjectReason} (none_ : s.fetch.issue = []) : (ejectBegun u why s).fetch.issue = [] := by
  unfold ejectBegun
  dsimp only
  split_ifs
  · rw [endRequester_eq]
    simp [State.modUnit, none_]
  · exact none_

theorem ejectBegun_poolFree {why : EjectReason} : (ejectBegun u why s).poolFree = s.poolFree := by
  unfold ejectBegun
  dsimp only
  split_ifs
  · rw [endRequester_eq]
    rfl
  · rfl

/-- The start of an eject is its notice, and the unit's part beside it. -/
theorem ejectStart_eq {why : EjectReason} : ejectStart u why s = mediaOf (ejectBegun u why s)
    (s.notify (s.unit u).slot (.mediaState u .ejecting .ejecting (some why) (heldCount (s.unit u)))) := by
  have unit := ejectBegun_unit (u := u) (why := why) (s := s)
  have start : ejectStart u why s = mediaNotice u ((ejectBegun u why s).unit u).slot .ejecting (some why)
      (ejectBegun u why s) := rfl
  rw [start, mediaNotice, unit, ← notify_mediaOf]
  exact congrArg (State.notify · _ _) ejectBegun_frame

/-- The sequencer of the slot has heard the start of an eject. -/
def ejectTold (u : UnitId) (i : SlotId) (why : EjectReason) (s : State) : State :=
  gateTold i (s.notify (some i) (.mediaState u .ejecting .ejecting (some why) (heldCount (s.unit u))))

theorem gateMove_ejectTold {why : EjectReason} : GateMove i s (ejectTold u i why s) :=
  gateMove_notify.trans gateMove_gateTold

theorem waitsAtGate_notify {r : SeqRecord} {o : Option SlotId} {b : NoticeBody} (waits : WaitsAtGate i r s) :
    WaitsAtGate i r (s.notify o b) := by
  unfold WaitsAtGate at waits ⊢
  rw [notify_slot, waitingSlots, notify_inrush, State.profile, notify_tables]
  exact waits

/-- An eject whose slot's GATE, should it wait, is known, up to the detach. -/
theorem eject_told {why : EjectReason} (bound : (s.unit u).slot = some i) (known : GateKnown u i s) :
    eject u why s = ejectEnd u (mediaOf (ejectBegun u why s) (ejectTold u i why s)) := by
  have unit : ((mediaOf (ejectBegun u why s) (s.notify (some i) (.mediaState u .ejecting .ejecting (some why)
      (heldCount (s.unit u))))).unit u) = ejectingUnit why (s.unit u) := ejectBegun_unit
  have same (v : UnitId) : ((ejectBegun u why s).unit v).slot = (s.unit v).slot := by
    by_cases eq : v = u
    · rw [eq, ejectBegun_unit]
      rfl
    · rw [ejectBegun_unit_ne eq]
  have told : gateReport i false (mediaOf (ejectBegun u why s) (s.notify (some i) (.mediaState u .ejecting .ejecting
      (some why) (heldCount (s.unit u))))) = mediaOf (ejectBegun u why s) (ejectTold u i why s) := by
    rw [ejectTold, ← gateTold_mediaOf]
    refine gateReport_told (fun waiting => ?_) fun waiting v atSlot presents => ?_
    all_goals rw [slot_mediaOf, notify_slot] at waiting
    · obtain ⟨-, r, waits⟩ := known waiting
      exact ⟨r, waitsAtGate_notify waits⟩
    · obtain ⟨here, -⟩ := known waiting
      have same_ : (mediaOf (ejectBegun u why s) (s.notify (some i) (.mediaState u .ejecting .ejecting (some why)
          (heldCount (s.unit u))))).unitOf i = s.unitOf i := by
        unfold State.unitOf
        exact congrArg (fun p => (List.finRange 4).find? p) (funext fun v => congrArg (fun x => decide (x = some i)) (same v))
      rw [same_, here] at atSlot
      cases atSlot
      rw [unit] at presents
      cases presents
  unfold eject
  dsimp only
  rw [ejectStart_eq, bound, unit]
  dsimp only [ejectingUnit]
  rw [bound]
  dsimp only
  rw [told]

/-- A detach from a state whose units and fetches only differ is one from the state itself. -/
theorem detached_mediaOf {why : Option EjectReason} {held : Nat} (d : Detached u i why held (mediaOf z s) t)
    (boots : (z.unit u).bootsLeft = (s.unit u).bootsLeft) (pool : z.poolFree = s.poolFree)
    (issue : s.fetch.issue = [] → z.fetch.issue = []) (others : ∀ v, v ≠ u → z.unit v = s.unit v) :
    Detached u i why held s t := by
  obtain ⟨unit, free, cache, records, number, alone⟩ := d
  refine ⟨?_, ?_, cache, records, number, fun none_ => ?_⟩
  · rw [← boots]
    exact unit
  · rw [← pool]
    exact free
  · obtain ⟨frame, same⟩ := alone (issue none_)
    refine ⟨?_, fun v ne => (same v ne).trans (others v ne)⟩
    rw [notify_mediaOf] at frame
    exact frame

/-- The eject of a unit that presents to a slot (R141, R142, R158). -/
theorem eject_ejected {why : EjectReason} (bound : (s.unit u).slot = some i) (known : GateKnown u i s) :
    Ejected u i why s (eject u why s) := by
  obtain ⟨media, tables, slot, port⟩ := gateMove_ejectTold (i := i) (s := s) (u := u) (why := why)
  set z := mediaOf (ejectBegun u why s) (ejectTold u i why s) with begun
  have unit : z.unit u = ejectingUnit why (s.unit u) := ejectBegun_unit
  have busy : z.portBusy u = (s.slot i).port.inFlight.isSome := by
    unfold State.portBusy
    rw [unit]
    dsimp only [ejectingUnit]
    rw [bound]
    dsimp only
    rw [show z.slot i = (ejectTold u i why s).slot i from rfl, port]
  rw [eject_told bound known, ← begun]
  refine ⟨ejectEnd_slots, ?_, fun flight => ?_, fun free => ?_⟩
  · unfold ejectEnd
    split_ifs
    · exact tables
    · rw [detach_eq, notify_tables]
      exact (invalidate_frame.tables).trans tables
  · have eq : ejectEnd u z = z := if_pos (by rw [busy]; exact Option.isSome_iff_ne_none.mpr flight)
    rw [eq]
    refine ⟨?_, unit, ejectBegun_records, fun v ne => ejectBegun_unit_ne ne⟩
    rw [begun]
    unfold mediaOf
    rw [ejectBegun_poolFree, ← media.2.1]
    rfl
  · have eq : ejectEnd u z = detach u z := if_neg (by rw [busy, free]; decide)
    rw [eq]
    have same (v : UnitId) : (ejectTold u i why s).unit v = s.unit v := congrArg (·[v]) media.1
    have detached := detach_detached (u := u) (i := i) (s := z) (by rw [unit]; exact bound)
    rw [unit] at detached
    refine ⟨detached_mediaOf detached ?_ ?_ (fun none_ => ejectBegun_issue ?_) fun v ne => ?_, ?_⟩
    · show ((ejectBegun u why s).unit u).bootsLeft = ((ejectTold u i why s).unit u).bootsLeft
      rw [ejectBegun_unit, same u]
      rfl
    · rw [ejectBegun_poolFree]
      exact media.2.1.symm
    · exact (congrArg FetchTable.issue media.2.2.2).symm.trans none_
    · rw [ejectBegun_unit_ne ne]
      exact (same v).symm
    · rw [detach_unit, unit]
      rfl

end Sys2Proof.Machine
end

section
/-! PROOFS. The expiry of the power-good filter (R5, R6, R8, R83, R93, R110, R111, R144). -/

namespace Sys2Proof.Machine

open Sys2Proof

variable {s t : State} {i : SlotId} {u : UnitId} {r : SeqRecord} {line : LogLine} {assert : Bool} {due : Time}

/-! ## The log beside the rest (R93) -/

/-- The log of a slot takes an edge. -/
def logged (line : LogLine) (assert : Bool) (now : Time) (x : Slot) : Slot :=
  { x with log := captureEdge line assert now x.log }

theorem logEdge_eq : logEdge i line assert s = s.modSlot i (logged line assert s.now) := rfl

theorem logEdge_notify {o : Option SlotId} {b : NoticeBody} :
    logEdge i line assert (s.notify o b) = (logEdge i line assert s).notify o b := by
  rw [logEdge_eq, logEdge_eq, notify_now, modSlot_notify]

theorem logEdge_finished : logEdge i line assert (finished i r s) = finished i r (logEdge i line assert s) := by
  unfold finished
  rw [logEdge_notify, show ((logEdge i line assert s).slot i).record = (s.slot i).record from by
    rw [logEdge_eq, modSlot_slot_same]
    rfl]
  unfold logEdge
  rw [modSlot_modSlot, modSlot_modSlot]
  rfl

/-! ## A detach and an eject beside the slots -/

theorem Detached.slots {why : Option EjectReason} {held : Nat} {f g : Slot → Slot} (d : Detached u i why held s t) :
    Detached u i why held (s.modSlot i f) (t.modSlot i g) := by
  obtain ⟨unit, pool, cache, records, number, alone⟩ := d
  refine ⟨unit, pool, cache, records, number, fun none_ => ?_⟩
  obtain ⟨frame, same⟩ := alone none_
  refine ⟨?_, same⟩
  conv_lhs => rw [frame]
  rw [← modSlot_notify]
  rfl

/-- A change of a slot that waits in no GATE, beside the eject of its unit. -/
theorem Ejected.modSlot {why : EjectReason} {f : Slot → Slot} (ejected : Ejected u i why s t)
    (idle : (s.slot i).seq.state ≠ .waitGate) (seq : ∀ x, (f x).seq = x.seq) (port : ∀ x, (f x).port = x.port) :
    Ejected u i why (s.modSlot i f) (t.modSlot i f) := by
  have quiet : (((s.modSlot i f).slot i).seq.state) ≠ .waitGate := by
    rw [modSlot_slot_same, seq]
    exact idle
  obtain ⟨slots, tables, busy, free⟩ := ejected
  rw [gateTold_idle (by rw [notify_slot]; exact idle)] at slots busy free
  unfold Ejected
  dsimp only
  rw [gateTold_idle (by rw [notify_slot]; exact quiet), modSlot_slot_same, port]
  refine ⟨?_, tables, fun flight => ?_, fun flight => ?_⟩
  · rw [← modSlot_notify, State.modSlot, State.modSlot, slots]
    rfl
  · obtain ⟨frame, unit, records, others⟩ := busy flight
    refine ⟨?_, unit, records, others⟩
    conv_lhs => rw [frame]
    rw [← modSlot_notify]
    rfl
  · obtain ⟨detached, counters⟩ := free flight
    refine ⟨?_, counters⟩
    rw [← modSlot_notify]
    exact Detached.slots detached

theorem detach_now : (detach u s).now = s.now := by
  rw [detach_eq, notify_now]
  exact show (invalidate u s).now = s.now by rw [invalidate_frame.frame]

theorem eject_now {why : EjectReason} (bound : (s.unit u).slot = some i) (idle : (s.slot i).seq.state ≠ .waitGate) :
    (eject u why s).now = s.now := by
  rw [eject_told bound fun waiting => absurd waiting idle]
  have told : (ejectTold u i why s).now = s.now := by
    rw [ejectTold, gateTold_idle (by rw [notify_slot]; exact idle), notify_now]
  unfold ejectEnd
  split_ifs
  · exact told
  · exact detach_now.trans told

/-! ## The edge (R5, R83) -/

/-- The filtered PG state of a slot is the raw level. -/
def filteredTo (assert : Bool) (x : Slot) : Slot := { x with pg := { x.pg with filtered := assert, due := none } }

theorem exec_pgFilter (armed : (s.slot i).pg.due = some due) (now : reached due s.now = true) :
    exec (.pgFilterExpiry i) s = .next (logEdge i .pg (s.pgRaw i)
      (deriveObserved observeBoot meetLow i (s.modSlot i (filteredTo (s.pgRaw i))))) := by
  refine congrArg Host.Outcome.next ?_
  rw [armed]
  exact if_pos now

/-- A slot that PG takes from STANDBY to ON. -/
def riseSeen (x : Slot) : Slot :=
  { filteredTo true x with record := { x.record with observed := .on } }

theorem derive_rise {boot : SlotId → Power → State → State} {left : SlotId → State → State}
    (feed : (s.slot i).lines.feed = true) (standby : (s.slot i).record.observed = .standby) :
    deriveObserved boot left i (s.modSlot i (filteredTo true)) = boot i .standby (s.modSlot i riseSeen) := by
  unfold deriveObserved
  rw [modSlot_slot_same, show (filteredTo true (s.slot i)).lines.feed = true from feed,
    show (filteredTo true (s.slot i)).record.observed = .standby from standby,
    show observe true (filteredTo true (s.slot i)).pg.filtered = .on from rfl]
  dsimp only
  rw [if_neg (by decide), if_pos rfl, modSlot_modSlot]
  exact congrArg (boot i .standby) (modSlot_congr rfl)

/-- A slot that PG takes from ON to STANDBY. -/
def fallSeen (x : Slot) : Slot :=
  { filteredTo false x with
    record := { x.record with observed := .standby, resetWhileOn := false }
    silence := {} }

/-- The slot has been seen to leave ON, with its notice. -/
def fallTold (i : SlotId) (s : State) : State :=
  (s.modSlot i fallSeen).notify (some i)
    (.powerChanged .on .standby false (s.slot i).record.bootCount (s.slot i).record.lastCause)

theorem derive_fall {boot : SlotId → Power → State → State} {left : SlotId → State → State}
    (feed : (s.slot i).lines.feed = true) (on : (s.slot i).record.observed = .on) :
    deriveObserved boot left i (s.modSlot i (filteredTo false)) = left i (fallTold i s) := by
  unfold deriveObserved
  rw [modSlot_slot_same, show (filteredTo false (s.slot i)).lines.feed = true from feed,
    show (filteredTo false (s.slot i)).record.observed = .on from on,
    show observe true (filteredTo false (s.slot i)).pg.filtered = .standby from rfl]
  dsimp only
  rw [if_neg (by decide), if_neg (by decide), if_pos rfl, restartSilence, modSlot_notify]
  simp only [modSlot_modSlot, modSlot_slot_same]
  refine congrArg (left i) ?_
  rfl

/-- A rise to ON, as the boot observation that it is. -/
def riseBooted (i : SlotId) (s : State) : State := bootSeen i .standby (s.modSlot i riseSeen)

theorem riseBooted_seq : ((riseBooted i s).slot i).seq = (s.slot i).seq := by
  rw [riseBooted, bootSeen, bootNotice, notify_slot, modSlot_slot_same, modSlot_slot_same]
  rfl

theorem sameUnits_riseBooted : SameUnits s (riseBooted i s) := by
  have seen := sameUnits_bootSeen (s := s.modSlot i riseSeen) (i := i) .standby
  exact ⟨seen.units, seen.tables⟩

theorem exec_rise (armed : (s.slot i).pg.due = some due) (now : reached due s.now = true)
    (feed : (s.slot i).lines.feed = true) (high : s.pgRaw i = true) (standby : (s.slot i).record.observed = .standby) :
    exec (.pgFilterExpiry i) s =
      .next (logEdge i .pg true (meetHigh i (bootsLeft eject i (riseBooted i s)))) := by
  rw [exec_pgFilter armed now, high, derive_rise feed standby, observeBoot,
    bootWith_eq (by rw [modSlot_slot_same]; rfl)]
  rfl

theorem exec_fall (armed : (s.slot i).pg.due = some due) (now : reached due s.now = true)
    (feed : (s.slot i).lines.feed = true) (low : s.pgRaw i = false) (on : (s.slot i).record.observed = .on) :
    exec (.pgFilterExpiry i) s = .next (logEdge i .pg false (meetLow i (fallTold i s))) := by
  rw [exec_pgFilter armed now, low, derive_fall feed on]

theorem fallTold_seq : ((fallTold i s).slot i).seq = (s.slot i).seq := by
  rw [fallTold, notify_slot, modSlot_slot_same]
  rfl

/-- A step that PG meets ends. -/
theorem meetHigh_ends (seq : (s.slot i).seq = { state := .stepping, record := some r }) (high : r.current = .expectHigh) :
    meetHigh i s = runSteps i r.steps (setSeq i (stepping r) s) := by
  unfold meetHigh
  rw [currentIs_of seq, high, if_pos (by decide)]
  conv_lhs => rw [← stepping_self seq]
  exact stepEnds_setSeq

theorem meetLow_ends {soft : Bool} (seq : (s.slot i).seq = { state := .stepping, record := some r })
    (low : r.current = .expectLow soft) : meetLow i s = runSteps i r.steps (setSeq i (stepping r) s) := by
  unfold meetLow
  rw [currentIs_of seq, currentIs_of seq, low, if_pos (by cases soft <;> decide)]
  conv_lhs => rw [← stepping_self seq]
  exact stepEnds_setSeq

/-- Settles O25. -/
theorem pgReported : Obligations.PgReported := by
  unfold Obligations.PgReported
  intro i s due x seen up down steps armed now
  have logs : logEdge i .pg true (riseBooted i s) = up := by
    rw [riseBooted, bootSeen, bootNotice, logEdge_notify, logEdge_eq, modSlot_modSlot, modSlot_modSlot,
      modSlot_slot_same]
    exact congrArg (State.notify · _ _) (modSlot_congr rfl)
  have falls : logEdge i .pg false (fallTold i s) = down := by
    rw [fallTold, logEdge_notify, logEdge_eq, modSlot_modSlot]
    rfl
  refine ⟨fun feed high standby => ⟨fun quiet => ⟨fun free => ?_, fun u bound presents counts => ?_⟩,
    fun r seq current last free => ?_⟩, fun feed low on => ⟨fun quiet => ?_, fun r soft seq current =>
      ⟨fun last => ?_, fun more next => ?_⟩⟩, fun feed off => ?_⟩
  · have still : Quiet i (riseBooted i s) := by
      unfold Quiet
      rw [riseBooted_seq]
      exact quiet
    rw [exec_rise armed now feed high standby, bootsLeft_free (sameUnits_riseBooted.bootsFree free),
      meetHigh_quiet still, logs]
  · have still : Quiet i (riseBooted i s) := by
      unfold Quiet
      rw [riseBooted_seq]
      exact quiet
    have idle : ((riseBooted i s).slot i).seq.state ≠ .waitGate := fun e => by
      unfold Quiet at still
      rw [e] at still
      cases still
    have bound_ : (riseBooted i s).unitOf i = some u := (sameUnits_riseBooted.unitOf i).trans bound
    have unit : (riseBooted i s).unit u = s.unit u := sameUnits_riseBooted.unit u
    rw [exec_rise armed now feed high standby, bootsLeft_counts bound_ (by rw [unit]; exact presents)
      (by rw [sameUnits_riseBooted.unitSetup]; exact counts), unit]
    refine ⟨fun left => ?_, fun none_ => ⟨_, rfl, ?_⟩⟩
    · have kept {f : MediaUnit → MediaUnit} : Quiet i ((riseBooted i s).modUnit u f) := still
      rw [if_neg left, meetHigh_quiet kept, ← logs]
      rfl
    · rw [if_pos none_, meetHigh_quiet (quiet_of_slots (eject_slots (unitOf_eq_some bound_) idle) still), ← logs]
      have slot := unitOf_eq_some bound_
      have ejected := eject_ejected (why := .bootsUsed) slot (fun waiting => absurd waiting idle)
      have frame : (eject u .bootsUsed (riseBooted i s)).now = (riseBooted i s).now := eject_now slot idle
      rw [logEdge_eq, logEdge_eq, frame]
      exact Ejected.modSlot ejected idle (fun _ => rfl) fun _ => rfl
  · rw [exec_rise armed now feed high standby, bootsLeft_free (sameUnits_riseBooted.bootsFree free),
      meetHigh_ends (riseBooted_seq.trans seq) current, last, runSteps, run_nil, logEdge_finished, logs]
  · rw [exec_fall armed now feed low on, meetLow_quiet (by rw [fallTold_seq]; exact quiet), falls]
  · rw [exec_fall armed now feed low on, meetLow_ends (fallTold_seq.trans seq) current, last, runSteps, run_nil,
      logEdge_finished, falls]
  · rw [exec_fall armed now feed low on, meetLow_ends (fallTold_seq.trans seq) current, next, runSteps,
      run_stops (by decide) enter_dwell, ← falls]
    refine congrArg Host.Outcome.next ?_
    have time {n : Nat} : (fallTold i s).after n = s.after n := by
      rw [State.after, fallTold, notify_now]
      rfl
    have profile : (fallTold i s).profile (entered r (.dwell .off) more).profile = s.profile r.profile := by
      rw [State.profile, fallTold, notify_tables]
      rfl
    rw [setSeq, logEdge_eq, logEdge_eq, modSlot_modSlot, modSlot_modSlot, time, profile]
    refine modSlot_congr ?_
    have seen : (logged .pg false (fallTold i s).now ((fallTold i s).slot i)).seq = { state := .stepping, record := some r } :=
      fallTold_seq.trans seq
    rw [seen]
    rfl
  · rw [exec_pgFilter armed now]
    have same : deriveObserved observeBoot meetLow i (s.modSlot i (filteredTo (s.pgRaw i))) =
        s.modSlot i (filteredTo (s.pgRaw i)) := by
      unfold deriveObserved
      refine if_pos ?_
      rw [modSlot_slot_same, show (filteredTo (s.pgRaw i) (s.slot i)).lines.feed = false from feed]
      exact off.symm
    rw [same, logEdge_eq, modSlot_modSlot]
    rfl

end Sys2Proof.Machine
end

section
/-! PROOFS. An eject and its fetches stand behind the reply of the request that brings them (R141, R193), and
MEDIA_UNBIND (R140). -/

namespace Sys2Proof.Machine

open Sys2Proof

variable {s t : State} {u : UnitId} {i : SlotId} {r : SeqRecord}

theorem behind_ite {c : State → Bool} (kept : Unfilled c) {F G : State → State} (hF : Behind F) (hG : Behind G) :
    Behind fun s => if c s = true then F s else G s :=
  Behind.read kept (F := fun b s => if b = true then F s else G s) fun b => by
    cases b
    · exact hG
    · exact hF

/-! ## Fetches (R163 to R165) -/

theorem behind_fetch {f : FetchTable → FetchTable} : Behind fun s => { s with fetch := f s.fetch } := beside_fetch.behind

theorem behind_cache {f : List CacheLine → List CacheLine} : Behind fun s => { s with cache := f s.cache } :=
  beside_cache.behind

theorem behind_modUnit {f : MediaUnit → MediaUnit} : Behind fun s => s.modUnit u f := beside_modUnit.behind

theorem unfilled_room {p : Port} : Unfilled (·.ownRoom p) := fun _ _ _ _ _ => fillReply_room

/-- What a record's offer reads: the port, the frame, and the deadline. -/
def offerOf (r : FetchRecord) (e : StationId) (a : Addr) (s : State) : Port × OwnFrame × Time :=
  (s.route e, s.ownFrame a (BitVec.ofNat 8 r.unit) 0 (.blockFetch r.unit r.id r.first r.count r.reAsk),
    s.after (s.unitSetup r.unit).fetchDeadline)

theorem behind_offerFetch {r : FetchRecord} : Behind fun s => offerFetch s r :=
  Behind.read (read := fun s => (s.unit r.unit).station) (fun p _ _ _ _ => by cases p <;> rfl)
    (F := fun x s => match x with
      | none => s
      | some (e, a) => if s.ownRoom (offerOf r e a s).1 = true then
          ((s.ownAppend (offerOf r e a s).1 (offerOf r e a s).2.1).modRecord r.id fun x =>
            { x with phase := .out (offerOf r e a s).2.2 }).countUnit r.unit fun c => { c with fetches := bump c.fetches }
        else s) fun x => by
    match x with
    | none => exact behind_id
    | some (e, a) =>
      refine Behind.read (read := offerOf r e a) (fun p _ _ _ _ => by cases p <;> rfl)
        (F := fun y s => if s.ownRoom y.1 = true then
          ((s.ownAppend y.1 y.2.1).modRecord r.id fun x => { x with phase := .out y.2.2 }).countUnit r.unit
            fun c => { c with fetches := bump c.fetches } else s) fun y => behind_ite unfilled_room ?_ behind_id
      exact behind_modUnit.comp (Behind.comp (F := fun s => s.modRecord r.id fun x => { x with phase := .out y.2.2 })
        (beside_fetch (f := fun t => { t with records := t.records.map fun x =>
          if x.id = r.id then { x with phase := .out y.2.2 } else x })).behind behind_ownAppend)

theorem behind_setBlock {b : CacheBlock} {k : Nat} : Behind fun s => setBlock u b s k := behind_cache

theorem behind_createRecord {first count reAsk : Nat} {waiting : List Nat} :
    Behind (createRecord u first count reAsk waiting) :=
  Behind.read (read := fun s => nextId s.fetch.lastId) (fun p _ _ _ _ => by cases p <;> rfl)
    (F := fun id s => offerFetch { s with fetch := { s.fetch with
      records := s.fetch.records ++ [{ id, unit := u, first, count, reAsk, waiting }], lastId := id } }
      { id, unit := u, first, count, reAsk, waiting }) fun id =>
    behind_offerFetch.comp (behind_fetch (f := fun t => { t with
      records := t.records ++ [{ id, unit := u, first, count, reAsk, waiting }], lastId := id }))

theorem unfilled_blockAt : Unfilled fun s => s.blockAt u := fun p _ _ _ _ => by cases p <;> rfl

theorem behind_issueFetch {need : List Nat} : Behind (issueFetch u need) := by
  cases need with
  | nil => exact behind_id
  | cons b bs =>
    exact Behind.read unfilled_blockAt (F := fun at_ s =>
      createRecord u ((spanOf b bs).headD b) (spanOf b bs).length 0 ((spanOf b bs).filter fun k => isEmpty (at_ k))
        (((spanOf b bs).filter fun k => isEmpty (at_ k)).foldl (setBlock u .pending) s)) fun _ =>
      behind_createRecord.comp (behind_foldl (fun _ => behind_setBlock) _)

theorem behind_leaveIssue {which : IssueEntry → Bool} : Behind (leaveIssue which) :=
  behind_fetch (f := fun t => { t with issue := t.issue.filter fun e => !which e })

theorem behind_serveEntry {e : IssueEntry} : Behind fun s => serveEntry s e :=
  Behind.read (read := fun s => s.emptyIn e.unit e.group (s.imagesOf e.unit e.prime)) (fun p _ _ _ _ => by cases p <;> rfl)
    (F := fun need s => if need.isEmpty = true then leaveIssue (fun x => decide (x = e)) s
      else if s.canIssue e.unit = true then issueFetch e.unit need (leaveIssue (fun x => decide (x = e)) s) else s)
    fun need => by
      cases need.isEmpty
      · exact behind_ite (c := fun s => s.canIssue e.unit) (fun p _ _ _ _ => by cases p <;> rfl)
          (behind_issueFetch.comp behind_leaveIssue) behind_id
      · exact behind_leaveIssue

theorem behind_serveIssue : Behind serveIssue :=
  Behind.read (read := fun s => s.fetch.issue) (fun p _ _ _ _ => by cases p <;> rfl)
    (F := fun l s => l.foldl serveEntry s) fun l => behind_foldl (fun _ => behind_serveEntry) l

theorem behind_forget : Behind (forget u) := (Beside.comp
  (beside_cache (f := fun c => c.filter fun l => decide (l.unit ≠ u)))
  (beside_fetch (f := fun f => { f with
    records := f.records.filter fun r => decide (r.unit ≠ u), issue := f.issue.filter fun e => decide (e.unit ≠ u) }))).behind

theorem behind_invalidate : Behind (invalidate u) :=
  behind_ite (c := fun s => s.fetch.records.any fun r => decide (r.unit = u)) (fun p _ _ _ _ => by cases p <;> rfl)
    (behind_serveIssue.comp behind_forget) behind_forget

/-! ## The detach and the eject (R141, R142) -/

theorem unfilled_unit : Unfilled (·.unit u) := fun p _ _ _ _ => by cases p <;> rfl

theorem behind_detach : Behind (detach u) := by
  have eq : detach u = fun s =>
      let z := invalidate u s
      (({ z with poolFree := z.poolFree + heldCount (z.unit u) } : State).modUnit u detachedUnit).notify (z.unit u).slot
        (.mediaState u .detached .detached (z.unit u).ejectReason 0) := funext fun s => detach_eq
  rw [eq]
  refine Behind.comp (F := fun z => (({ z with poolFree := z.poolFree + heldCount (z.unit u) } : State).modUnit u
    detachedUnit).notify (z.unit u).slot (.mediaState u .detached .detached (z.unit u).ejectReason 0)) ?_ behind_invalidate
  exact Behind.read unfilled_unit (F := fun m z => (({ z with poolFree := z.poolFree + heldCount m } : State).modUnit u
    detachedUnit).notify m.slot (.mediaState u .detached .detached m.ejectReason 0)) fun m =>
    behind_notify.comp (behind_modUnit.comp (beside_poolFree (f := (· + heldCount m))).behind)

theorem behind_ejectEnd : Behind (ejectEnd u) :=
  behind_ite (c := fun s => s.portBusy u) (fun p _ _ _ _ => by cases p <;> rfl) behind_id behind_detach

theorem behind_gatePassed {g : GateOutcome} : Behind (gatePassed i g r) := by
  by_cases steps : r.steps = [.releaseRst]
  · have eq : gatePassed i g r = fun s => finished i { r with gate := some g } (rstReleased i s) :=
      funext fun s => if_pos steps
    rw [eq]
    exact behind_finished.comp behind_rstReleased
  · have eq : gatePassed i g r = fun s => s.modSlot i (pressBegun g r s) := funext fun s => if_neg steps
    rw [eq]
    exact Behind.read (read := pressBegun g r) (fun p _ _ _ _ => by cases p <;> rfl) (F := fun f s => s.modSlot i f)
      fun _ => behind_modSlot

theorem behind_gateFailed : Behind (gateFailed i r) :=
  Behind.read (read := fun s => s.profile r.profile) (fun p _ _ _ _ => by cases p <;> rfl)
    (F := fun p s => if p.gate = .require then
      haltedNow i .gateFailed r (if r.steps = [.releaseRst] then rstReleased i s else s)
    else gatePassed i .waived r s) fun p => by
      split_ifs
      · exact behind_haltedNow.comp behind_rstReleased
      · exact behind_haltedNow
      · exact behind_gatePassed

theorem behind_gateTold : Behind (gateTold i) := by
  refine Behind.read (read := fun s => (s.slot i).seq) (fun p _ _ _ _ => by cases p <;> rfl)
    (F := fun q s => match q with
      | { state := .waitGate, record := some r } => gateFailed i r s
      | _ => s) fun q => ?_
  split
  · exact behind_gateFailed
  · exact behind_id

theorem behind_ejectTold {why : EjectReason} : Behind (ejectTold u i why) :=
  Behind.read unfilled_unit (F := fun m s =>
    gateTold i (s.notify (some i) (.mediaState u .ejecting .ejecting (some why) (heldCount m)))) fun _ =>
    behind_gateTold.comp behind_notify

/-- The units, pool, lines and fetches of a state. -/
def mediaPart (s : State) : Vector MediaUnit 4 × Nat × List CacheLine × FetchTable :=
  (s.units, s.poolFree, s.cache, s.fetch)

/-- The lines of some groups of a unit, each unpinned once. -/
def unpinned (u : UnitId) (groups : List Nat) (lines : List CacheLine) : List CacheLine :=
  groups.foldl (fun lines g => lines.map fun l => if isLine u g l then { l with pins := l.pins - 1 } else l) lines

theorem unpin_groups : ∀ (groups : List Nat) (s : State),
    groups.foldl (fun s g => s.modLine u g fun l => { l with pins := l.pins - 1 }) s =
      { s with cache := unpinned u groups s.cache }
  | [], _ => rfl
  | _ :: groups, _ => unpin_groups groups _

theorem endRequester_pins {prime : Bool} {images : List Nat} : endRequester u prime images s = { s with
    cache := unpinned u (groupsOf images) s.cache
    fetch := { s.fetch with issue := s.fetch.issue.filter fun e =>
      !(decide (e.unit = u) && decide (e.prime = prime)) } } := by
  unfold endRequester leaveIssue
  rw [unpin_groups]

theorem mediaPart_ejectBegun {why : EjectReason} :
    mediaPart (ejectBegun u why (mediaOf s t)) = mediaPart (ejectBegun u why s) := by
  unfold ejectBegun
  dsimp only
  rw [apply_ite mediaPart, apply_ite mediaPart, endRequester_pins, endRequester_pins]
  rfl

theorem behind_ejectMoves {why : EjectReason} :
    Behind fun s => mediaOf (ejectBegun u why s) (ejectTold u i why s) :=
  Behind.read (read := fun s => mediaPart (ejectBegun u why s)) (fun p n k x s =>
      have media : fillReply p n k (x, s) = mediaOf s (fillReply p n k (x, s)) := by cases p <;> rfl
      (congrArg (fun z => mediaPart (ejectBegun u why z)) media).trans mediaPart_ejectBegun)
    (F := fun m s => { ejectTold u i why s with units := m.1, poolFree := m.2.1, cache := m.2.2.1, fetch := m.2.2.2 })
    fun m => Behind.comp (F := fun s => { s with units := m.1, poolFree := m.2.1, cache := m.2.2.1, fetch := m.2.2.2 })
      (beside_mediaOf (t := { State.reset with
        units := m.1, poolFree := m.2.1, cache := m.2.2.1, fetch := m.2.2.2 })).behind behind_ejectTold

/-- A request that ejects a unit whose slot's GATE, should it wait, is known. -/
theorem request_ejects {h : Header} {e : StationId} (taken : Taken h e s) {k : MsgKind} (hk : isForeign k = false)
    {rule : StationId → State → Answer} {st : Status} {d : ReplyData} {why : EjectReason} {G : State → State}
    (behind : Behind G) (bound : ((G (placed h k (hear e h.port s))).unit u).slot = some i)
    (bound' : ((G (replied h k st d (hear e h.port s))).unit u).slot = some i)
    (known : GateKnown u i (G (placed h k (hear e h.port s))))
    (known' : GateKnown u i (G (replied h k st d (hear e h.port s))))
    (answers : rule e (placed h k (hear e h.port s)) = ((st, d), eject u why (G (placed h k (hear e h.port s))))) :
    request h k rule s = eject u why (G (replied h k st d (hear e h.port s))) := by
  rw [eject_told bound' known']
  rw [eject_told bound known] at answers
  exact request_behind taken hk ((behind_ejectEnd.comp behind_ejectMoves).comp behind) answers

/-! ## MEDIA_UNBIND (R140) -/

section

variable {h : Header} {e : StationId} {k : MsgKind} {z : State}

theorem replied_unit {st : Status} {d : ReplyData} : (replied h k st d s).unit u = s.unit u := by
  rw [State.unit, replied_units, State.unit]

theorem sameView_replied_hear {st : Status} {d : ReplyData} : SameView i s (replied h k st d (hear e h.port s)) where
  slot := by rw [replied_slot, hear_slot]
  tables := by rw [replied_tables, hear_tables]
  now := by rw [replied_now, hear_now]
  unit u := by rw [replied_unit]; exact hear_unit

theorem SameView.unitSlot (l : SameView i s z) : (z.unit u).slot = (s.unit u).slot := by rw [l.unit]

theorem SameView.gateKnown (l : SameView i s z) (inrush : z.inrush = s.inrush) (known : GateKnown u i s) :
    GateKnown u i z := by
  intro waiting
  rw [l.slot] at waiting
  obtain ⟨bound, r, waits⟩ := known waiting
  refine ⟨(l.unitOf i).trans bound, r, ?_⟩
  unfold WaitsAtGate at waits ⊢
  rw [l.slot, l.profileAt, waitingSlots, inrush]
  exact waits

end

/-- Settles O45. -/
theorem unbindEjects : Obligations.UnbindEjects := by
  unfold Obligations.UnbindEjects
  intro h e u i s taken unit presents bound may known
  obtain ⟨-, -, -, -, exactBody⟩ := id taken
  have placedView : SameView i s (placed h .mediaUnbind (hear e h.port s)) := sameView_placed_hear
  have repliedView : SameView i s (replied h .mediaUnbind .ok .none (hear e h.port s)) := sameView_replied_hear
  have known' := repliedView.gateKnown (by rw [replied_inrush, hear_inrush]) known
  have bound' := repliedView.unitSlot.trans bound
  have ejects := request_ejects (G := id) (why := .unbind) taken rfl behind_id (placedView.unitSlot.trans bound) bound'
    (placedView.gateKnown (by rw [placed_inrush, hear_inrush]) known) known' (rule := fun e s =>
      onUnit h (fun u s =>
        if !h.bodyExact then refuse .malformed s
        else if (s.unit u).state ≠ .presenting then ((.state, .unbindRefused (s.unit u).state), s)
        else if !isMediaStation (s.unit u) e && !(s.station e).rights.admin then refuse .denied s
        else ((.ok, .none), eject u .unbind s)) s) (by
      unfold onUnit
      rw [unit]
      dsimp only
      have station : isMediaStation ((placed h .mediaUnbind (hear e h.port s)).unit u) e = isMediaStation (s.unit u) e := by
        rw [placedView.unit]
        rfl
      rw [exactBody, if_neg (by decide), placedView.state, if_neg (by simp [presents]), station, station_placed_hear, if_neg]
      · rfl
      · rcases may with media | admin
        · simp [media]
        · simp [admin])
  exact ⟨_, congrArg Host.Outcome.next ejects, eject_ejected bound' known'⟩

end Sys2Proof.Machine
end

section
/-! PROOFS. What the Power Sequencer and the ejects leave of the tables, the holders and the bindings, whatever
they do besides (R53, R143, R184). -/

namespace Sys2Proof.Machine

open Sys2Proof

/-- The tables, the last ports, the cursors and the holders stand, and each unit that presents did so before, for
the same slot and station. -/
structure HoldersKept (s t : State) : Prop where
  tables : t.tables = s.tables
  lastPorts : t.lastPorts = s.lastPorts
  cursors : t.cursors = s.cursors
  holder : ∀ j, (t.slot j).input.holder = (s.slot j).input.holder
  unit : ∀ v, (t.unit v).state = .presenting →
    (s.unit v).state = .presenting ∧ (t.unit v).slot = (s.unit v).slot ∧ (t.unit v).station = (s.unit v).station

namespace HoldersKept

variable {s t z : State} {i : SlotId} {u : UnitId}

theorem refl : HoldersKept s s := ⟨rfl, rfl, rfl, fun _ => rfl, fun _ h => ⟨h, rfl, rfl⟩⟩

theorem trans (h : HoldersKept s t) (k : HoldersKept t z) : HoldersKept s z where
  tables := k.tables.trans h.tables
  lastPorts := k.lastPorts.trans h.lastPorts
  cursors := k.cursors.trans h.cursors
  holder j := (k.holder j).trans (h.holder j)
  unit v presents := by
    obtain ⟨before, slot, station⟩ := k.unit v presents
    obtain ⟨first, slot', station'⟩ := h.unit v before
    exact ⟨first, slot.trans slot', station.trans station'⟩

theorem modSlot {f : Slot → Slot} (kept : (f (s.slot i)).input.holder = (s.slot i).input.holder) :
    HoldersKept s (s.modSlot i f) where
  tables := rfl
  lastPorts := rfl
  cursors := rfl
  holder j := by
    rw [modSlot_slot]
    split_ifs with same
    · rw [same]
      exact kept
    · rfl
  unit _ h := ⟨h, rfl, rfl⟩

theorem notify {o : Option SlotId} {b : NoticeBody} : HoldersKept s (s.notify o b) where
  tables := notify_tables
  lastPorts := by rw [notify_frame]
  cursors := by rw [notify_frame]
  holder j := by rw [notify_slot]
  unit v h := by
    rw [notify_unit] at h ⊢
    exact ⟨h, rfl, rfl⟩

theorem modUnit {f : MediaUnit → MediaUnit} (kept : (f (s.unit u)).state = .presenting →
    (s.unit u).state = .presenting ∧ (f (s.unit u)).slot = (s.unit u).slot ∧
      (f (s.unit u)).station = (s.unit u).station) : HoldersKept s (s.modUnit u f) where
  tables := rfl
  lastPorts := rfl
  cursors := rfl
  holder _ := rfl
  unit v h := by
    rw [modUnit_unit] at h ⊢
    split_ifs at h ⊢ with same
    · subst same
      exact kept h
    · exact ⟨h, rfl, rfl⟩

theorem fetch {A : UnitId → Prop} (h : FetchMove A s t) : HoldersKept s t where
  tables := h.tables
  lastPorts := by rw [h.frame]
  cursors := by rw [h.frame]
  holder j := by rw [h.slot]
  unit v presents := by
    obtain ⟨state, slot, station⟩ := h.units v
    exact ⟨state ▸ presents, slot, station⟩

/-! ## The detach and the eject (R141, R142) -/

theorem poolFree {n : Nat} : HoldersKept s { s with poolFree := n } := ⟨rfl, rfl, rfl, fun _ => rfl, fun _ h => ⟨h, rfl, rfl⟩⟩

theorem modInrush {f : Inrush → Inrush} : HoldersKept s (s.modInrush f) :=
  ⟨rfl, rfl, rfl, fun _ => rfl, fun _ h => ⟨h, rfl, rfl⟩⟩

theorem detach : HoldersKept s (detach u s) := by
  rw [detach_eq]
  refine (fetch invalidate_frame).trans (poolFree.trans (HoldersKept.trans (modUnit fun presents => ?_) notify))
  cases presents

theorem ejectStart {why : EjectReason} : HoldersKept s (ejectStart u why s) := by
  rw [ejectStart_eq]
  have told := notify (s := s) (o := (s.unit u).slot)
    (b := .mediaState u .ejecting .ejecting (some why) (heldCount (s.unit u)))
  refine ⟨told.tables, told.lastPorts, told.cursors, told.holder, fun v presents => ?_⟩
  have begun : ((ejectBegun u why s).unit v).state = .presenting := presents
  by_cases same : v = u
  · rw [same, ejectBegun_unit] at begun
    cases begun
  · show (s.unit v).state = .presenting ∧ ((ejectBegun u why s).unit v).slot = (s.unit v).slot ∧
      ((ejectBegun u why s).unit v).station = (s.unit v).station
    rw [ejectBegun_unit_ne same] at begun ⊢
    exact ⟨begun, rfl, rfl⟩

theorem ejectEnd : HoldersKept s (ejectEnd u s) := by
  unfold Machine.ejectEnd
  split_ifs
  · exact refl
  · exact detach

end HoldersKept

/-! ## The boot observation and the lines (R8, R9, R79, R80) -/

section

variable {s t z : State} {i : SlotId} {u : UnitId}

theorem holders_notified {f : Slot → Slot} {o : Option SlotId} {b : NoticeBody}
    (kept : (f (s.slot i)).input.holder = (s.slot i).input.holder) : HoldersKept s ((s.modSlot i f).notify o b) :=
  (HoldersKept.modSlot kept).trans .notify

theorem holders_count {f : SlotCounters → SlotCounters} : HoldersKept s (s.count i f) := .modSlot rfl

theorem holders_post {d : MarkerDetail} : HoldersKept s (s.post i d) := .modSlot rfl

theorem holders_ejectQuiet {why : EjectReason} : HoldersKept s (ejectQuiet u why s) :=
  HoldersKept.ejectStart.trans .ejectEnd

theorem holders_bootsLeft : HoldersKept s (bootsLeft ejectQuiet i s) := by
  unfold bootsLeft
  split
  · exact .refl
  · dsimp only
    split_ifs
    · exact holders_ejectQuiet
    · exact .modUnit fun presents => ⟨presents, rfl, rfl⟩
    · exact .refl

theorem holders_flushInput : HoldersKept s (flushInput i s) := by
  rw [flushInput_eq]
  refine .modSlot ?_
  dsimp only
  split_ifs <;> rfl

theorem holders_recordBoot {before : Power} : HoldersKept s (recordBoot i before s) := by
  rw [recordBoot_eq]
  exact holders_notified rfl

theorem holders_resetMatcher : HoldersKept s (resetMatcher i s) := by
  rw [resetMatcher_eq]
  exact .modSlot rfl

theorem holders_restartSilence : HoldersKept s (restartSilence i s) := .modSlot rfl

theorem holders_boot {before : Power} : HoldersKept s (bootInStep i before s) :=
  holders_recordBoot.trans (holders_flushInput.trans (holders_resetMatcher.trans
    (holders_restartSilence.trans holders_bootsLeft)))

theorem holders_setClaims {f : Lines → Lines} : HoldersKept s (setClaims bootInStep f i s) := by
  have claimed : HoldersKept s (s.modSlot i fun x => { x with lines := f x.lines }) := .modSlot rfl
  unfold setClaims
  dsimp only
  split_ifs
  · refine claimed.trans ?_
    unfold rstAssertedNow
    split_ifs
    · exact .modSlot rfl
    · exact .refl
  · refine claimed.trans ?_
    unfold rstReleasedNow
    dsimp only
    split_ifs
    · exact HoldersKept.trans (.modSlot rfl) holders_boot
    · exact .modSlot rfl
  · exact claimed

theorem holders_deriveObserved : HoldersKept s (deriveObserved bootInStep (fun _ s => s) i s) := by
  have derived {f : Slot → SlotRecord} : HoldersKept s (s.modSlot i fun x => { x with record := f x }) := .modSlot rfl
  unfold deriveObserved
  dsimp only
  split_ifs
  · exact .refl
  · exact derived.trans holders_boot
  · exact derived.trans holders_boot
  · exact derived.trans (HoldersKept.notify.trans holders_restartSilence)
  · exact derived.trans .notify

theorem holders_dropFeed : HoldersKept s (dropFeed bootInStep (fun _ s => s) i s) := by
  unfold dropFeed
  split_ifs
  · exact HoldersKept.trans (.modSlot rfl) holders_deriveObserved
  · exact .refl

theorem holders_raiseFeed : HoldersKept s (raiseFeed bootInStep (fun _ s => s) i s) := by
  unfold raiseFeed
  split_ifs
  · exact .refl
  · exact HoldersKept.trans (.modSlot rfl) holders_deriveObserved

/-! ## The sequencer (chapter 6) -/

theorem holders_modSeq {f : Sequencer → Sequencer} : HoldersKept s (modSeq i f s) := .modSlot rfl

theorem holders_modRecordOf {f : SeqRecord → SeqRecord} : HoldersKept s (modRecordOf i f s) := holders_modSeq

theorem holders_setSeqState {st : SeqState} : HoldersKept s (setSeqState i st s) := holders_modSeq

theorem holders_armStep {ms : Nat} : HoldersKept s (armStep i ms s) := holders_modRecordOf

theorem holders_setGate {g : GateOutcome} : HoldersKept s (setGate i g s) := holders_modRecordOf

theorem holders_withdraw : HoldersKept s (withdraw i s) := by
  unfold withdraw
  split_ifs
  · exact .modInrush
  · exact .refl

theorem holders_finish : HoldersKept s (finish i s) := by
  unfold finish
  split
  · exact .refl
  · exact holders_modSeq.trans (holders_post.trans (HoldersKept.notify.trans holders_count))

theorem holders_halt {why : HaltReason} : HoldersKept s (halt i why s) := by
  unfold halt
  split
  · exact .refl
  · exact holders_modRecordOf.trans (holders_withdraw.trans (holders_setClaims.trans
      (holders_modSeq.trans (holders_post.trans (HoldersKept.notify.trans holders_count)))))

/-- The state that the entry of a step comes to keeps the holders. -/
def EntersKept (s : State) : Entered → Prop
  | .stop t => HoldersKept s t
  | .ends t => HoldersKept s t
  | .skips t => HoldersKept s t

theorem EntersKept.after {e : Entered} (h : HoldersKept s t) (k : EntersKept t e) : EntersKept s e := by
  cases e with
  | stop z => exact h.trans k
  | ends z => exact h.trans k
  | skips z => exact h.trans k

theorem holders_pressNow {width : Nat} : HoldersKept s (pressNow i width s) := holders_setClaims.trans holders_armStep

theorem enters_skipPress : EntersKept s (skipPress i s) := holders_count

theorem enters_executeCharged {kind : ChargeKind} : EntersKept s (executeCharged i kind s) := by
  have steps : HoldersKept s (setSeqState i .stepping s) := holders_setSeqState
  cases kind with
  | feedRestore => exact steps.trans holders_raiseFeed
  | startPress => exact steps.trans holders_pressNow

theorem enters_giveStart {w : Waiting} : EntersKept s (giveStart w s) := by
  unfold giveStart
  split_ifs
  · exact .after .modInrush (.after holders_setSeqState enters_skipPress)
  · exact .after .modInrush enters_executeCharged

theorem holders_joinQueue {w : Waiting} : HoldersKept s (joinQueue w s) := .modInrush

theorem holders_expireCharges : HoldersKept s (expireCharges s) := .modInrush

theorem enters_handToScheduler {kind : ChargeKind} : EntersKept s (handToScheduler i kind s) := by
  unfold handToScheduler
  dsimp only
  split_ifs
  · exact enters_executeCharged
  · exact .after (holders_setSeqState.trans (holders_joinQueue.trans holders_expireCharges)) enters_giveStart
  · exact holders_setSeqState.trans (holders_joinQueue.trans holders_expireCharges)
  · exact holders_setSeqState.trans holders_joinQueue

theorem enters_gateFails : EntersKept s (gateFails i s) := by
  unfold gateFails
  split_ifs
  · exact holders_halt
  · exact holders_setGate

theorem enters_enterGate : EntersKept s (enterGate i s) := by
  unfold enterGate
  split_ifs
  · exact holders_setGate
  · split
    · exact holders_setGate
    · split_ifs
      · split
        · exact holders_setGate
        · exact holders_setSeqState.trans holders_armStep
        · exact enters_gateFails
        · exact enters_gateFails
      · exact enters_gateFails

theorem enters_enterStep {st : Step} : EntersKept s (enterStep i st s) := by
  cases st with
  | press role =>
    simp only [enterStep]
    split_ifs
    · exact enters_skipPress
    · cases role with
      | start => exact enters_handToScheduler
      | stop => exact holders_pressNow
  | hold =>
    simp only [enterStep]
    split_ifs
    · exact enters_skipPress
    · exact holders_pressNow
  | expectHigh =>
    simp only [enterStep]
    split_ifs
    · exact HoldersKept.refl
    · exact holders_armStep
  | expectLow soft =>
    simp only [enterStep]
    split_ifs
    · exact holders_armStep
    · exact holders_armStep
    · exact HoldersKept.refl
  | dwell d => exact holders_armStep
  | gate => exact enters_enterGate
  | assertRst => exact holders_setClaims
  | releaseRst => exact holders_setClaims
  | feedDrop => exact holders_dropFeed
  | feedRestore =>
    simp only [enterStep]
    split_ifs
    · exact HoldersKept.refl
    · exact enters_handToScheduler
  | powerOnTail => exact HoldersKept.refl

theorem holders_runWith {tail : SlotId → State → State} (tails : ∀ s, HoldersKept s (tail i s)) :
    ∀ (steps : List Step) (s : State), HoldersKept s (runWith tail i steps s)
  | [], s => by
    rw [runWith]
    exact holders_finish
  | st :: rest, s => by
    by_cases last : st = .powerOnTail
    · subst last
      rw [runWith]
      exact tails s
    · rw [runWith]
      · have entered : EntersKept s (enterStep i st (beginStep i st rest s)) :=
          .after (t := beginStep i st rest s) holders_modSeq enters_enterStep
        generalize enterStep i st (beginStep i st rest s) = e at entered
        cases e with
        | stop t => exact entered
        | ends t => exact HoldersKept.trans entered (holders_runWith tails rest t)
        | skips t =>
          cases rest with
          | nil => exact HoldersKept.trans entered holders_finish
          | cons _ more => exact HoldersKept.trans entered (holders_runWith tails more t)
      · exact last
termination_by steps => steps.length

theorem holders_runSteps {steps : List Step} : HoldersKept s (runSteps i steps s) :=
  holders_runWith (fun _ => holders_runWith (fun _ => holders_finish) _ _) steps s

theorem holders_goOn {e : Entered} (entered : EntersKept s e) : HoldersKept s (goOn i e) := by
  cases e with
  | stop t => exact entered
  | ends t => exact HoldersKept.trans entered holders_runSteps
  | skips t => exact HoldersKept.trans entered holders_runSteps

theorem holders_gateReport {primed : Bool} : HoldersKept s (gateReport i primed s) := by
  unfold gateReport
  dsimp only
  split_ifs
  · exact holders_modRecordOf.trans (holders_setSeqState.trans (holders_setGate.trans holders_runSteps))
  · exact holders_modRecordOf.trans (holders_setSeqState.trans (holders_goOn enters_gateFails))
  · exact .refl

/-- What follows the start of an eject. -/
theorem holders_ejectRest : HoldersKept s (ejectEnd u (match (s.unit u).slot with
    | some i => gateReport i false s
    | none => s)) := by
  refine HoldersKept.trans ?_ .ejectEnd
  split
  · exact holders_gateReport
  · exact .refl

theorem holders_eject {why : EjectReason} : HoldersKept s (eject u why s) :=
  HoldersKept.ejectStart.trans holders_ejectRest

/-- A unit that is ejected presents no more. -/
theorem eject_away {why : EjectReason} : ((eject u why s).unit u).state ≠ .presenting := by
  intro presents
  obtain ⟨before, -⟩ := (holders_ejectRest (s := ejectStart u why s)).unit u presents
  rw [ejectStart_eq, show ((mediaOf (ejectBegun u why s) (s.notify (s.unit u).slot (.mediaState u .ejecting .ejecting
    (some why) (heldCount (s.unit u))))).unit u) = ejectingUnit why (s.unit u) from ejectBegun_unit] at before
  cases before

end

end Sys2Proof.Machine
end

section
/-! PROOFS. A Station Table write, and the holdings and units that it ends (R53, R143, R183, R184). -/

namespace Sys2Proof.Machine

open Sys2Proof

variable {h : Header} {e k : StationId} {w : WriteHead} {x : StationEntry} {s t z : State} {i : SlotId} {u : UnitId}
  {a : StationAddr}

/-! ## Steps of which at most one does something -/

theorem foldl_fixed {α : Type} {f : State → α → State} : ∀ {l : List α}, (∀ b ∈ l, f s b = s) → l.foldl f s = s
  | [], _ => rfl
  | b :: l, fixed => by
    rw [List.foldl_cons, fixed b (by simp)]
    exact foldl_fixed fun c mem => fixed c (by simp [mem])

theorem foldl_once {α : Type} {f : State → α → State} {b : α} :
    ∀ {l : List α}, l.Nodup → b ∈ l → (∀ c, c ≠ b → f s c = s) → (∀ c, c ≠ b → f (f s b) c = f s b) →
      l.foldl f s = f s b
  | c :: l, once, mem, before, after => by
    obtain ⟨fresh, once⟩ := List.nodup_cons.mp once
    rw [List.foldl_cons]
    by_cases same : c = b
    · subst same
      exact foldl_fixed fun d mem => after d fun eq => fresh (eq ▸ mem)
    · rw [before c same]
      exact foldl_once once ((List.mem_cons.mp mem).resolve_left fun eq => same eq.symm) before after

/-- What the step for one element brings about, and the others keep, holds after all steps. -/
theorem foldl_reaches {α : Type} {f : State → α → State} {P : State → Prop} {Q : State → Prop} {b : α}
    (stays : ∀ s c, P s → P (f s c)) (keeps : ∀ s c, P s → Q s → Q (f s c)) (reaches : ∀ s, P s → Q (f s b)) :
    ∀ {l : List α} {s : State}, b ∈ l → P s → Q (l.foldl f s) := by
  have kept : ∀ (l : List α) (s : State), P s → Q s → Q (l.foldl f s) := by
    intro l
    induction l with
    | nil => exact fun _ _ q => q
    | cons c l ih => exact fun s p q => ih _ (stays s c p) (keeps s c p q)
  intro l
  induction l with
  | nil => exact fun mem => by cases mem
  | cons c l ih =>
    intro s mem p
    rcases List.mem_cons.mp mem with rfl | mem
    · exact kept l _ (stays s _ p) (reaches s p)
    · exact ih mem (stays s c p)

/-! ## The judgments of a write (R53, R143) -/

/-- The entry holds slot `i` and may no longer type on it. -/
def HoldEnds (k : StationId) (x : StationEntry) (i : SlotId) (s : State) : Prop :=
  (s.slot i).input.holder = some k ∧ (x.valid && x.rights.type && maskHas x.mask i) = false

/-- The unit presents for an entry, of address `a` before, that no longer stands as its media station. -/
def Loses (k : StationId) (x : StationEntry) (a : StationAddr) (u : UnitId) (s : State) : Prop :=
  isMediaStation (s.unit u) k = true ∧ (s.unit u).state = .presenting ∧
    ∀ i, (s.unit u).slot = some i →
      ¬ (x.valid = true ∧ x.rights.media = true ∧ maskHas x.mask i = true ∧ x.address = a)

theorem judgeHolder_ends (entry : s.station k = x) (ends : HoldEnds k x i s) :
    judgeHolder k s i = endHold i .stationChange s := by
  refine if_pos ⟨ends.1, ?_⟩
  rw [State.holdsOn, entry, ← Bool.and_assoc]
  exact ends.2

theorem judgeHolder_keeps (entry : s.station k = x) (keeps : ¬ HoldEnds k x i s) : judgeHolder k s i = s := by
  refine if_neg fun ends => keeps ⟨ends.1, ?_⟩
  rw [Bool.and_assoc, ← entry]
  exact ends.2

theorem lostStation_iff (entry : s.station k = x) : lostStation k a s u = true ↔ ∀ i, (s.unit u).slot = some i →
    ¬ (x.valid = true ∧ x.rights.media = true ∧ maskHas x.mask i = true ∧ x.address = a) := by
  unfold lostStation
  rw [entry]
  cases (s.unit u).slot with
  | none => simp
  | some i =>
    simp only [Option.some.injEq, forall_eq']
    simp [imp_iff_not_or, or_assoc]

theorem judgeBinding_loses (entry : s.station k = x) (loses : Loses k x a u s) :
    judgeBinding k a s u = eject u .stationChange s := by
  obtain ⟨media, presents, lost⟩ := loses
  exact if_pos ⟨media, presents, (lostStation_iff entry).mpr lost⟩

theorem judgeBinding_keeps (entry : s.station k = x) (keeps : ¬ Loses k x a u s) : judgeBinding k a s u = s := by
  refine if_neg fun ⟨media, presents, lost⟩ => keeps ⟨media, presents, (lostStation_iff entry).mp lost⟩

/-- What does not bind a unit anew brings no loss. -/
theorem HoldersKept.loses (kept : HoldersKept s t) (loses : Loses k x a u t) : Loses k x a u s := by
  obtain ⟨media, presents, lost⟩ := loses
  obtain ⟨before, slot, station⟩ := kept.unit u presents
  refine ⟨?_, before, fun i bound => lost i (slot.trans bound)⟩
  unfold isMediaStation at media ⊢
  rw [← station]
  exact media

theorem HoldersKept.station (kept : HoldersKept s t) : t.station k = s.station k := by
  rw [State.station, kept.tables, State.station]

theorem holders_judgeBinding : HoldersKept s (judgeBinding k a s u) := by
  unfold judgeBinding
  split_ifs
  · exact holders_eject
  · exact .refl

/-! ## The write -/

/-- The entry is stored, with no last port and no cursor. -/
def stationStored (k : StationId) (x : StationEntry) (s : State) : State :=
  { modTables (fun t => { t with stations := upd t.stations k fun _ => x }) s with
    lastPorts := upd s.lastPorts k fun _ => none
    cursors := upd s.cursors k fun _ => Vector.replicate 8 none }

theorem behind_stationStored : Behind (stationStored k x) :=
  ⟨fun s p => by cases p <;> exact le_rfl, fun s p n k x _ => by cases p <;> rfl⟩

theorem stationStored_station : (stationStored k x s).station k = x := upd_same _ _ _

theorem stationStored_lastPort : (stationStored k x s).lastPorts[k] = none := upd_same _ _ _

theorem takeStation_eq : takeStation k x s = (List.finRange 4).foldl (judgeBinding k (s.station k).address)
    ((List.finRange 8).foldl (judgeHolder k) (stationStored k x s)) := rfl

theorem takeStation_keeps (holds : ∀ i, ¬ HoldEnds k x i s) (keeps : ∀ u, ¬ Loses k x (s.station k).address u s) :
    takeStation k x s = stationStored k x s := by
  rw [takeStation_eq, foldl_fixed fun i _ => judgeHolder_keeps stationStored_station (holds i)]
  exact foldl_fixed fun u _ => judgeBinding_keeps stationStored_station (keeps u)

theorem takeStation_holder (ends : HoldEnds k x i s) (alone : ∀ j, HoldEnds k x j s → j = i)
    (keeps : ∀ u, ¬ Loses k x (s.station k).address u s) :
    takeStation k x s = endHold i .stationChange (stationStored k x s) := by
  have ended : (List.finRange 8).foldl (judgeHolder k) (stationStored k x s) =
      endHold i .stationChange (stationStored k x s) := by
    have first : judgeHolder k (stationStored k x s) i = endHold i .stationChange (stationStored k x s) :=
      judgeHolder_ends stationStored_station ends
    rw [← first]
    refine foldl_once (List.nodup_finRange 8) (List.mem_finRange i)
      (fun j ne => judgeHolder_keeps stationStored_station fun more => ne (alone j more)) fun j ne => ?_
    rw [first, endHold_eq]
    refine judgeHolder_keeps (x := x) ?_ fun more => ne (alone j ?_)
    · rw [State.station, notify_tables]
      exact stationStored_station
    · unfold HoldEnds at more ⊢
      rw [notify_slot, modSlot_slot_ne ne] at more
      exact more
  rw [takeStation_eq, ended]
  refine foldl_fixed fun u _ => judgeBinding_keeps (x := x) ?_ fun loses => keeps u ?_
  · rw [endHold_eq, State.station, notify_tables]
    exact stationStored_station
  · rw [endHold_eq] at loses
    unfold Loses at loses ⊢
    rw [notify_unit] at loses
    exact loses

theorem takeStation_unit (holds : ∀ i, ¬ HoldEnds k x i s) (loses : Loses k x (s.station k).address u s)
    (alone : ∀ v, Loses k x (s.station k).address v s → v = u) :
    takeStation k x s = eject u .stationChange (stationStored k x s) := by
  rw [takeStation_eq, foldl_fixed fun i _ => judgeHolder_keeps stationStored_station (holds i)]
  have first : judgeBinding k (s.station k).address (stationStored k x s) u =
      eject u .stationChange (stationStored k x s) := judgeBinding_loses stationStored_station loses
  rw [← first]
  refine foldl_once (List.nodup_finRange 4) (List.mem_finRange u)
    (fun v ne => judgeBinding_keeps stationStored_station fun more => ne (alone v more)) fun v ne => ?_
  have kept : HoldersKept (stationStored k x s) (judgeBinding k (s.station k).address (stationStored k x s) u) :=
    holders_judgeBinding
  exact judgeBinding_keeps (kept.station.trans stationStored_station) fun more => ne (alone v (kept.loses more))

/-- What every Station Table write leaves. -/
structure StationTaken (k : StationId) (x : StationEntry) (s t : State) : Prop where
  tables : t.tables = (stationStored k x s).tables
  lastPorts : t.lastPorts = (stationStored k x s).lastPorts
  cursors : t.cursors = (stationStored k x s).cursors
  ended : ∀ i, HoldEnds k x i s → (t.slot i).input.holder = none
  held : ∀ i, ¬ HoldEnds k x i s → (t.slot i).input.holder = (s.slot i).input.holder
  ejected : ∀ u, Loses k x (s.station k).address u s → (t.unit u).state ≠ .presenting

open Classical in
/-- The slot as the judgment of its holding leaves it. -/
noncomputable def holderJudged (k : StationId) (x : StationEntry) (now : Time) (i : SlotId) (y : Slot) : Slot :=
  if y.input.holder = some k ∧ (x.valid && x.rights.type && maskHas x.mask i) = false then holdingEnded now y else y

/-- Nothing but slots differs, and what notices have brought the ports. -/
def SlotsNoticed (s t : State) : Prop :=
  t = { s with slots := t.slots, noticeNumber := t.noticeNumber, uplink := t.uplink, chain := t.chain }

theorem SlotsNoticed.modSlot {f : Slot → Slot} (h : SlotsNoticed s t) : SlotsNoticed s (t.modSlot i f) := by
  unfold SlotsNoticed at h ⊢
  rw [h]
  rfl

theorem SlotsNoticed.notify {o : Option SlotId} {b : NoticeBody} (h : SlotsNoticed s t) : SlotsNoticed s (t.notify o b) := by
  unfold SlotsNoticed at h ⊢
  rw [notify_frame, h]

theorem SlotsNoticed.unit (h : SlotsNoticed s t) : t.unit u = s.unit u := by rw [State.unit, h, State.unit]

theorem SlotsNoticed.tables (h : SlotsNoticed s t) : t.tables = s.tables := by rw [h]

theorem SlotsNoticed.lastPorts (h : SlotsNoticed s t) : t.lastPorts = s.lastPorts := by rw [h]

theorem SlotsNoticed.cursors (h : SlotsNoticed s t) : t.cursors = s.cursors := by rw [h]

/-- Holdings are ended slot by slot. -/
theorem judgeHolders : let t := (List.finRange 8).foldl (judgeHolder k) (stationStored k x s)
    SlotsNoticed (stationStored k x s) t ∧
    ∀ j, t.slot j = holderJudged k x s.now j (s.slot j) := by
  set z := stationStored k x s with stored
  have judged (t : State) (i : SlotId) (p : SlotsNoticed z t) :
      SlotsNoticed z (judgeHolder k t i) ∧
      ∀ j, (judgeHolder k t i).slot j = if j = i then holderJudged k x s.now i (t.slot i) else t.slot j := by
    have entry : t.station k = x := by
      rw [p]
      exact stationStored_station
    have now : t.now = s.now := by
      rw [p]
      rfl
    unfold holderJudged
    by_cases ends : HoldEnds k x i t
    · rw [judgeHolder_ends entry ends, endHold_eq]
      refine ⟨p.modSlot.notify, fun j => ?_⟩
      · rw [notify_slot, modSlot_slot, now, if_pos (show _ ∧ _ from ends)]
        split_ifs with same
        · rw [same]
        · rfl
    · rw [judgeHolder_keeps entry ends]
      refine ⟨p, fun j => ?_⟩
      rw [if_neg (show ¬ (_ ∧ _) from ends)]
      split_ifs with same
      · rw [same]
      · rfl
  exact eachSlot_slots (fun t i p => (judged t i p).1) (fun t i j p => (judged t i p).2 j) rfl

theorem takeStation_taken : StationTaken k x s (takeStation k x s) := by
  obtain ⟨frame, slots⟩ := judgeHolders (k := k) (x := x) (s := s)
  rw [takeStation_eq]
  generalize (List.finRange 8).foldl (judgeHolder k) (stationStored k x s) = y at frame slots ⊢
  have unit (u : UnitId) : y.unit u = s.unit u := frame.unit
  have tables : y.tables = (stationStored k x s).tables := frame.tables
  have entry : y.station k = x := by
    rw [State.station, tables]
    exact stationStored_station
  have kept : ∀ (l : List UnitId) (t : State), HoldersKept t (l.foldl (judgeBinding k (s.station k).address) t) := by
    intro l
    induction l with
    | nil => exact fun _ => .refl
    | cons u l ih => exact fun t => holders_judgeBinding.trans (ih _)
  have all := kept (List.finRange 4) y
  refine ⟨all.tables.trans tables, all.lastPorts.trans frame.lastPorts, all.cursors.trans frame.cursors,
    fun i ends => ?_, fun i holds => ?_, fun u loses => ?_⟩
  · rw [all.holder, slots, holderJudged, if_pos (show _ ∧ _ from ends)]
    rfl
  · rw [all.holder, slots, holderJudged, if_neg (show ¬ (_ ∧ _) from holds)]
  · refine foldl_reaches (P := HoldersKept y) (Q := fun t => (t.unit u).state ≠ .presenting) (b := u)
      (fun t v p => p.trans holders_judgeBinding) (fun t v _ away presents =>
        away (holders_judgeBinding.unit u presents).1) (fun t p => ?_) (List.mem_finRange u) .refl
    by_cases lost : Loses k x (s.station k).address u t
    · rw [judgeBinding_loses (p.station.trans entry) lost]
      exact eject_away
    · rw [judgeBinding_keeps (p.station.trans entry) lost]
      intro presents
      obtain ⟨-, slot, station⟩ := p.unit u presents
      rw [unit] at slot station
      obtain ⟨media, -, keeps⟩ := loses
      refine lost ⟨?_, presents, fun i bound => keeps i (slot.symm.trans bound)⟩
      unfold isMediaStation at media ⊢
      rw [station]
      exact media

theorem StationTaken.filled {p : Port} {n : Nat} {kind : MsgKind} {c : Status × ReplyData} (all : StationTaken k x s z) :
    StationTaken k x s (fillReply p n kind (c, z)) where
  tables := fillReply_frame.2.1.trans all.tables
  lastPorts := fillReply_frame.2.2.1.trans all.lastPorts
  cursors := Eq.trans (by cases p <;> rfl) all.cursors
  ended i ends := Eq.trans (by rw [fillReply_slot]) (all.ended i ends)
  held i holds := Eq.trans (by rw [fillReply_slot]) (all.held i holds)
  ejected u loses := by
    have unit : (fillReply p n kind (c, z)).unit u = z.unit u := by cases p <;> rfl
    rw [unit]
    exact all.ejected u loses

/-! ## The write as a request -/

theorem SameView.loses (l : SameView i s z) : Loses k x a u z ↔ Loses k x a u s := by
  unfold Loses isMediaStation
  rw [l.unit]

/-- The rule of a Station Table write. -/
def stationRule (w : WriteHead) (x : StationEntry) (k : StationId) (s : State) : Answer :=
  match judgeStation w.codesKnown x with
  | none => refuse .range s
  | some x =>
    if addressTaken s.tables.stations k x then refuse .state s
    else if !hasAdmin (upd s.tables.stations k fun _ => x) then refuse .state s
    else
      let s := takeStation k x s
      written (.station x s.lastPorts[k]) s

section

variable (taken : WriteTaken h e w (.station x none) s) (good : goodStationAddr x.address = true)

include taken good

theorem stationRule_judged : judgeStation w.codesKnown x = some x := by
  rw [judgeStation, taken.codes, good]
  rfl

theorem stationRule_refuses (bad : addressTaken s.tables.stations k x = true ∨
    hasAdmin (upd s.tables.stations k fun _ => x) = false) :
    stationRule w x k (placed h .tableWrite (hear e h.port s)) =
      refuse .state (placed h .tableWrite (hear e h.port s)) := by
  unfold stationRule
  rw [stationRule_judged taken good]
  dsimp only
  rw [placed_tables, hear_tables]
  rcases bad with held | none_
  · rw [if_pos held]
  · rw [none_, if_pos (c := (!false) = true) rfl, ite_self]

theorem stationRule_takes (free : addressTaken s.tables.stations k x = false)
    (admin : hasAdmin (upd s.tables.stations k fun _ => x) = true) :
    stationRule w x k (placed h .tableWrite (hear e h.port s)) =
      written (.station x none) (takeStation k x (placed h .tableWrite (hear e h.port s))) := by
  unfold stationRule
  rw [stationRule_judged taken good]
  dsimp only
  rw [placed_tables, hear_tables, free, admin, takeStation_taken.lastPorts, stationStored_lastPort]
  rfl

end

theorem stationStored_replied {st : Status} {d : ReplyData} :
    stationStored k x (replied h .tableWrite st d (hear e h.port s)) =
      { replied h .tableWrite st d (hear e h.port s) with
        tables := { s.tables with stations := upd s.tables.stations k fun _ => x }
        lastPorts := upd (hear e h.port s).lastPorts k (fun _ => none)
        cursors := upd s.cursors k (fun _ => Vector.replicate 8 none) } := by
  unfold stationStored modTables
  rw [replied_tables, hear_tables, replied_lastPorts, replied_cursors, hear_cursors]

theorem gateKnown_stationStored (known : GateKnown u i s) : GateKnown u i (stationStored k x s) := known

theorem holdEnds_placed : HoldEnds k x i (placed h .tableWrite (hear e h.port s)) ↔ HoldEnds k x i s := by
  rw [HoldEnds, HoldEnds, placed_slot, hear_slot]

/-- Settles O55. -/
theorem stationWritten : Obligations.StationWritten := by
  unfold Obligations.StationWritten
  intro h e k w x s taken at_ good table s1 stored ends keeps loses
  have view (i : SlotId) : SameView i s (placed h .tableWrite (hear e h.port s)) := sameView_placed_hear
  have entry : (placed h .tableWrite (hear e h.port s)).station k = s.station k := station_placed_hear k
  have lost (u : UnitId) : Loses k x ((placed h .tableWrite (hear e h.port s)).station k).address u
      (placed h .tableWrite (hear e h.port s)) ↔ loses u := by
    rw [entry]
    exact (view 0).loses
  have judged (rule : Answer) (own : stationRule w x k (placed h .tableWrite (hear e h.port s)) = rule) :
      writeRule h 0 32 w true (stationRule w x) e (placed h .tableWrite (hear e h.port s)) = rule :=
    (writeRule_taken taken rfl (fun _ => rfl) at_).trans own
  have eq : stationStored k x (replied h .tableWrite .ok (.table (.station x none)) s1) = stored := stationStored_replied
  refine ⟨fun bad => congrArg Host.Outcome.next (request_replied taken.1 rfl
    (judged _ (stationRule_refuses taken good bad))), fun free admin => ⟨?_, fun held stays => ?_, fun i ended alone stays => ?_,
    fun u i held losing alone bound known => ?_⟩⟩
  · have all := takeStation_taken (k := k) (x := x) (s := placed h .tableWrite (hear e h.port s))
    have leaves := request_taken taken.1 .tableWrite rfl (writeRule h 0 32 w true (stationRule w x))
    rw [judged _ (stationRule_takes taken good free admin)] at leaves
    obtain ⟨tables, lastPorts, cursors, ended, held, ejected⟩ := all.filled (p := h.port)
      (n := ((hear e h.port s).port h.port).own.length) (kind := .tableWrite) (c := (.ok, .table (.station x none)))
    refine ⟨_, congrArg Host.Outcome.next leaves, tables.trans ?_, lastPorts.trans ?_, cursors.trans ?_, fun i => ?_,
      fun u i losing _ => ejected u ((lost u).mpr losing)⟩
    · rw [stationStored, modTables, placed_tables, hear_tables]
    · rw [stationStored, placed_lastPorts]
    · rw [stationStored, placed_cursors, hear_cursors]
    · by_cases over_ : ends i
      · rw [if_pos over_]
        exact ended i (holdEnds_placed.mpr over_)
      · rw [if_neg over_]
        refine (held i fun more => over_ (holdEnds_placed.mp more)).trans ?_
        rw [placed_slot, hear_slot]
  · rw [← eq]
    refine congrArg Host.Outcome.next (request_behind taken.1 rfl behind_stationStored
      (judged _ ((stationRule_takes taken good free admin).trans ?_)))
    rw [takeStation_keeps (fun i more => held i (holdEnds_placed.mp more)) fun u more => stays u ((lost u).mp more)]
    rfl
  · rw [← eq]
    refine congrArg Host.Outcome.next (request_behind (F := fun z => ((stationStored k x z).modSlot i (holdingEnded s.now)).notify
      (some i) (.holderChanged (some k) none .stationChange (s.slot i).input.count)) taken.1 rfl
      (behind_reported.comp behind_stationStored) (judged _ ((stationRule_takes taken good free admin).trans ?_)))
    rw [takeStation_holder (holdEnds_placed.mpr ended) (fun j more => alone j (holdEnds_placed.mp more))
      fun u more => stays u ((lost u).mp more), endHold_eq]
    have slot : (stationStored k x (placed h .tableWrite (hear e h.port s))).slot i = s.slot i := (view i).slot
    have now : (stationStored k x (placed h .tableWrite (hear e h.port s))).now = s.now := (view i).now
    rw [slot, now, ended.1]
    rfl
  · have repliedView : SameView i s (replied h .tableWrite .ok (.table (.station x none)) s1) := sameView_replied_hear
    have known' : GateKnown u i stored := by
      rw [← eq]
      exact gateKnown_stationStored (repliedView.gateKnown (by rw [replied_inrush, hear_inrush]) known)
    have bound' : (stored.unit u).slot = some i := by
      rw [← eq]
      exact repliedView.unitSlot.trans bound
    refine ⟨eject u .stationChange stored, congrArg Host.Outcome.next ?_, eject_ejected bound' known'⟩
    rw [← eq] at known' bound' ⊢
    refine request_ejects taken.1 rfl behind_stationStored ((view i).unitSlot.trans bound) bound'
      (gateKnown_stationStored ((view i).gateKnown (by rw [placed_inrush, hear_inrush]) known)) known'
      (judged _ ((stationRule_takes taken good free admin).trans ?_))
    rw [takeStation_unit (fun j more => held j (holdEnds_placed.mp more)) ((lost u).mpr losing)
      fun v more => alone v ((lost v).mp more)]
    rfl

end Sys2Proof.Machine
end

section
/-! PROOFS. The blocks that a fetch brings or takes away (R160, R161, R164, R167, R170), and the end of a
request (R142, R154, R155). -/

namespace Sys2Proof.Machine

open Sys2Proof

variable {s t z : State} {u v : UnitId} {i : SlotId} {b k : Nat} {c : CacheBlock} {d : Block}

/-! ## Blocks of lines -/

theorem fin_ofNat_eq (group : b / 8 = k / 8) : Fin.ofNat 8 b = Fin.ofNat 8 k ↔ b = k := by
  constructor
  · intro same
    have := congrArg Fin.val same
    simp only [Fin.ofNat] at this
    omega
  · rintro rfl
    rfl

theorem setBlock_blockAt : (setBlock u c s k).blockAt v b =
    if v = u ∧ b = k ∧ (s.line u (k / 8)).isSome = true then c else s.blockAt v b := by
  unfold State.blockAt
  rw [setBlock, line_modLine (by exact fun l => ⟨rfl, rfl⟩)]
  cases found : s.line v (b / 8) with
  | none =>
    rw [if_neg]
    · rfl
    · rintro ⟨rfl, rfl, held⟩
      rw [found] at held
      cases held
  | some l =>
    obtain ⟨key, group⟩ : l.unit = v ∧ l.group = b / 8 := isLine_iff.mp (List.find?_some found)
    dsimp only [Option.map_some]
    by_cases line : v = u ∧ b / 8 = k / 8
    · obtain ⟨rfl, same⟩ := line
      rw [if_pos (isLine_iff.mpr ⟨key, group.trans same⟩)]
      by_cases eq : b = k
      · subst eq
        rw [if_pos ⟨rfl, rfl, by rw [found]; rfl⟩]
        exact upd_same _ _ _
      · rw [if_neg fun h => eq h.2.1]
        exact upd_get_ne _ (fun h => eq ((fin_ofNat_eq same).mp h)) _
    · rw [if_neg fun h => line ⟨key.symm.trans (isLine_iff.mp h).1, group.symm.trans (isLine_iff.mp h).2⟩, if_neg]
      rintro ⟨rfl, rfl, -⟩
      exact line ⟨rfl, rfl⟩

/-- What is VALID stands, and nothing else becomes so. -/
def ValidKept (s t : State) : Prop := ∀ v b d, t.blockAt v b = .valid d ↔ s.blockAt v b = .valid d

theorem validKept_cache (same : t.cache = s.cache) : ValidKept s t := fun v b d => by
  rw [State.blockAt, State.blockAt, State.line, State.line, same]

theorem ValidKept.trans (h : ValidKept s t) (k : ValidKept t z) : ValidKept s z := fun v b d =>
  (k v b d).trans (h v b d)

theorem ValidKept.foldl {α : Type} {f : State → α → State} (h : ∀ s a, ValidKept s (f s a)) :
    ∀ (l : List α) (s : State), ValidKept s (l.foldl f s)
  | [], _ => validKept_cache rfl
  | a :: l, s => (h s a).trans (foldl h l (f s a))

theorem createRecord_cache {first count reAsk : Nat} {waiting : List Nat} :
    (createRecord u first count reAsk waiting s).cache = s.cache := offerFetch_cache

/-- Blocks that are not VALID become PENDING. -/
theorem validKept_pending : ∀ {l : List Nat} {s : State}, (∀ k ∈ l, isValid (s.blockAt u k) = false) →
    ValidKept s (l.foldl (setBlock u .pending) s)
  | [], _, _ => validKept_cache rfl
  | k :: l, s, away => by
    have one : ValidKept s (setBlock u .pending s k) := fun v b d => by
      rw [setBlock_blockAt]
      split_ifs with same
      · obtain ⟨rfl, rfl, -⟩ := same
        refine iff_of_false (fun h => by cases h) fun h => ?_
        have := away b (by simp)
        rw [h] at this
        cases this
      · rfl
    refine one.trans (validKept_pending fun j mem => ?_)
    rw [setBlock_blockAt]
    split_ifs
    · rfl
    · exact away j (by simp [mem])

theorem isValid_of_empty {x : CacheBlock} (empty : isEmpty x = true) : isValid x = false := by
  cases x <;> simp_all [isEmpty, isValid]

theorem validKept_issueFetch {need : List Nat} : ValidKept s (issueFetch u need s) := by
  unfold issueFetch
  cases need with
  | nil => exact validKept_cache rfl
  | cons b bs =>
    refine ValidKept.trans (validKept_pending (u := u) (l := (spanOf b bs).filter fun k => isEmpty (s.blockAt u k))
      fun k mem => isValid_of_empty (List.mem_filter.mp mem).2) (validKept_cache createRecord_cache)

theorem validKept_serveEntry {e : IssueEntry} : ValidKept s (serveEntry s e) := by
  unfold serveEntry
  dsimp only
  split_ifs
  · exact validKept_cache rfl
  · exact ValidKept.trans (t := leaveIssue (fun x => decide (x = e)) s) (validKept_cache rfl) validKept_issueFetch
  · exact validKept_cache rfl

theorem validKept_serveIssue : ValidKept s (serveIssue s) := ValidKept.foldl (fun _ _ => validKept_serveEntry) _ s

theorem validKept_freeIfEmpty {id : BitVec 16} : ValidKept s (freeIfEmpty id s) := by
  unfold freeIfEmpty
  split_ifs
  · exact ValidKept.trans (validKept_cache rfl) validKept_serveIssue
  · exact validKept_cache rfl

theorem ValidKept.ready (h : ValidKept s t) (overlay : (t.unit u).overlay = (s.unit u).overlay) :
    t.ready u = s.ready u := by
  funext x
  cases x with
  | zeros => rfl
  | overlay k => simp [State.ready, overlay]
  | image b =>
    have kept := h u b
    unfold State.ready
    dsimp only
    cases first : t.blockAt u b <;> cases second : s.blockAt u b <;> simp_all

/-! ## The end of a request (R142) -/

/-- The end of the last request of an EJECTING unit is followed by its detach. -/
theorem afterRequest_detached {held : Nat} (ejecting : (z.unit u).state = .ejecting) (bound : (z.unit u).slot = some i)
    (number : z.noticeNumber = s.noticeNumber) (boots : (z.unit u).bootsLeft = (s.unit u).bootsLeft)
    (pool : z.poolFree + heldCount (z.unit u) = s.poolFree + held)
    (alone : s.fetch.issue = [] → z.fetch.issue = [] ∧ (∃ f, z = mediaOf z (s.modSlot i f)) ∧
      ∀ v, v ≠ u → z.unit v = s.unit v) :
    Detached u i (z.unit u).ejectReason held s (afterRequest u z) ∧
      ((afterRequest u z).unit u) = detachedUnit (z.unit u) ∧ ∀ j, (afterRequest u z).slot j = z.slot j := by
  have detaches : afterRequest u z = detach u z := if_pos ejecting
  rw [detaches]
  obtain ⟨unit, free, cache, records, number', frames⟩ := detach_detached bound
  refine ⟨⟨?_, free.trans pool, cache, records, by rw [number', number], fun none_ => ?_⟩, detach_unit, fun j => ?_⟩
  · rw [← boots]
    exact unit
  · obtain ⟨empty, ⟨f, frame⟩, others⟩ := alone none_
    obtain ⟨after, same⟩ := frames empty
    refine ⟨?_, fun v ne => (same v ne).trans (others v ne)⟩
    have told : z.notify (some i) (.mediaState u .detached .detached (z.unit u).ejectReason 0) = mediaOf z ((s.notify
        (some i) (.mediaState u .detached .detached (z.unit u).ejectReason 0)).modSlot i f) := by
      rw [modSlot_notify, ← notify_mediaOf, ← frame]
    rw [told] at after
    exact after
  · rw [State.slot, detach_slots, State.slot]

end Sys2Proof.Machine
end

section
/-! PROOFS. An accepted block, the data and the abort of a write, the abort of a read, and the detaches that
follow (R142, R154, R155, R167). -/

namespace Sys2Proof.Machine

open Sys2Proof

variable {s t z : State} {u v : UnitId} {i : SlotId} {b k : Nat} {c : CacheBlock} {data : Block} {id : BitVec 16}

/-! ## An accepted block (R167) -/

/-- The state once a block has been taken, before the unit's read and prime are told. -/
def blockStored (u : UnitId) (id : BitVec 16) (b : Nat) (data : Block) (s : State) : State :=
  freeIfEmpty id ((unpend id [b] (setBlock u (.valid data) s b)).countUnit u fun c =>
    { c with accepted := bump c.accepted })

theorem takeBlock_eq : takeBlock u id b data s = tellReady u (blockStored u id b data s) := rfl

theorem freeIfEmpty_counts {A : UnitId → Prop} (asks : ∀ e ∈ s.fetch.issue, A e.unit) :
    FetchCounts A s (freeIfEmpty id s) := by
  unfold freeIfEmpty
  split_ifs
  · exact FetchCounts.after (t := removeRecord id s) (serveIssue_counts asks) rfl
  · exact fetchCounts_units rfl

/-- Where no unit waits for a record, its freeing brings no fetch. -/
theorem freeIfEmpty_empty (none_ : s.fetch.issue = []) :
    freeIfEmpty id s = mediaOf (freeIfEmpty id s) s ∧ (freeIfEmpty id s).fetch.issue = [] := by
  unfold freeIfEmpty
  split_ifs
  · rw [freeRecord, serveIssue_empty (by exact none_)]
    exact ⟨rfl, none_⟩
  · exact ⟨rfl, none_⟩

theorem blockStored_move : FetchMove (fun _ => True) s (blockStored u id b data s) :=
  FetchMove.trans (setBlocks_move (bs := [b])) (unpend_move.trans
    (FetchMove.trans fetchMove_countUnit (freeIfEmpty_move fun _ _ => trivial)))

theorem blockStored_unit : (blockStored u id b data s).unit u = { s.unit u with
    counters := { (s.unit u).counters with
      accepted := bump (s.unit u).counters.accepted
      fetches := ((blockStored u id b data s).unit u).counters.fetches } } := by
  have counted : ((unpend id [b] (setBlock u (.valid data) s b)).countUnit u fun c =>
      { c with accepted := bump c.accepted }).unit u = { s.unit u with
        counters := { (s.unit u).counters with accepted := bump (s.unit u).counters.accepted } } := by
    rw [State.countUnit, modUnit_unit_same]
    rfl
  have kept := (freeIfEmpty_counts (A := fun _ => True) (id := id) (s := (unpend id [b] (setBlock u (.valid data) s b)).countUnit u
    fun c => { c with accepted := bump c.accepted }) fun _ _ => trivial).unit u
  rw [counted] at kept
  exact kept

theorem blockStored_blockAt (line : (s.line u (b / 8)).isSome = true) :
    (blockStored u id b data s).blockAt u b = .valid data := by
  refine (validKept_freeIfEmpty u b data).mpr ?_
  have stored : (setBlock u (.valid data) s b).blockAt u b = .valid data := by
    rw [setBlock_blockAt, if_pos ⟨rfl, rfl, line⟩]
  exact stored

theorem blockStored_ready (line : (s.line u (b / 8)).isSome = true) (x : Source) :
    (blockStored u id b data s).ready u x = if x = .image b then some data else s.ready u x := by
  have overlay : ((blockStored u id b data s).unit u).overlay = (s.unit u).overlay := by rw [blockStored_unit]
  cases x with
  | zeros => rfl
  | overlay k => simp [State.ready, overlay]
  | image k =>
    by_cases same : k = b
    · subst same
      rw [if_pos rfl, State.ready, blockStored_blockAt line]
    · rw [if_neg fun eq => same (by cases eq; rfl)]
      have kept : (blockStored u id b data s).ready u = (setBlock u (.valid data) s b).ready u := by
        refine ValidKept.ready (s := setBlock u (.valid data) s b) ?_ overlay
        exact ValidKept.trans (validKept_cache rfl) validKept_freeIfEmpty
      rw [kept, State.ready, State.ready, setBlock_blockAt, if_neg fun h => same h.2.1]

/-- Where no unit waits for a record, a block that is taken changes nothing but its unit, lines and records. -/
theorem blockStored_alone (none_ : s.fetch.issue = []) : blockStored u id b data s = mediaOf (blockStored u id b data s) s ∧
    (blockStored u id b data s).fetch.issue = [] ∧ ∀ v, v ≠ u → (blockStored u id b data s).unit v = s.unit v := by
  have empty : ((unpend id [b] (setBlock u (.valid data) s b)).countUnit u fun c =>
      { c with accepted := bump c.accepted }).fetch.issue = [] := none_
  obtain ⟨frame, issue⟩ := freeIfEmpty_empty (id := id) empty
  refine ⟨frame, issue, fun v ne => ?_⟩
  have kept := (freeIfEmpty_counts (A := fun _ => False) (id := id) (s := (unpend id [b] (setBlock u (.valid data) s b)).countUnit u
    fun c => { c with accepted := bump c.accepted }) (by rw [empty]; simp)).other v fun h => h
  refine kept.trans ?_
  rw [State.countUnit, modUnit_unit_ne ne]
  rfl

/-- An accepted block is taken in the state in which its station has been heard. -/
theorem exec_blockAccepted {h : Header} {e : StationId} {r : FetchRecord} {block check : BitVec 32}
    (heard : AnswerHeard h e u s) (station : (s.unit u).station = some (e, h.src))
    (record : (hear e h.port s).recordOf u id = some r) (waits : block.toNat ∈ r.waiting)
    (good : checkGood (s.unitSetup u) data check = true) :
    exec (.blockData h id block check data) s = .next (takeBlock u id block.toNat data (hear e h.port s)) := by
  refine exec_blockData_recorded heard (isForeignAnswer_eq_false.mpr (.inr station)) record ?_
  unfold takeData
  rw [if_neg (by simpa using waits), unitSetup_hear, good, if_neg (by decide)]

/-! ## A read that ends GOOD (R152) -/

/-- The state once a read has been told all of its blocks, before a detach. -/
def readEnded (i : SlotId) (u : UnitId) (lba : Nat) (xs : List Source) (images : List Nat) (ds : List Block) (s : State) :
    State := readGood i u images (touchLines u (imagesIn xs) (deliveredBlocks i u lba ds s))

/-- What a port has been told by the end of a read. -/
def readOut (lba : Nat) (ds : List Block) : List ServerOut :=
  ds.mapIdx (fun k d => .block (lba + k) d) ++ [.done .read .good]

/-- A port without a request, that has told its server some things more. -/
def portEnded (out : List ServerOut) (x : Slot) : Slot :=
  { x with port := { inFlight := none, out := x.port.out ++ out } }

section

variable {lba : Nat} {xs : List Source} {images : List Nat} {ds : List Block}

theorem readEnded_frame : readEnded i u lba xs images ds s =
    mediaOf (readEnded i u lba xs images ds s) (s.modSlot i (portEnded (readOut lba ds))) := by
  have touched := (sameBlocks_touchLines (u := u) (images := imagesIn xs) (s := deliveredBlocks i u lba ds s)).frame
  have slots : (readEnded i u lba xs images ds s).slots = (s.modSlot i (portEnded (readOut lba ds))).slots := by
    unfold readEnded readGood
    rw [endRequester_eq, touched]
    unfold setInFlight tell deliveredBlocks toldMore portEnded readOut
    simp [State.countUnit, State.modUnit, State.modSlot]
  have frame : readEnded i u lba xs images ds s =
      mediaOf (readEnded i u lba xs images ds s) { s with slots := (readEnded i u lba xs images ds s).slots } := by
    unfold readEnded readGood
    rw [endRequester_eq, touched]
    rfl
  rw [slots] at frame
  exact frame

theorem readEnded_poolFree : (readEnded i u lba xs images ds s).poolFree = s.poolFree := by
  have touched := (sameBlocks_touchLines (u := u) (images := imagesIn xs) (s := deliveredBlocks i u lba ds s)).frame
  unfold readEnded readGood
  rw [endRequester_eq, touched]
  rfl

theorem readEnded_unit : (readEnded i u lba xs images ds s).unit u = { s.unit u with
    counters := { (s.unit u).counters with
      delivered := bumpBy ds.length (s.unit u).counters.delivered
      readsGood := bump (s.unit u).counters.readsGood } } := by
  rw [readEnded, readGood_unit, sameBlocks_touchLines.unit, deliveredBlocks_unit]

theorem readEnded_unit_ne (ne : v ≠ u) : (readEnded i u lba xs images ds s).unit v = s.unit v := by
  rw [readEnded, readGood, State.countUnit, modUnit_unit_ne ne, endRequester_unit]
  have touched := (sameBlocks_touchLines (u := u) (images := imagesIn xs) (s := deliveredBlocks i u lba ds s)).unit v
  refine Eq.trans (b := (touchLines u (imagesIn xs) (deliveredBlocks i u lba ds s)).unit v) rfl (touched.trans ?_)
  rw [deliveredBlocks, State.countUnit, modUnit_unit_ne ne]
  rfl

theorem readEnded_issue (none_ : s.fetch.issue = []) : (readEnded i u lba xs images ds s).fetch.issue = [] := by
  have touched := (sameBlocks_touchLines (u := u) (images := imagesIn xs) (s := deliveredBlocks i u lba ds s)).fetch
  have kept : (setInFlight i none (tell i (.done .read .good)
      (touchLines u (imagesIn xs) (deliveredBlocks i u lba ds s)))).fetch.issue = [] := by
    refine Eq.trans (b := (touchLines u (imagesIn xs) (deliveredBlocks i u lba ds s)).fetch.issue) rfl ?_
    rw [touched]
    exact none_
  rw [readEnded, readGood, State.countUnit, modUnit_fetch, endRequester_eq]
  dsimp only
  rw [kept]
  rfl

end

end Sys2Proof.Machine
end

section
/-! PROOFS. The data and the abort of a write, the abort of a read, and the detaches that follow (R142, R154,
R155, R167). -/

namespace Sys2Proof.Machine

open Sys2Proof

variable {s t z : State} {u v : UnitId} {i : SlotId} {b k : Nat} {data : Block} {id : BitVec 16} {r : PortRequest}

/-- An aborted request, before a detach. -/
def abortEnded (i : SlotId) (u : UnitId) (r : PortRequest) (s : State) : State :=
  (dropRequest u r (setInFlight i none s)).countUnit u fun c => { c with aborts := bump c.aborts }

theorem exec_abort (bound : s.unitOf i = some u) (flight : (s.slot i).port.inFlight = some r) :
    exec (.serverAbort i) s = .next (afterRequest u (abortEnded i u r s)) := by
  refine congrArg Host.Outcome.next ?_
  rw [flight, bound]
  rfl

theorem abortEnded_write {lba left : Nat} : abortEnded i u (.write lba left) s = { (s.modSlot i fun x =>
      { x with port := { x.port with inFlight := none } }).modUnit u (fun m => { m with
        reserved := 0
        counters := { m.counters with aborts := bump m.counters.aborts } }) with
    poolFree := s.poolFree + (s.unit u).reserved } := by
  unfold abortEnded dropRequest returnReservation State.countUnit
  dsimp only
  have pool (y : State) (n : Nat) (f : MediaUnit → MediaUnit) :
      ({ y with poolFree := n } : State).modUnit u f = { y.modUnit u f with poolFree := n } := rfl
  rw [pool, modUnit_modUnit]
  rfl

theorem abortEnded_read {lba : Nat} {rest : List Source} {images : List Nat} :
    abortEnded i u (.read lba rest images) s = { (s.modSlot i fun x =>
      { x with port := { x.port with inFlight := none } }).modUnit u (fun m => { m with
        counters := { m.counters with aborts := bump m.counters.aborts } }) with
    cache := unpinned u (groupsOf images) s.cache
    fetch := { s.fetch with issue := s.fetch.issue.filter fun e =>
      !(decide (e.unit = u) && decide (e.prime = false)) } } := by
  unfold abortEnded dropRequest
  dsimp only
  rw [endRequester_pins]
  rfl

/-- What an abort leaves of a reservation: that of a write is given back. -/
def leftReserved (r : PortRequest) (n : Nat) : Nat :=
  match r with
  | .read _ _ _ => n
  | .write _ _ => 0

/-- What an abort leaves of the unit, the pool and the slots. -/
theorem abortEnded_leaves : let z := abortEnded i u r s
    z = mediaOf z (s.modSlot i (portEnded [])) ∧
      z.poolFree + heldCount (z.unit u) = s.poolFree + heldCount (s.unit u) ∧
      z.unit u = { s.unit u with
        reserved := leftReserved r (s.unit u).reserved
        counters := { (s.unit u).counters with aborts := bump (s.unit u).counters.aborts } } ∧
      (∀ v, v ≠ u → z.unit v = s.unit v) ∧ (s.fetch.issue = [] → z.fetch.issue = []) := by
  have ended : (s.modSlot i fun x => { x with port := { x.port with inFlight := none } }) =
      s.modSlot i (portEnded []) := modSlot_congr (by simp [portEnded])
  intro z
  cases r with
  | read lba rest images =>
    have eq : z = _ := abortEnded_read
    rw [ended] at eq
    rw [eq]
    refine ⟨rfl, ?_, ?_, fun v ne => ?_, fun none_ => ?_⟩
    · show s.poolFree + heldCount (((s.modSlot i (portEnded [])).modUnit u _).unit u) = _
      rw [modUnit_unit_same]
      rfl
    · show ((s.modSlot i (portEnded [])).modUnit u _).unit u = _
      rw [modUnit_unit_same]
      rfl
    · show ((s.modSlot i (portEnded [])).modUnit u _).unit v = _
      rw [modUnit_unit_ne ne]
      rfl
    · dsimp only
      rw [none_]
      rfl
  | write lba left =>
    have eq : z = _ := abortEnded_write
    rw [ended] at eq
    rw [eq]
    refine ⟨rfl, ?_, ?_, fun v ne => ?_, fun none_ => none_⟩
    · show s.poolFree + (s.unit u).reserved + heldCount (((s.modSlot i (portEnded [])).modUnit u _).unit u) = _
      rw [modUnit_unit_same]
      simp [heldCount]
      omega
    · show ((s.modSlot i (portEnded [])).modUnit u _).unit u = _
      rw [modUnit_unit_same]
      rfl
    · show ((s.modSlot i (portEnded [])).modUnit u _).unit v = _
      rw [modUnit_unit_ne ne]
      rfl

/-! ## The data of a write (R154) -/

theorem exec_writeData {lba left : Nat} (bound : s.unitOf i = some u)
    (flight : (s.slot i).port.inFlight = some (.write lba left)) :
    exec (.storageWriteDataBlock i data) s = .next (if left ≤ 1 then finishWrite i u (s.modUnit u (storeBlock lba data))
      else setInFlight i (some (.write (lba + 1) (left - 1))) (s.modUnit u (storeBlock lba data))) := by
  refine congrArg Host.Outcome.next ?_
  rw [flight, bound]

/-- A unit whose write has ended with a block. -/
def writeStored (lba : Nat) (data : Block) (m : MediaUnit) : MediaUnit :=
  { storeBlock lba data m with counters := { (storeBlock lba data m).counters with
      writesGood := bump m.counters.writesGood } }

/-- The state once a write has ended, before a detach. -/
def writeEnded (i : SlotId) (u : UnitId) (lba : Nat) (data : Block) (s : State) : State :=
  (s.modSlot i (portEnded [.done .write .good])).modUnit u (writeStored lba data)

theorem finishWrite_stored {lba : Nat} : finishWrite i u (s.modUnit u (storeBlock lba data)) =
    afterRequest u (writeEnded i u lba data s) := by
  unfold finishWrite setInFlight tell State.countUnit writeEnded
  rw [modSlot_modSlot]
  refine congrArg (afterRequest u) ?_
  have swap (y : State) (f : MediaUnit → MediaUnit) (g : Slot → Slot) :
      (y.modUnit u f).modSlot i g = (y.modSlot i g).modUnit u f := rfl
  rw [swap, modUnit_modUnit]
  rfl

theorem writeEnded_unit {lba : Nat} : (writeEnded i u lba data s).unit u = writeStored lba data (s.unit u) := by
  rw [writeEnded, modUnit_unit_same]
  rfl

theorem writeEnded_unit_ne {lba : Nat} (ne : v ≠ u) : (writeEnded i u lba data s).unit v = s.unit v := by
  rw [writeEnded, modUnit_unit_ne ne]
  rfl

theorem writeEnded_slot {lba : Nat} {j : SlotId} : (writeEnded i u lba data s).slot j =
    if j = i then portEnded [.done .write .good] (s.slot i) else s.slot j := by
  rw [writeEnded, modUnit_slot, modSlot_slot]
  split_ifs with same
  · rw [same]
  · rfl

/-- The slot after a port without request has told its server some things. -/
theorem portEnded_slot {out : List ServerOut} {j : SlotId} : (s.modSlot i (portEnded out)).slot j =
    if j = i then { s.slot i with port := { inFlight := none, out := (s.slot i).port.out ++ out } } else s.slot j := by
  rw [modSlot_slot]
  split_ifs with same
  · rw [same]
    rfl
  · rfl

/-- A block of a write in flight, of a unit that presents. -/
theorem writeData_stored {lba left : Nat} (bound : s.unitOf i = some u) (presents : (s.unit u).state = .presenting)
    (flight : (s.slot i).port.inFlight = some (.write lba left)) (some_ : 1 ≤ left) :
    ∃ t, exec (.storageWriteDataBlock i data) s = .next t ∧
      indexGet (t.unit u).overlay lba = some data ∧
      (∀ k, k ≠ lba → indexGet (t.unit u).overlay k = indexGet (s.unit u).overlay k) ∧
      (t.unit u).reserved = (if (indexGet (s.unit u).overlay lba).isSome then (s.unit u).reserved
        else (s.unit u).reserved - 1) ∧
      (t.unit u).counters.written = bump (s.unit u).counters.written ∧
      (t.slot i).port = (if left = 1 then
          { inFlight := none, out := (s.slot i).port.out ++ [.done .write .good] }
        else { (s.slot i).port with inFlight := some (.write (lba + 1) (left - 1)) }) ∧
      t = { s with slots := t.slots, units := t.units } ∧ (∀ j, j ≠ i → t.slot j = s.slot j) ∧
      ∀ v, v ≠ u → t.unit v = s.unit v := by
  rw [exec_writeData bound flight, finishWrite_stored, afterRequest_presenting (by rw [writeEnded_unit]; exact presents)]
  by_cases last : left = 1
  · rw [if_pos (by omega)]
    refine ⟨_, rfl, ?_, fun k ne => ?_, ?_, ?_, ?_, rfl, fun j ne => ?_, fun v ne => writeEnded_unit_ne ne⟩
    · rw [writeEnded_unit]
      exact indexGet_set_same
    · rw [writeEnded_unit]
      exact indexGet_set_ne ne
    · rw [writeEnded_unit]
      rfl
    · rw [writeEnded_unit]
      rfl
    · rw [writeEnded_slot, if_pos rfl, if_pos last]
      rfl
    · rw [writeEnded_slot, if_neg ne]
  · rw [if_neg (by omega)]
    have unit : (setInFlight i (some (.write (lba + 1) (left - 1))) (s.modUnit u (storeBlock lba data))).unit u =
        storeBlock lba data (s.unit u) := modUnit_unit_same
    refine ⟨_, rfl, ?_, fun k ne => ?_, ?_, ?_, ?_, rfl, fun j ne => ?_, fun v ne => ?_⟩
    · rw [unit]
      exact indexGet_set_same
    · rw [unit]
      exact indexGet_set_ne ne
    · rw [unit]
      rfl
    · rw [unit]
      rfl
    · rw [if_neg last, setInFlight, modSlot_slot_same]
      rfl
    · exact modSlot_slot_ne ne
    · exact modUnit_unit_ne ne

/-- A command ends the last request of an EJECTING unit, whose detach follows. -/
def EndsDetached (u : UnitId) (i : SlotId) (cmd : Instr) (out : List ServerOut) (held : Nat) (s s1 : State)
    (counters : UnitCounters → Prop) : Prop :=
  ∃ t, exec cmd s = .next t ∧ Detached u i (s.unit u).ejectReason held s1 t ∧ counters (t.unit u).counters ∧
    ∀ j, t.slot j = if j = i then { s.slot i with port := { inFlight := none, out := (s.slot i).port.out ++ out } }
      else s.slot j

section

variable (bound : s.unitOf i = some u) (ejecting : (s.unit u).state = .ejecting)

include bound ejecting

theorem writeData_detaches {lba : Nat} (flight : (s.slot i).port.inFlight = some (.write lba 1)) :
    EndsDetached u i (.storageWriteDataBlock i data) [.done .write .good]
      ((indexSet (s.unit u).overlay lba data).length +
        if (indexGet (s.unit u).overlay lba).isSome then (s.unit u).reserved else (s.unit u).reserved - 1) s s
      fun c => c = { (s.unit u).counters with
        written := bump (s.unit u).counters.written, writesGood := bump (s.unit u).counters.writesGood } := by
  set m := s.unit u
  have slot : (s.unit u).slot = some i := unitOf_eq_some bound
  have after := afterRequest_detached (i := i) (u := u) (z := writeEnded i u lba data s) (s := s)
    (held := (indexSet m.overlay lba data).length + if (indexGet m.overlay lba).isSome then m.reserved else m.reserved - 1)
    (by rw [writeEnded_unit]; exact ejecting) (by rw [writeEnded_unit]; exact slot) rfl (by rw [writeEnded_unit]; rfl)
    (by rw [writeEnded_unit]; rfl) fun none_ => ⟨none_, ⟨portEnded [.done .write .good], rfl⟩, fun v ne => writeEnded_unit_ne ne⟩
  rw [writeEnded_unit] at after
  obtain ⟨detached, unit, slots⟩ := after
  refine ⟨_, (exec_writeData bound flight).trans (congrArg Host.Outcome.next ((if_pos le_rfl).trans finishWrite_stored)),
    detached, by rw [unit]; rfl, fun j => ?_⟩
  rw [slots, writeEnded_slot]
  rfl

theorem abort_detaches (flight : (s.slot i).port.inFlight = some r) :
    EndsDetached u i (.serverAbort i) [] (heldCount (s.unit u)) s s
      fun c => c = { (s.unit u).counters with aborts := bump (s.unit u).counters.aborts } := by
  set m := s.unit u
  have slot : (s.unit u).slot = some i := unitOf_eq_some bound
  obtain ⟨frame, pool, unit, others, issue⟩ := abortEnded_leaves (i := i) (u := u) (r := r) (s := s)
  have after := afterRequest_detached (i := i) (u := u) (z := abortEnded i u r s) (s := s) (held := heldCount m)
    (by rw [unit]; exact ejecting) (by rw [unit]; exact slot) (by rw [frame]; rfl) (by rw [unit]) pool
    fun none_ => ⟨issue none_, ⟨_, frame⟩, others⟩
  obtain ⟨detached, unit', slots⟩ := after
  have reason : ((abortEnded i u r s).unit u).ejectReason = m.ejectReason := by rw [unit]
  rw [reason] at detached
  refine ⟨_, exec_abort bound flight, detached, by rw [unit', unit]; rfl, fun j => ?_⟩
  rw [slots, frame, slot_mediaOf, portEnded_slot]

theorem blockData_detaches {h : Header} {e : StationId} {check block : BitVec 32} {q : FetchRecord} {lba : Nat}
    {rest : List Source} {images : List Nat} {ds : List Block} (heard : AnswerHeard h e u s)
    (station : (s.unit u).station = some (e, h.src)) (record : (hear e h.port s).recordOf u id = some q)
    (waits : block.toNat ∈ q.waiting) (good : checkGood (s.unitSetup u) data check = true)
    (line : (s.line u (block.toNat / 8)).isSome = true)
    (flight : (s.slot i).port.inFlight = some (.read lba rest images))
    (ready : rest.map (fun x => if x = .image block.toNat then some data else s.ready u x) = ds.map some) :
    EndsDetached u i (.blockData h id block check data)
      (ds.mapIdx (fun k d => ServerOut.block (lba + k) d) ++ [.done .read .good]) (heldCount (s.unit u)) s
      (hear e h.port s) fun c => c.readsGood = bump (s.unit u).counters.readsGood := by
  set m := s.unit u
  have slot : (s.unit u).slot = some i := unitOf_eq_some bound
  set s1 := hear e h.port s with heardState
  set z := blockStored u id block.toNat data s1 with stored
  have unit1 : s1.unit u = { m with counters := (s1.unit u).counters } := hear_unit
  have good1 : (s1.unit u).counters.readsGood = m.counters.readsGood := by
    rw [hear_counts.unit u]
  have unit := blockStored_unit (u := u) (id := id) (b := block.toNat) (data := data) (s := s1)
  rw [← stored] at unit
  have line1 : (s1.line u (block.toNat / 8)).isSome = true := by
    rw [State.line, heardState, hear_cache]
    exact line
  have slots (j : SlotId) : z.slot j = s.slot j := (blockStored_move.slot j).trans hear_slot
  have ready1 : rest.map (z.ready u) = ds.map some := by
    rw [← ready]
    refine List.map_congr_left fun x _ => ?_
    rw [stored, blockStored_ready line1]
    have same : s1.ready u = s.ready u := ready_congr (fun b => by
      rw [State.blockAt, State.line, heardState, hear_cache]
      rfl) (by rw [unit1])
    rw [same]
  have boundZ : (z.unit u).slot = some i := by
    rw [unit, unit1]
    exact slot
  have pumped : pumpRead i u z = afterRequest u (readEnded i u lba rest images ds z) :=
    pumpRead_whole (by rw [slots]; exact flight) ready1
  have frame := readEnded_frame (i := i) (u := u) (lba := lba) (xs := rest) (images := images) (ds := ds) (s := z)
  have frameZ : z = { s1 with
      units := z.units, cache := z.cache, fetch := z.fetch, uplink := z.uplink, chain := z.chain } := blockStored_move.frame
  have unitX := readEnded_unit (i := i) (u := u) (lba := lba) (xs := rest) (images := images) (ds := ds) (s := z)
  have after := afterRequest_detached (i := i) (u := u) (z := readEnded i u lba rest images ds z) (s := s1)
    (held := heldCount m) (by rw [unitX, unit, unit1]; exact ejecting) (by rw [unitX]; exact boundZ)
    (by rw [frame]; exact show z.noticeNumber = s1.noticeNumber by rw [frameZ]) (by rw [unitX, unit])
    (by
      have pool : (readEnded i u lba rest images ds z).poolFree = s1.poolFree := by
        rw [readEnded_poolFree, frameZ]
      rw [pool, unitX, unit, unit1]
      rfl)
    fun none_ => by
      obtain ⟨alone, issue, others⟩ := blockStored_alone (u := u) (id := id) (b := block.toNat) (data := data) none_
      refine ⟨readEnded_issue issue, ⟨portEnded (readOut lba ds), ?_⟩, fun v ne =>
        (readEnded_unit_ne ne).trans (others v ne)⟩
      rw [← stored] at alone
      have moved : mediaOf (readEnded i u lba rest images ds z) (z.modSlot i (portEnded (readOut lba ds))) =
          mediaOf (readEnded i u lba rest images ds z) ((mediaOf z s1).modSlot i (portEnded (readOut lba ds))) :=
        congrArg (fun y : State => mediaOf (readEnded i u lba rest images ds z)
          (y.modSlot i (portEnded (readOut lba ds)))) alone
      exact frame.trans moved
  obtain ⟨detached, unitD, slotsD⟩ := after
  rw [show ((readEnded i u lba rest images ds z).unit u).ejectReason = m.ejectReason from by
    rw [unitX, unit, unit1]] at detached
  have taken : exec (.blockData h id block check data) s =
      .next (afterRequest u (readEnded i u lba rest images ds z)) := by
    refine (exec_blockAccepted heard station record waits good).trans (congrArg Host.Outcome.next ?_)
    rw [takeBlock_eq, ← stored]
    unfold tellReady
    rw [boundZ]
    dsimp only
    rw [pumped]
    refine if_neg fun running => ?_
    rw [unitD] at running
    cases running.1
  refine ⟨_, taken, detached, ?_, fun j => ?_⟩
  · rw [unitD, unitX, unit]
    exact congrArg bump good1
  · rw [slotsD, frame, slot_mediaOf, portEnded_slot, slots, slots]
    rfl

end

/-- Settles O43. -/
theorem writeDataAndAborts : Obligations.WriteDataAndAborts := by
  unfold Obligations.WriteDataAndAborts
  intro i u s bound
  refine ⟨fun presents => ⟨fun lba left data flight some_ => writeData_stored bound presents flight some_,
    fun lba left flight => ?_, fun lba rest images flight => ?_⟩, fun ejecting =>
    ⟨fun lba data flight => writeData_detaches bound ejecting flight,
      fun r flight => abort_detaches bound ejecting flight,
      fun h e id check block data r lba rest images ds heard station record waits good line flight ready =>
        blockData_detaches bound ejecting heard station record waits good line flight ready⟩⟩
  · obtain ⟨-, -, unit, -⟩ := abortEnded_leaves (i := i) (u := u) (r := .write lba left) (s := s)
    rw [exec_abort bound flight, afterRequest_presenting (by rw [unit]; exact presents), abortEnded_write]
  · obtain ⟨frame, -, unit, -⟩ := abortEnded_leaves (i := i) (u := u) (r := .read lba rest images) (s := s)
    refine ⟨_, exec_abort bound flight, ?_⟩
    rw [afterRequest_presenting (by rw [unit]; exact presents)]
    refine ⟨by rw [abortEnded_read], ?_, by rw [unit], (by rw [abortEnded_read]; rfl)⟩
    rw [frame, slot_mediaOf, modSlot_slot_same]
    simp [portEnded]
end Sys2Proof.Machine
end

section
/-! PROOFS. The end of a running prime, the end of a read that fails, and what the sequencer makes of them
beside the storage port of its slot (R113, R156, R158, R170). -/

namespace Sys2Proof.Machine

open Sys2Proof

variable {s t z : State} {u v : UnitId} {i : SlotId} {r : SeqRecord} {good : Bool}

/-! ## The sequencer beside the storage port -/

/-- A slot with another state of its storage port. -/
def withPort (p : StoragePort) (x : Slot) : Slot := { x with port := p }

section

variable {p : StoragePort} {g : GateOutcome}

theorem finished_withPort : finished i r (s.modSlot i (withPort p)) = (finished i r s).modSlot i (withPort p) := by
  unfold finished
  rw [modSlot_slot_same, modSlot_modSlot, modSlot_notify, modSlot_modSlot]
  rfl

theorem haltedNow_withPort {why : HaltReason} :
    haltedNow i why r (s.modSlot i (withPort p)) = (haltedNow i why r s).modSlot i (withPort p) := by
  unfold haltedNow
  rw [modSlot_slot_same, modSlot_modSlot, modSlot_notify, modSlot_modSlot]
  rfl

theorem rstReleased_withPort : rstReleased i (s.modSlot i (withPort p)) = (rstReleased i s).modSlot i (withPort p) := by
  unfold rstReleased bootNotice
  dsimp only
  rw [modSlot_slot_same]
  by_cases boots : (s.slot i).record.observed = .on ∧ (s.slot i).record.resetWhileOn = true
  · rw [if_pos (by exact boots), if_pos boots, modSlot_notify, modSlot_modSlot, modSlot_modSlot]
    rfl
  · rw [if_neg (by exact boots), if_neg boots, modSlot_modSlot, modSlot_modSlot]
    rfl

theorem gatePassed_withPort : gatePassed i g r (s.modSlot i (withPort p)) = (gatePassed i g r s).modSlot i (withPort p) := by
  unfold gatePassed
  split_ifs
  · rw [rstReleased_withPort, finished_withPort]
  · rw [modSlot_modSlot, modSlot_modSlot]
    rfl

theorem gateFailed_withPort : gateFailed i r (s.modSlot i (withPort p)) = (gateFailed i r s).modSlot i (withPort p) := by
  unfold gateFailed
  rw [show (s.modSlot i (withPort p)).profile r.profile = s.profile r.profile from rfl]
  split_ifs
  · rw [rstReleased_withPort, haltedNow_withPort]
  · rw [haltedNow_withPort]
  · rw [gatePassed_withPort]

theorem gateTold_withPort : gateTold i (s.modSlot i (withPort p)) = (gateTold i s).modSlot i (withPort p) := by
  have seq : ((s.modSlot i (withPort p)).slot i).seq = (s.slot i).seq := by
    rw [modSlot_slot_same]
    rfl
  by_cases waits : ∃ r, (s.slot i).seq = { state := .waitGate, record := some r }
  · obtain ⟨r, waiting⟩ := waits
    unfold gateTold
    rw [seq, waiting]
    exact gateFailed_withPort
  · have deaf (z : State) (same : (z.slot i).seq = (s.slot i).seq) : gateTold i z = z := by
      unfold gateTold
      split
      · next r waiting => exact absurd ⟨r, same.symm.trans waiting⟩ waits
      · rfl
    rw [deaf _ seq, deaf s rfl]

end

/-! ## What a waiting GATE rests on -/

/-- The port of a slot, its units and the notices sent take no part in the wait of its GATE. -/
theorem WaitsAtGate.of (waits : WaitsAtGate i r s) (slot : ∃ p, t.slot i = withPort p (s.slot i))
    (inrush : t.inrush = s.inrush) (tables : t.tables = s.tables) : WaitsAtGate i r t := by
  obtain ⟨p, slot⟩ := slot
  unfold WaitsAtGate at waits ⊢
  rw [slot, waitingSlots, inrush, State.profile, tables]
  exact waits

theorem BootsFree.of (free : BootsFree i s) (slot : ∀ v, (t.unit v).slot = (s.unit v).slot)
    (state : ∀ v, (t.unit v).state = .presenting → (s.unit v).state = .presenting) (tables : t.tables = s.tables) :
    BootsFree i t := by
  intro v atSlot presents
  have same : t.unitOf i = s.unitOf i := by
    unfold State.unitOf
    exact congrArg (fun p => (List.finRange 4).find? p) (funext fun v => congrArg (fun x => decide (x = some i)) (slot v))
  rw [State.unitSetup, tables]
  exact free v (same.symm.trans atSlot) (state v presents)

/-! ## The end of a prime (R156) -/

/-- A unit whose prime has ended. -/
def primedUnit (good : Bool) (m : MediaUnit) : MediaUnit :=
  { m with prime := if good then .done else .failed, primeImages := [] }

/-- A prime has ended, and nobody has heard of it. -/
def primeEnded (u : UnitId) (good : Bool) (s : State) : State :=
  (endRequester u true (s.unit u).primeImages s).modUnit u (primedUnit good)

theorem primeEnded_frame : primeEnded u good s = mediaOf (primeEnded u good s) s := by
  unfold primeEnded
  rw [endRequester_eq]
  rfl

theorem primeEnded_poolFree : (primeEnded u good s).poolFree = s.poolFree := by
  unfold primeEnded
  rw [endRequester_eq]
  rfl

theorem primeEnded_unit : (primeEnded u good s).unit u = primedUnit good (s.unit u) := by
  rw [primeEnded, modUnit_unit_same, endRequester_unit]

theorem primeEnded_unit_ne (ne : v ≠ u) : (primeEnded u good s).unit v = s.unit v := by
  rw [primeEnded, modUnit_unit_ne ne, endRequester_unit]

theorem primeEnded_records : (primeEnded u good s).fetch.records = s.fetch.records := by
  rw [primeEnded, modUnit_fetch, endRequester_records]

theorem primeEnded_issue (none_ : s.fetch.issue = []) : (primeEnded u good s).fetch.issue = [] := by
  rw [primeEnded, modUnit_fetch, endRequester_eq]
  simp [none_]

theorem sameBlocks_endRequester {prime : Bool} {images : List Nat} :
    (endRequester u prime images s).blockAt v = s.blockAt v := by
  have pins : SameBlocks s ((groupsOf images).foldl
      (fun s g => s.modLine u g fun l => { l with pins := l.pins - 1 }) s) :=
    .foldl (f := fun s g => s.modLine u g fun l => { l with pins := l.pins - 1 })
      (fun _ _ => sameBlocks_modLine fun _ => ⟨rfl, rfl, rfl⟩) _ s
  funext b
  exact pins.blockAt v b

theorem primeEnded_blockAt : (primeEnded u good s).blockAt v = s.blockAt v :=
  sameBlocks_endRequester (prime := true)

/-- The notice of a prime's end. -/
def primeNotice (u : UnitId) (i : SlotId) (good : Bool) (s : State) : State :=
  s.notify (some i) (.mediaState u (s.unit u).state (if good then .primed else .primeFailed) none (heldCount (s.unit u)))

theorem endPrime_reported (bound : (s.unit u).slot = some i) :
    endPrime u good s = gateReport i good (mediaOf (primeEnded u good s) (primeNotice u i good s)) := by
  have ended : endPrime u good s = reportPrime u good (primeEnded u good s) := rfl
  rw [ended, reportPrime, primeEnded_unit]
  dsimp only [primedUnit]
  rw [bound]
  dsimp only
  rw [mediaNotice, primeEnded_unit, primeNotice, ← notify_mediaOf, ← primeEnded_frame]
  rfl

/-- A prime whose end no GATE waits for. -/
theorem endPrime_unheard (bound : (s.unit u).slot = some i) (idle : (s.slot i).seq.state ≠ .waitGate) :
    endPrime u good s = mediaOf (primeEnded u good s) (primeNotice u i good s) := by
  rw [endPrime_reported bound, gateReport, if_neg]
  rw [slot_mediaOf, primeNotice, notify_slot]
  exact idle

theorem waitsAtGate_primeNotice (waits : WaitsAtGate i r s) :
    WaitsAtGate i r (mediaOf (primeEnded u good s) (primeNotice u i good s)) :=
  WaitsAtGate.of waits ⟨(s.slot i).port, notify_slot⟩ notify_inrush notify_tables

theorem bootsFree_primeNotice (free : BootsFree i s) :
    BootsFree i (mediaOf (primeEnded u good s) (primeNotice u i good s)) := by
  have kept (v : UnitId) : ((primeEnded u good s).unit v).slot = (s.unit v).slot ∧
      ((primeEnded u good s).unit v).state = (s.unit v).state := by
    by_cases same : v = u
    · rw [same, primeEnded_unit]
      exact ⟨rfl, rfl⟩
    · rw [primeEnded_unit_ne same]
      exact ⟨rfl, rfl⟩
  exact BootsFree.of free (fun v => (kept v).1) (fun v presents => (kept v).2.symm.trans presents) notify_tables

/-- A prime that is DONE lets the GATE go on that waits for it. -/
theorem endPrime_passed (bound : (s.unit u).slot = some i) (waits : WaitsAtGate i r s) (free : BootsFree i s) :
    endPrime u true s = mediaOf (primeEnded u true s) (gatePassed i .primed r (primeNotice u i true s)) := by
  rw [endPrime_reported bound, gateReport_passed (waitsAtGate_primeNotice waits) (bootsFree_primeNotice free),
    gatePassed_mediaOf]

/-- A prime that has FAILED is told to the GATE that may wait for it. -/
theorem endPrime_failed (bound : (s.unit u).slot = some i)
    (known : (s.slot i).seq.state = .waitGate → (∃ r, WaitsAtGate i r s) ∧ BootsFree i s) :
    endPrime u false s = mediaOf (primeEnded u false s) (gateTold i (primeNotice u i false s)) := by
  have same : ((mediaOf (primeEnded u false s) (primeNotice u i false s)).slot i).seq.state = (s.slot i).seq.state := by
    rw [slot_mediaOf, primeNotice, notify_slot]
  rw [endPrime_reported bound, gateReport_told, gateTold_mediaOf]
  · intro waiting
    obtain ⟨⟨r, waits⟩, -⟩ := known (same.symm.trans waiting)
    exact ⟨r, waitsAtGate_primeNotice waits⟩
  · exact fun waiting => bootsFree_primeNotice (known (same.symm.trans waiting)).2

/-! ## A read that fails (R170) -/

/-- A read in flight on the port of a slot waits on one of some blocks. -/
def awaitsRead (x : Slot) (bs : List Nat) : Bool :=
  match x.port.inFlight with
  | some (.read _ rest _) => (imagesIn rest).any bs.contains
  | _ => false

/-- The port of a slot once some blocks have failed. -/
def portFailed (x : Slot) (bs : List Nat) : StoragePort :=
  if awaitsRead x bs then { inFlight := none, out := x.port.out ++ [.done .read .mediumError] } else x.port

/-- A read has failed, before a detach. -/
def readFailed (i : SlotId) (u : UnitId) (images : List Nat) (s : State) : State :=
  (endRequester u false images (setInFlight i none (tell i (.done .read .mediumError) s))).countUnit u
    fun c => { c with mediaErrors := bump c.mediaErrors }

theorem finishRead_failed {images : List Nat} :
    finishRead i u images .mediumError s = afterRequest u (readFailed i u images s) := rfl

/-- A change of units, lines and the Issue Queue, and of the storage port of slot `i`, in which unit `u` keeps
all but its count of failed reads. -/
structure ReadEnds (u : UnitId) (i : SlotId) (p : StoragePort) (s t : State) : Prop where
  frame : t = mediaOf t (s.modSlot i (withPort p))
  poolFree : t.poolFree = s.poolFree
  unit : t.unit u = { s.unit u with
    counters := { (s.unit u).counters with mediaErrors := (t.unit u).counters.mediaErrors } }
  others : ∀ v, v ≠ u → t.unit v = s.unit v
  records : t.fetch.records = s.fetch.records
  issue : s.fetch.issue = [] → t.fetch.issue = []

theorem readEnds_refl : ReadEnds u i (s.slot i).port s s :=
  ⟨by rw [modSlot_self (f := withPort (s.slot i).port) rfl]; rfl, rfl, rfl, fun _ _ => rfl, rfl, fun h => h⟩

theorem readFailed_ends {images : List Nat} : ReadEnds u i
    { inFlight := none, out := (s.slot i).port.out ++ [.done .read .mediumError] } s (readFailed i u images s) := by
  have told : setInFlight i none (tell i (.done .read .mediumError) s) = s.modSlot i
      (withPort { inFlight := none, out := (s.slot i).port.out ++ [.done .read .mediumError] }) := by
    unfold setInFlight tell
    rw [modSlot_modSlot]
    exact modSlot_congr rfl
  have unit : (readFailed i u images s).unit u = { s.unit u with counters :=
      { (s.unit u).counters with mediaErrors := bump (s.unit u).counters.mediaErrors } } := by
    rw [readFailed, State.countUnit, modUnit_unit_same, endRequester_unit]
    rfl
  refine ⟨?_, ?_, ?_, fun v ne => ?_, ?_, fun none_ => ?_⟩
  · unfold readFailed
    rw [told, endRequester_eq]
    rfl
  · unfold readFailed
    rw [endRequester_eq]
    rfl
  · rw [unit]
  · rw [readFailed, State.countUnit, modUnit_unit_ne ne, endRequester_unit]
    rfl
  · rw [readFailed, State.countUnit, modUnit_fetch, endRequester_records]
    rfl
  · rw [readFailed, State.countUnit, modUnit_fetch, endRequester_eq]
    have kept : (setInFlight i none (tell i (.done .read .mediumError) s)).fetch.issue = [] := none_
    simp [kept]

/-- The read that waits on one of some blocks ends; the unit presents. -/
theorem failRead_ends {bs : List Nat} (bound : (s.unit u).slot = some i) (presents : (s.unit u).state = .presenting) :
    ReadEnds u i (portFailed (s.slot i) bs) s (failRead u bs s) := by
  unfold failRead portFailed awaitsRead
  rw [bound]
  dsimp only
  cases flight : (s.slot i).port.inFlight with
  | none => exact readEnds_refl
  | some q =>
    cases q with
    | write lba left => exact readEnds_refl
    | read lba rest images =>
      dsimp only
      split_ifs with waits
      · have ends := readFailed_ends (s := s) (u := u) (i := i) (images := images)
        rw [finishRead_failed, afterRequest_presenting (by rw [ends.unit]; exact presents)]
        exact ends
      · exact readEnds_refl

/-- The last read of an EJECTING unit ends, and its detach follows. -/
theorem failRead_detaches {bs : List Nat} (bound : (s.unit u).slot = some i) (waits : awaitsRead (s.slot i) bs = true) :
    ∃ z, ReadEnds u i (portFailed (s.slot i) bs) s z ∧ failRead u bs s = afterRequest u z := by
  unfold failRead portFailed
  rw [if_pos waits, bound]
  dsimp only
  unfold awaitsRead at waits
  cases flight : (s.slot i).port.inFlight with
  | none => rw [flight] at waits; cases waits
  | some q =>
    rw [flight] at waits
    cases q with
    | write lba left => cases waits
    | read lba rest images =>
      dsimp only
      exact ⟨_, readFailed_ends, (if_pos waits).trans finishRead_failed⟩

end Sys2Proof.Machine
end

section
/-! PROOFS. Blocks that fail, with the read, the prime and the GATE that wait for them (R142, R168 to R170,
R174). -/

namespace Sys2Proof.Machine

open Sys2Proof

variable {s t z y : State} {u v : UnitId} {i : SlotId} {r : FetchRecord} {id : BitVec 16} {bs : List Nat} {c : CacheBlock}

/-! ## Blocks of lines, in a row -/

theorem setBlocks_lines : ∀ (l : List Nat) (s : State),
    l.foldl (setBlock u c) s = { s with cache := (l.foldl (setBlock u c) s).cache }
  | [], _ => rfl
  | k :: l, s => by
    rw [List.foldl_cons, setBlocks_lines l]
    rfl

theorem setBlock_empties {j k : Nat} (empty : s.blockAt u k = .empty ∨ k = j) : (setBlock u .empty s j).blockAt u k = .empty := by
  rw [setBlock_blockAt]
  split_ifs with held
  · rfl
  · rcases empty with empty | rfl
    · exact empty
    · have gone : s.line u (k / 8) = none := by
        by_contra line
        exact held ⟨rfl, rfl, Option.isSome_iff_ne_none.mpr line⟩
      rw [State.blockAt, gone]

theorem setBlocks_empty {k : Nat} : ∀ {l : List Nat} {s : State}, s.blockAt u k = .empty ∨ k ∈ l →
    (l.foldl (setBlock u .empty) s).blockAt u k = .empty
  | [], _, empty => empty.resolve_right List.not_mem_nil
  | j :: l, s, empty => by
    refine setBlocks_empty (l := l) (s := setBlock u .empty s j) ?_
    rcases empty with empty | mem
    · exact .inl (setBlock_empties (.inl empty))
    · rcases List.mem_cons.mp mem with rfl | mem
      · exact .inl (setBlock_empties (.inr rfl))
      · exact .inr mem

/-! ## Blocks that a media station cannot bring are marked (R168, R169) -/

/-- Some blocks of unit `u` have been marked, and their record cleared of them. -/
structure Marked (u : UnitId) (n : Nat) (s t : State) : Prop where
  frame : t = mediaOf t s
  poolFree : t.poolFree = s.poolFree
  unit : t.unit u = { s.unit u with
    counters := { (s.unit u).counters with failed := bumpBy n (s.unit u).counters.failed } }
  others : ∀ v, v ≠ u → t.unit v = s.unit v
  issue : t.fetch.issue = s.fetch.issue

theorem markFailed_marked : Marked u bs.length s (markFailed u bs s) where
  frame := by
    unfold markFailed
    rw [setBlocks_lines]
    rfl
  poolFree := by
    unfold markFailed
    rw [setBlocks_lines]
    rfl
  unit := by
    unfold markFailed
    rw [State.countUnit, modUnit_unit_same, setBlocks_lines]
    rfl
  others v ne := by
    unfold markFailed
    rw [State.countUnit, modUnit_unit_ne ne, setBlocks_lines]
    rfl
  issue := by
    unfold markFailed
    rw [setBlocks_lines]
    rfl

theorem markFailed_records : (markFailed u bs s).fetch.records = s.fetch.records := by
  unfold markFailed
  rw [setBlocks_lines]
  rfl

theorem Marked.unpended {n : Nat} (marked : Marked u n s t) : Marked u n s (unpend id bs t) where
  frame := congrArg (unpend id bs) marked.frame
  poolFree := marked.poolFree
  unit := marked.unit
  others := marked.others
  issue := marked.issue

theorem Marked.removed {n : Nat} (marked : Marked u n s t) : Marked u n s (removeRecord id t) where
  frame := congrArg (removeRecord id) marked.frame
  poolFree := marked.poolFree
  unit := marked.unit
  others := marked.others
  issue := marked.issue

/-- The least of some blocks, as the FETCH_FAILED notice names it. -/
def lowestBlock (bs : List Nat) : Nat := bs.foldl min (bs.headD 0)

theorem foldl_min_le : ∀ (l : List Nat) (a : Nat), l.foldl min a ≤ a ∧ ∀ b ∈ l, l.foldl min a ≤ b
  | [], _ => ⟨le_rfl, by simp⟩
  | b :: l, a => by
    obtain ⟨first, all⟩ := foldl_min_le l (min a b)
    refine ⟨first.trans (min_le_left a b), fun k mem => ?_⟩
    rcases List.mem_cons.mp mem with rfl | mem
    · exact first.trans (min_le_right a k)
    · exact all k mem

theorem foldl_min_mem : ∀ (l : List Nat) (a : Nat), l.foldl min a = a ∨ l.foldl min a ∈ l
  | [], _ => .inl rfl
  | b :: l, a => by
    rcases foldl_min_mem l (min a b) with eq | mem
    · rcases min_choice a b with least | least
      · exact .inl (eq.trans least)
      · exact .inr (by rw [List.foldl_cons, eq, least]; simp)
    · exact .inr (List.mem_cons_of_mem b mem)

theorem lowestBlock_least (some_ : bs ≠ []) : lowestBlock bs ∈ bs ∧ ∀ b ∈ bs, lowestBlock bs ≤ b := by
  refine ⟨?_, (foldl_min_le bs _).2⟩
  cases bs with
  | nil => exact absurd rfl some_
  | cons b l =>
    rcases foldl_min_mem (b :: l) b with eq | mem
    · exact (congrArg (· ∈ b :: l) eq).mpr (by simp)
    · exact mem

/-- The FETCH_FAILED notice of some blocks has gone out. -/
def failTold (u : UnitId) (i : SlotId) (r : FetchRecord) (bs : List Nat) (why : FetchReason) (s : State) : State :=
  s.notify (some i) (.fetchFailed u r.id r.first r.count bs.length (lowestBlock bs) why r.reAsk)

theorem fetchNotice_marked {n : Nat} {why : FetchReason} (marked : Marked u n s t) (bound : (s.unit u).slot = some i) :
    fetchNotice u r bs why t = mediaOf t (failTold u i r bs why s) := by
  rw [fetchNotice, marked.unit]
  dsimp only
  rw [bound, failTold, ← notify_mediaOf, ← marked.frame]
  rfl

/-! ## What waits for the blocks ends (R170) -/

theorem failPrime_waits {p : StoragePort} (ends : ReadEnds u i p s y) (bound : (s.unit u).slot = some i)
    (waits : (s.unit u).prime = .running ∧ (s.unit u).primeImages.any bs.contains = true)
    (known : (s.slot i).seq.state = .waitGate → (∃ r, WaitsAtGate i r s) ∧ BootsFree i s) :
    failPrime u bs y = mediaOf (primeEnded u false y) ((gateTold i (primeNotice u i false s)).modSlot i (withPort p)) := by
  have slot : y.slot i = withPort p (s.slot i) := by rw [ends.frame, slot_mediaOf, modSlot_slot_same]
  have kept (v : UnitId) : (y.unit v).slot = (s.unit v).slot ∧ (y.unit v).state = (s.unit v).state := by
    by_cases same : v = u
    · rw [same, ends.unit]
      exact ⟨rfl, rfl⟩
    · rw [ends.others v same]
      exact ⟨rfl, rfl⟩
  have tables : y.tables = s.tables := by rw [ends.frame]; rfl
  have inrush : y.inrush = s.inrush := by rw [ends.frame]; rfl
  have noticed : primeNotice u i false y = mediaOf y ((primeNotice u i false s).modSlot i (withPort p)) := by
    unfold primeNotice
    rw [modSlot_notify, ← notify_mediaOf, ← ends.frame, ends.unit]
    rfl
  have running : (y.unit u).prime = .running ∧ (y.unit u).primeImages.any bs.contains = true := by
    rw [ends.unit]
    exact waits
  rw [failPrime, if_pos running, endPrime_failed ((kept u).1.trans bound), noticed, gateTold_mediaOf, gateTold_withPort]
  · rfl
  · intro waiting
    rw [slot] at waiting
    obtain ⟨⟨r, gate⟩, free⟩ := known waiting
    exact ⟨⟨r, WaitsAtGate.of gate ⟨p, slot⟩ inrush tables⟩, BootsFree.of free (fun v => (kept v).1)
      (fun v presents => (kept v).2.symm.trans presents) tables⟩

theorem failPrime_idle (idle : ¬((s.unit u).prime = .running ∧ (s.unit u).primeImages.any bs.contains = true)) :
    failPrime u bs s = s := if_neg idle

/-- Blocks that have failed, of a unit that presents: its read and prime end. -/
structure Failed (u : UnitId) (i : SlotId) (bs : List Nat) (s t : State) : Prop where
  frame : t = mediaOf t ((if (s.unit u).prime = .running ∧ (s.unit u).primeImages.any bs.contains = true then
    gateTold i (primeNotice u i false s) else s).modSlot i (withPort (portFailed (s.slot i) bs)))
  poolFree : t.poolFree = s.poolFree
  failed : (t.unit u).counters.failed = (s.unit u).counters.failed
  prime : ((t.unit u).prime, (t.unit u).primeImages) =
    if (s.unit u).prime = .running ∧ (s.unit u).primeImages.any bs.contains = true then (.failed, [])
    else ((s.unit u).prime, (s.unit u).primeImages)
  records : t.fetch.records = s.fetch.records
  issue : t.fetch.issue = []

theorem Failed.setBlocks {l : List Nat} (failed : Failed u i bs s t) : Failed u i bs s (l.foldl (setBlock u c) t) := by
  rw [setBlocks_lines]
  exact ⟨congrArg (fun y : State => { y with cache := (l.foldl (setBlock u c) t).cache }) failed.frame, failed.poolFree,
    failed.failed, failed.prime, failed.records, failed.issue⟩

theorem treatFailed_failed (bound : (s.unit u).slot = some i) (presents : (s.unit u).state = .presenting)
    (none_ : s.fetch.issue = [])
    (known : (s.unit u).prime = .running ∧ (s.unit u).primeImages.any bs.contains = true →
      (s.slot i).seq.state = .waitGate → (∃ r, WaitsAtGate i r s) ∧ BootsFree i s) :
    Failed u i bs s (treatFailed u bs s) := by
  have ends := failRead_ends (bs := bs) bound presents
  refine Failed.setBlocks ?_
  by_cases waits : (s.unit u).prime = .running ∧ (s.unit u).primeImages.any bs.contains = true
  · rw [failPrime_waits ends bound waits (known waits)]
    have unit := primeEnded_unit (u := u) (good := false) (s := failRead u bs s)
    have pool := primeEnded_poolFree (u := u) (good := false) (s := failRead u bs s)
    have records := primeEnded_records (u := u) (good := false) (s := failRead u bs s)
    refine ⟨by rw [if_pos waits]; rfl, pool.trans ends.poolFree, ?_, ?_, records.trans ends.records,
      primeEnded_issue (good := false) (ends.issue none_)⟩
    · refine Eq.trans (b := ((primeEnded u false (failRead u bs s)).unit u).counters.failed) rfl ?_
      rw [unit, ends.unit]
      rfl
    · rw [if_pos waits]
      refine Eq.trans (b := (((primeEnded u false (failRead u bs s)).unit u).prime,
        ((primeEnded u false (failRead u bs s)).unit u).primeImages)) rfl ?_
      rw [unit]
      rfl
  · rw [failPrime_idle (by rw [ends.unit]; exact waits)]
    exact ⟨by rw [if_neg waits]; exact ends.frame, ends.poolFree, by rw [ends.unit], by rw [if_neg waits, ends.unit],
      ends.records, ends.issue none_⟩

end Sys2Proof.Machine
end

section
/-! PROOFS. The detach that a failed read may bring, and what becomes of the record (R142, R168, R169). -/

namespace Sys2Proof.Machine

open Sys2Proof

variable {s t z y : State} {u v : UnitId} {i : SlotId} {r : FetchRecord} {id : BitVec 16} {bs : List Nat} {c : CacheBlock}

theorem treatFailed_empty {k : Nat} (mem : k ∈ bs) : (treatFailed u bs s).blockAt u k = .empty :=
  setBlocks_empty (.inr mem)

/-! ## The detach of an EJECTING unit (R142) -/

/-- Lines and records that only leave or change their blocks do not undo a detach. -/
theorem Detached.of_fewer {why : Option EjectReason} {held : Nat} (d : Detached u i why held s t)
    (frame : z = { t with cache := z.cache, fetch := z.fetch })
    (cache : ∀ l ∈ z.cache, ∃ l' ∈ t.cache, l'.unit = l.unit) (records : ∀ r ∈ z.fetch.records, r ∈ t.fetch.records) :
    Detached u i why held s z := by
  obtain ⟨unit, pool, lines, asked, number, alone⟩ := d
  have same (v : UnitId) : z.unit v = t.unit v := by rw [frame]; rfl
  have pool' : z.poolFree = t.poolFree := by rw [frame]
  have number' : z.noticeNumber = t.noticeNumber := by rw [frame]
  refine ⟨by rw [same]; exact unit, pool'.trans pool, fun l mem => ?_, fun r mem => asked r (records r mem),
    number'.trans number, fun none_ => ?_⟩
  · obtain ⟨l', mem', eq⟩ := cache l mem
    rw [← eq]
    exact lines l' mem'
  · obtain ⟨after, others⟩ := alone none_
    refine ⟨?_, fun v ne => (same v).trans (others v ne)⟩
    conv_lhs => rw [frame, after]
    rw [frame]

theorem detach_issue (none_ : s.fetch.issue = []) : (detach u s).fetch.issue = [] := by
  rw [detach_eq, notify_fetch, invalidate_empty none_]
  simp [State.modUnit, forget, none_]

/-- A unit that is EJECTING, and whose last request was a read that has failed, is detached. -/
theorem treatFailed_detached (bound : (s.unit u).slot = some i) (ejecting : (s.unit u).state = .ejecting)
    (waits : awaitsRead (s.slot i) bs = true) (none_ : s.fetch.issue = []) :
    let t := treatFailed u bs s
    Detached u i (s.unit u).ejectReason (heldCount (s.unit u)) s t ∧ t.fetch.issue = [] ∧
      ∀ j, t.slot j = if j = i then { s.slot i with port := portFailed (s.slot i) bs } else s.slot j := by
  obtain ⟨z, ends, failed⟩ := failRead_detaches (bs := bs) bound waits
  have number : z.noticeNumber = s.noticeNumber := by rw [ends.frame]; rfl
  have ejectingZ : (z.unit u).state = .ejecting := by rw [ends.unit]; exact ejecting
  have after := afterRequest_detached (held := heldCount (s.unit u)) (s := s) ejectingZ (by rw [ends.unit]; exact bound)
    number (by rw [ends.unit]) (by rw [ends.poolFree, ends.unit]; rfl)
    fun _ => ⟨ends.issue none_, ⟨_, ends.frame⟩, ends.others⟩
  obtain ⟨detached, unit, slots⟩ := after
  have reason : (z.unit u).ejectReason = (s.unit u).ejectReason := by rw [ends.unit]
  rw [reason] at detached
  have idle : failPrime u bs (failRead u bs s) = afterRequest u z := by
    rw [failed, failPrime_idle]
    rw [unit]
    exact fun running => by cases running.1
  have eq : treatFailed u bs s = bs.foldl (setBlock u .empty) (afterRequest u z) :=
    congrArg (fun y => bs.foldl (setBlock u .empty) y) idle
  have issue : (afterRequest u z).fetch.issue = [] := by
    rw [afterRequest, if_pos ejectingZ]
    exact detach_issue (ends.issue none_)
  intro t
  have moved : FetchMove (fun _ => False) (afterRequest u z) (bs.foldl (setBlock u .empty) (afterRequest u z)) :=
    setBlocks_move
  have frame := setBlocks_lines (u := u) (c := .empty) bs (afterRequest u z)
  rw [← eq] at frame moved
  have same : t.fetch = (afterRequest u z).fetch := (congrArg State.fetch frame).trans rfl
  refine ⟨Detached.of_fewer detached ?_ (fun l mem => (moved.cache l mem).resolve_right id) (by rw [same]; exact fun _ h => h),
    by rw [same]; exact issue, fun j => ?_⟩
  · rw [same]
    exact frame
  · have slot : t.slot j = (afterRequest u z).slot j := (congrArg (fun y : State => y.slot j) frame).trans rfl
    rw [slot, slots, ends.frame, slot_mediaOf, modSlot_slot]
    split_ifs with here
    · rw [here]
      rfl
    · rfl

/-! ## What becomes of the record (R167, R168) -/

/-- Some record stands under an identity, and awaits nothing more. -/
def Exhausted (id : BitVec 16) (s : State) : Prop := ∃ r ∈ s.fetch.records, r.id = id ∧ r.waiting = []

theorem exhausted_iff : (s.fetch.records.any fun r => decide (r.id = id) && r.waiting.isEmpty) = true ↔ Exhausted id s := by
  simp [Exhausted]

theorem freeIfEmpty_exhausted (none_ : s.fetch.issue = []) (done : Exhausted id s) :
    freeIfEmpty id s = removeRecord id s := by
  rw [freeIfEmpty, if_pos (exhausted_iff.mpr done)]
  exact serveIssue_empty (by exact none_)

theorem freeIfEmpty_awaits (more : ¬ Exhausted id s) : freeIfEmpty id s = s := by
  rw [freeIfEmpty, if_neg fun h => more (exhausted_iff.mp h)]

theorem freeIfEmpty_cases (none_ : s.fetch.issue = []) : freeIfEmpty id s = removeRecord id s ∨ freeIfEmpty id s = s := by
  by_cases done : Exhausted id s
  · exact .inl (freeIfEmpty_exhausted none_ done)
  · exact .inr (freeIfEmpty_awaits done)

/-- The records once some blocks have left the one under an identity. -/
theorem unpend_exhausted (recorded : r ∈ s.fetch.records) (here : r.id = id)
    (alone : ∀ r' ∈ s.fetch.records, r'.id = id → r' = r) :
    Exhausted id (unpend id bs s) ↔ (r.waiting.filter fun b => !bs.contains b) = [] := by
  constructor
  · rintro ⟨q, mem, eq, empty⟩
    obtain ⟨q', mem', rfl⟩ := List.mem_map.mp mem
    by_cases same : q'.id = id
    · rw [if_pos same] at empty
      rw [← alone q' mem' same]
      exact empty
    · rw [if_neg same] at eq
      exact absurd eq same
  · intro empty
    exact ⟨_, List.mem_map_of_mem recorded, by rw [if_pos here]; exact here, by rw [if_pos here]; exact empty⟩

theorem unpend_records (alone : ∀ r' ∈ s.fetch.records, r'.id = id → r' = r) :
    (unpend id bs s).fetch.records = s.fetch.records.map fun x =>
      if x.id = id then { r with waiting := r.waiting.filter fun b => !bs.contains b } else x := by
  refine List.map_congr_left fun x mem => ?_
  split_ifs with same
  · rw [alone x mem same]
  · rfl

theorem unpend_others : (unpend id bs s).fetch.records.filter (fun x => decide (x.id ≠ id)) =
    s.fetch.records.filter fun x => decide (x.id ≠ id) := by
  unfold unpend State.modRecord
  dsimp only
  rw [List.filter_map]
  have same : (fun x : FetchRecord => decide (x.id ≠ id)) ∘ (fun r => if r.id = id then
      { r with waiting := r.waiting.filter fun b => !bs.contains b } else r) = fun x => decide (x.id ≠ id) := by
    funext x
    dsimp only [Function.comp]
    split_ifs <;> rfl
  rw [same]
  refine (List.map_congr_left fun x mem => ?_).trans (List.map_id _)
  rw [if_neg (by simpa using (List.mem_filter.mp mem).2)]
  rfl

end Sys2Proof.Machine
end

section
/-! PROOFS. BLOCK_ABSENT and the last fetch deadline (R168 to R170, R174). -/

namespace Sys2Proof.Machine

open Sys2Proof

variable {s t z y : State} {u v : UnitId} {i : SlotId} {r : FetchRecord} {id : BitVec 16} {bs : List Nat}
  {why : FetchReason}

/-- A change of units, lines, fetches and one slot leaves the rest. -/
theorem frame_of_mediaOf {f : Slot → Slot} (frame : t = mediaOf t (s.modSlot i f)) (pool : t.poolFree = s.poolFree) :
    t = { s with slots := t.slots, units := t.units, cache := t.cache, fetch := t.fetch } := by
  have slots : t.slots = (s.modSlot i f).slots := (congrArg State.slots frame).trans rfl
  rw [slots, ← pool]
  exact frame

/-- What follows once the failed blocks `bs` of unit `u` have been marked. -/
def failedFrom (u : UnitId) (r : FetchRecord) (bs : List Nat) (why : FetchReason) (s : State) : State :=
  treatFailed u bs (fetchNotice u r bs why s)

/-- The state with the notices of failed blocks, as unit `u` and the sequencer of its slot then stand. -/
def failedNotices (u : UnitId) (i : SlotId) (r : FetchRecord) (bs : List Nat) (why : FetchReason) (s : State) : State :=
  if (s.unit u).prime = .running ∧ (s.unit u).primeImages.any bs.contains = true then
    gateTold i ((failTold u i r bs why s).notify (some i)
      (.mediaState u .presenting .primeFailed none (heldCount (s.unit u))))
  else failTold u i r bs why s

theorem gateMove_failedNotices : GateMove i s (failedNotices u i r bs why s) := by
  unfold failedNotices failTold
  split_ifs
  · exact (gateMove_notify.trans gateMove_notify).trans gateMove_gateTold
  · exact gateMove_notify

/-- Blocks that have failed, of a unit that presents. -/
structure FailedTo (u : UnitId) (i : SlotId) (bs : List Nat) (ends s t : State) : Prop where
  empty : ∀ b ∈ bs, t.blockAt u b = .empty
  failed : (t.unit u).counters.failed = bumpBy bs.length (s.unit u).counters.failed
  prime : ((t.unit u).prime, (t.unit u).primeImages) =
    if (s.unit u).prime = .running ∧ (s.unit u).primeImages.any bs.contains = true then (.failed, [])
    else ((s.unit u).prime, (s.unit u).primeImages)
  frame : t = { ends with slots := t.slots, units := t.units, cache := t.cache, fetch := t.fetch }
  slots : ∀ j, t.slot j = if j = i then withPort (portFailed (s.slot i) bs) (ends.slot i) else ends.slot j

theorem failedFrom_presents (marked : Marked u bs.length s z) (bound : (s.unit u).slot = some i)
    (presents : (s.unit u).state = .presenting) (none_ : s.fetch.issue = [])
    (known : (s.unit u).prime = .running ∧ (s.unit u).primeImages.any bs.contains = true →
      (s.slot i).seq.state = .waitGate → (∃ r, WaitsAtGate i r s) ∧ BootsFree i s) :
    FailedTo u i bs (failedNotices u i r bs why s) s (failedFrom u r bs why z) ∧
      (failedFrom u r bs why z).fetch.records = z.fetch.records ∧ (failedFrom u r bs why z).fetch.issue = [] := by
  have told : fetchNotice u r bs why z = mediaOf z (failTold u i r bs why s) := fetchNotice_marked marked bound
  set y := mediaOf z (failTold u i r bs why s) with told_
  have unit : y.unit u = z.unit u := rfl
  have slot : y.slot i = s.slot i := notify_slot
  have states (v : UnitId) : (y.unit v).slot = (s.unit v).slot ∧ (y.unit v).state = (s.unit v).state := by
    rw [show y.unit v = z.unit v from rfl]
    by_cases same : v = u
    · rw [same, marked.unit]
      exact ⟨rfl, rfl⟩
    · rw [marked.others v same]
      exact ⟨rfl, rfl⟩
  have failed := treatFailed_failed (u := u) (i := i) (bs := bs) (s := y) (by rw [unit, marked.unit]; exact bound)
    (by rw [unit, marked.unit]; exact presents) (marked.issue.trans none_) fun waits waiting => by
      rw [unit, marked.unit] at waits
      rw [slot] at waiting
      obtain ⟨⟨r, gate⟩, free⟩ := known waits waiting
      exact ⟨⟨r, WaitsAtGate.of gate ⟨(s.slot i).port, slot⟩ notify_inrush notify_tables⟩, BootsFree.of free
        (fun v => (states v).1) (fun v here => (states v).2.symm.trans here) notify_tables⟩
  have eq : failedFrom u r bs why z = treatFailed u bs y := congrArg (treatFailed u bs) told
  have ends : (if (y.unit u).prime = .running ∧ (y.unit u).primeImages.any bs.contains = true then
      gateTold i (primeNotice u i false y) else y) = mediaOf z (failedNotices u i r bs why s) := by
    rw [unit, marked.unit]
    unfold failedNotices
    split_ifs
    · rw [← gateTold_mediaOf, ← notify_mediaOf, ← told_, primeNotice, unit, marked.unit, presents]
      rfl
    · rfl
  have frame := failed.frame
  rw [ends, slot] at frame
  have pool : (treatFailed u bs y).poolFree = (failedNotices u i r bs why s).poolFree :=
    failed.poolFree.trans (marked.poolFree.trans gateMove_failedNotices.media.2.1.symm)
  rw [eq]
  refine ⟨⟨fun b mem => treatFailed_empty mem, ?_, ?_, ?_, fun j => ?_⟩, failed.records, failed.issue⟩
  · rw [failed.failed, unit, marked.unit]
  · rw [failed.prime, unit, marked.unit]
  · exact frame_of_mediaOf (f := withPort (portFailed (s.slot i) bs)) frame pool
  · rw [frame, slot_mediaOf, modSlot_slot]
    split_ifs with here
    · rw [here]
      rfl
    · rfl

theorem FailedTo.of_records {ends : State} {l : List FetchRecord} (failed : FailedTo u i bs ends s t) :
    FailedTo u i bs ends s { t with fetch := { t.fetch with records := l } } where
  empty := failed.empty
  failed := failed.failed
  prime := failed.prime
  frame := congrArg (fun y : State => { y with fetch := { t.fetch with records := l } }) failed.frame
  slots := failed.slots

theorem failedFrom_ejecting (marked : Marked u bs.length s z) (bound : (s.unit u).slot = some i)
    (ejecting : (s.unit u).state = .ejecting) (none_ : s.fetch.issue = []) (waits : awaitsRead (s.slot i) bs = true) :
    Detached u i (s.unit u).ejectReason (heldCount (s.unit u)) (failTold u i r bs why s) (failedFrom u r bs why z) ∧
      (failedFrom u r bs why z).fetch.issue = [] ∧ ∀ j, (failedFrom u r bs why z).slot j =
        if j = i then { s.slot i with port := portFailed (s.slot i) bs } else s.slot j := by
  have told : fetchNotice u r bs why z = mediaOf z (failTold u i r bs why s) := fetchNotice_marked marked bound
  set y := mediaOf z (failTold u i r bs why s) with told_
  have unit : y.unit u = z.unit u := rfl
  have slot (j : SlotId) : y.slot j = s.slot j := notify_slot
  have same (v : UnitId) : (failTold u i r bs why s).unit v = s.unit v := notify_unit
  obtain ⟨detached, issue, slots⟩ := treatFailed_detached (u := u) (i := i) (bs := bs) (s := y)
    (by rw [unit, marked.unit]; exact bound) (by rw [unit, marked.unit]; exact ejecting)
    (by rw [slot]; exact waits) (marked.issue.trans none_)
  have eq : failedFrom u r bs why z = treatFailed u bs y := congrArg (treatFailed u bs) told
  have reason : (y.unit u).ejectReason = (s.unit u).ejectReason := by rw [unit, marked.unit]
  have held : heldCount (y.unit u) = heldCount (s.unit u) := by rw [unit, marked.unit]; rfl
  rw [reason, held] at detached
  rw [eq]
  refine ⟨detached_mediaOf detached ?_ (marked.poolFree.trans notify_poolFree.symm) ?_ fun v ne => ?_, issue, fun j => ?_⟩
  · rw [same, marked.unit]
  · exact fun _ => marked.issue.trans none_
  · rw [same, marked.others v ne]
  · rw [slots, slot, slot]

theorem Detached.of_removed {held : Nat} {reason : Option EjectReason} (d : Detached u i reason held s t) :
    Detached u i reason held s (removeRecord id t) :=
  Detached.of_fewer d rfl (fun l mem => ⟨l, mem, rfl⟩) fun _ mem => (List.mem_filter.mp mem).1

/-! ## The commands -/

/-- A GATE that waits on unit `u`, seen from a state in which the slots, the scheduler and the tables stand. -/
theorem known_of (known : GateKnown u i s ∧ BootsFree i s) (slot : ∀ j, t.slot j = s.slot j)
    (states : ∀ v, (t.unit v).slot = (s.unit v).slot ∧ (t.unit v).state = (s.unit v).state)
    (inrush : t.inrush = s.inrush) (tables : t.tables = s.tables) (waiting : (t.slot i).seq.state = .waitGate) :
    (∃ r, WaitsAtGate i r t) ∧ BootsFree i t := by
  obtain ⟨gate, free⟩ := known
  rw [slot] at waiting
  obtain ⟨-, q, waits⟩ := gate waiting
  exact ⟨⟨q, WaitsAtGate.of waits ⟨(s.slot i).port, slot i⟩ inrush tables⟩, BootsFree.of free (fun v => (states v).1)
    (fun v presents => (states v).2.symm.trans presents) tables⟩

theorem exec_blockAbsent_fails {h : Header} {e : StationId} {first : BitVec 32} {count : Nat} {reason : Byte}
    (heard : AnswerHeard h e u s) (station : (s.unit u).station = some (e, h.src))
    (record : (hear e h.port s).recordOf u id = some r) (some_ : absentOf r first count ≠ []) :
    exec (.blockAbsent h id first count reason) s = .next (freeIfEmpty id (failedFrom u r (absentOf r first count)
      (.absent reason) (unpend id (absentOf r first count) (markFailed u (absentOf r first count) (hear e h.port s))))) := by
  refine exec_blockAbsent_recorded heard (isForeignAnswer_eq_false.mpr (.inr station)) record ?_
  exact if_neg (by simpa using some_)

theorem exec_fetchDeadline_fails {due : Time} (found : s.fetch.records.find? (fun x => decide (x.id = r.id)) = some r)
    (phase : r.phase = .out due) (over_ : reached due s.now = true)
    (limit : (s.unitSetup r.unit).reAskLimit ≤ r.reAsk) :
    exec (.fetchDeadline r.id) s = .next (serveIssue (failedFrom r.unit r r.waiting .noAnswer
      (removeRecord r.id (markFailed r.unit r.waiting s)))) := by
  have gone : fetchDue r s.now = true := by
    rw [fetchDue, phase]
    exact over_
  refine congrArg Host.Outcome.next ?_
  rw [found]
  dsimp only
  rw [if_pos gone, if_neg (by omega)]
  rfl

end Sys2Proof.Machine
end

section
/-! PROOFS. The commands that make blocks fail (R168, R169). -/

namespace Sys2Proof.Machine

open Sys2Proof

variable {s t z y : State} {u v : UnitId} {i : SlotId} {r : FetchRecord} {id : BitVec 16} {bs : List Nat}
  {why : FetchReason}

/-- The record of a BLOCK_ABSENT, once the blocks it names have left it. -/
theorem absent_records (recorded : r ∈ s.fetch.records) (alone : ∀ r' ∈ s.fetch.records, r'.id = r.id → r' = r)
    (records : t.fetch.records = (unpend r.id bs s).fetch.records) (none_ : t.fetch.issue = []) :
    let left := r.waiting.filter fun b => decide (b ∉ bs)
    (freeIfEmpty r.id t).fetch.records = if left = [] then s.fetch.records.filter fun x => decide (x.id ≠ r.id)
      else s.fetch.records.map fun x => if x.id = r.id then { r with waiting := left } else x := by
  intro left
  have same : (r.waiting.filter fun b => !bs.contains b) = left :=
    List.filter_congr fun b _ => by simp
  have done : Exhausted r.id t ↔ left = [] := by
    rw [Exhausted, records, ← same]
    exact unpend_exhausted recorded rfl alone
  by_cases empty : left = []
  · rw [if_pos empty, freeIfEmpty_exhausted none_ (done.mpr empty), removeRecord]
    dsimp only
    rw [records]
    exact unpend_others
  · rw [if_neg empty, freeIfEmpty_awaits fun h => empty (done.mp h), records, unpend_records alone, same]

theorem failedTo_freeIfEmpty {ends : State} (failed : FailedTo u i bs ends s t) (none_ : t.fetch.issue = []) :
    FailedTo u i bs ends s (freeIfEmpty id t) := by
  rcases freeIfEmpty_cases (id := id) none_ with eq | eq <;> rw [eq]
  · exact failed.of_records
  · exact failed

theorem detached_freeIfEmpty {why : Option EjectReason} {held : Nat} (d : Detached u i why held s t)
    (none_ : t.fetch.issue = []) : Detached u i why held s (freeIfEmpty id t) := by
  rcases freeIfEmpty_cases (id := id) none_ with eq | eq <;> rw [eq]
  · exact Detached.of_removed d
  · exact d

theorem freeIfEmpty_slot {j : SlotId} (none_ : s.fetch.issue = []) : (freeIfEmpty id s).slot j = s.slot j := by
  rcases freeIfEmpty_cases (id := id) none_ with eq | eq <;> rw [eq]
  rfl

theorem offerFetch_issue : (offerFetch s r).fetch.issue = s.fetch.issue := by
  unfold offerFetch
  split
  · rfl
  · dsimp only
    split_ifs
    · simp [State.modRecord, State.ownAppend]
    · rfl

theorem hear_issue {e : StationId} {p : Port} : (hear e p s).fetch.issue = s.fetch.issue := by
  unfold hear
  dsimp only
  split_ifs
  · rfl
  · exact foldl_keeps (fun t : State => t.fetch.issue) _ (fun _ _ => by split_ifs <;> simp [offerFetch_issue]) _ _

/-- Settles O49. -/
theorem blocksFail : Obligations.BlocksFail := by
  unfold Obligations.BlocksFail
  intro u i r s bound none_ owner m x waits port primes lowestOf failedNotice failed gone fails
  have shape : ∀ bs why s1 t, bs ≠ [] → (∃ n, s1.unit u = { m with counters := { m.counters with fetches := n } }) →
      s1.slot i = x → FailedTo u i bs (failedNotices u i r bs why s1) s1 t → failed bs why s1 t := by
    rintro bs why s1 t some_ ⟨n, unit⟩ slot failedTo
    have ends : failedNotices u i r bs why s1 = if primes bs then gateTold i ((failTold u i r bs why s1).notify (some i)
        (.mediaState u .presenting .primeFailed none (heldCount m))) else failTold u i r bs why s1 := by
      rw [failedNotices, unit]
      rfl
    have count := failedTo.failed
    have prime := failedTo.prime
    have frame := failedTo.frame
    have slots := failedTo.slots
    rw [unit] at count prime
    rw [ends] at frame
    rw [ends, slot] at slots
    exact ⟨failedTo.empty, count, prime, lowestBlock bs, lowestBlock_least some_, frame, slots⟩
  have away : ∀ bs why s1 t, bs ≠ [] → (∃ n, s1.unit u = { m with counters := { m.counters with fetches := n } }) →
      (∀ j, s1.slot j = s.slot j) → Detached u i (s1.unit u).ejectReason (heldCount (s1.unit u)) (failTold u i r bs why s1) t →
      (∀ j, t.slot j = if j = i then { s1.slot i with port := portFailed (s1.slot i) bs } else s1.slot j) →
      gone bs why s1 t := by
    rintro bs why s1 t some_ ⟨n, unit⟩ slot detached slots
    rw [unit] at detached
    refine ⟨lowestBlock bs, lowestBlock_least some_, detached, fun j => ?_⟩
    rw [slots, slot, slot]
    rfl
  refine ⟨?_, fun due found phase late limit some_ => ?_⟩
  · intro h e first count reason heard station record bs some_
    set s1 := hear e h.port s with heardState
    have unit (v : UnitId) : s1.unit v = { s.unit v with
        counters := { (s.unit v).counters with fetches := (s1.unit v).counters.fetches } } := hear_counts.unit v
    have unit1 : ∃ n, s1.unit u = { m with counters := { m.counters with fetches := n } } := ⟨_, unit u⟩
    have bound1 : (s1.unit u).slot = some i := by rw [unit]; exact bound
    have none1 : s1.fetch.issue = [] := hear_issue.trans none_
    have slot (j : SlotId) : s1.slot j = s.slot j := hear_slot
    have marked : Marked u bs.length s1 (unpend r.id bs (markFailed u bs s1)) := markFailed_marked.unpended
    have taken := exec_blockAbsent_fails (reason := reason) heard station record some_
    refine ⟨fun presents known => ?_, fun ejecting waiting => ?_⟩
    · obtain ⟨failedTo, records, issue⟩ := failedFrom_presents (r := r) (why := .absent reason) marked bound1
        (by rw [unit]; exact presents) none1 fun primed waiting => by
          rw [unit] at primed
          rw [slot] at waiting
          exact known_of (known primed waiting) slot (fun v => by rw [unit]; exact ⟨rfl, rfl⟩) hear_inrush hear_tables
            (by rw [slot]; exact waiting)
      refine ⟨_, taken, shape _ _ _ _ some_ unit1 (slot i) (failedTo_freeIfEmpty failedTo issue), ?_⟩
      intro alone
      refine absent_records (List.mem_of_find?_eq_some record) alone ?_ issue
      refine records.trans ?_
      unfold unpend State.modRecord
      dsimp only
      rw [markFailed_records]
    · obtain ⟨detached, issue, slots⟩ := failedFrom_ejecting (r := r) (why := .absent reason) marked bound1
        (by rw [unit]; exact ejecting) none1 (by rw [slot]; exact waiting)
      exact ⟨_, taken, away _ _ _ _ some_ unit1 slot (detached_freeIfEmpty detached issue) fun j =>
        (freeIfEmpty_slot issue).trans (slots j)⟩
  · have marked : Marked u r.waiting.length s (removeRecord r.id (markFailed u r.waiting s)) := markFailed_marked.removed
    have unit1 : ∃ n, s.unit u = { m with counters := { m.counters with fetches := n } } := ⟨_, rfl⟩
    have taken := exec_fetchDeadline_fails found phase late (by rw [owner]; exact limit)
    rw [owner] at taken
    refine ⟨fun presents known => ?_, fun ejecting waiting => ?_⟩
    · obtain ⟨failedTo, records, issue⟩ := failedFrom_presents (r := r) (why := .noAnswer) marked bound presents none_
        fun primed waiting => known_of (known primed waiting) (fun _ => rfl) (fun _ => ⟨rfl, rfl⟩) rfl rfl waiting
      rw [serveIssue_empty issue] at taken
      refine ⟨_, taken, shape _ _ _ _ some_ unit1 rfl failedTo, ?_⟩
      refine records.trans ?_
      rw [removeRecord]
      dsimp only
      rw [markFailed_records]
    · obtain ⟨detached, issue, slots⟩ := failedFrom_ejecting (r := r) (why := .noAnswer) marked bound ejecting none_ waiting
      rw [serveIssue_empty issue] at taken
      exact ⟨_, taken, away _ _ _ _ some_ unit1 (fun _ => rfl) detached slots⟩

end Sys2Proof.Machine
end

section
/-! PROOFS. What a delivery of ready blocks leaves (R152, R160, R167). -/

namespace Sys2Proof.Machine

open Sys2Proof

variable {s t z y : State} {u v : UnitId} {i : SlotId} {lba : Nat} {xs rest : List Source} {images : List Nat}
  {ds : List Block}

/-- A read has been told some blocks and waits on. -/
def readMoved (i : SlotId) (u : UnitId) (lba : Nat) (xs rest : List Source) (images : List Nat) (ds : List Block)
    (s : State) : State :=
  setInFlight i (some (.read (lba + ds.length) rest images)) (touchLines u (imagesIn xs) (deliveredBlocks i u lba ds s))

theorem pumpRead_eq (flight : (s.slot i).port.inFlight = some (.read lba (xs ++ rest) images))
    (ready : xs.map (s.ready u) = ds.map some) (stop : ∀ x, rest.head? = some x → s.ready u x = none) :
    pumpRead i u s = if rest = [] then afterRequest u (readEnded i u lba xs images ds s)
      else readMoved i u lba xs rest images ds s := by
  by_cases last : rest = []
  · rw [if_pos last]
    rw [last, List.append_nil] at flight
    exact pumpRead_whole flight ready
  · have length : xs.length = ds.length := by simpa using congrArg List.length ready
    rw [if_neg last, pumpRead, flight]
    dsimp only
    rw [deliver_eq ready stop]
    dsimp only
    rw [if_neg (by simpa using last), Nat.add_sub_cancel_left, ← length, List.take_left, length]
    rfl

/-- The blocks that a read awaits begin with those that are ready. -/
theorem split_ready (ready : Source → Option Block) : ∀ l : List Source, ∃ (xs rest : List Source) (ds : List Block), l = xs ++ rest ∧
    xs.map ready = ds.map some ∧ ∀ x, rest.head? = some x → ready x = none
  | [] => ⟨[], [], [], rfl, rfl, by simp⟩
  | x :: l => by
    cases first : ready x with
    | none => exact ⟨[], x :: l, [], rfl, rfl, fun y eq => by cases eq; exact first⟩
    | some d =>
      obtain ⟨xs, rest, ds, rfl, all, stop⟩ := split_ready ready l
      exact ⟨x :: xs, rest, d :: ds, rfl, by simp [first, all], stop⟩

/-- A delivery to the port of slot `i`: of unit `u` it changes no more than counts of deliveries. -/
structure Pumped (u : UnitId) (i : SlotId) (s t : State) : Prop where
  frame : t = mediaOf t (s.modSlot i (withPort (t.slot i).port))
  unit : t.unit u = { s.unit u with counters := { (s.unit u).counters with
    delivered := (t.unit u).counters.delivered, readsGood := (t.unit u).counters.readsGood } }
  others : ∀ v, v ≠ u → t.unit v = s.unit v
  records : t.fetch.records = s.fetch.records
  issue : s.fetch.issue = [] → t.fetch.issue = []
  blocks : t.blockAt u = s.blockAt u

theorem pumped_refl : Pumped u i s s :=
  ⟨by rw [modSlot_self (f := withPort (s.slot i).port) rfl]; rfl, rfl, fun _ _ => rfl, rfl, fun h => h, rfl⟩

theorem deliveredBlocks_unit_ne (ne : v ≠ u) : (deliveredBlocks i u lba ds s).unit v = s.unit v := by
  rw [deliveredBlocks, State.countUnit, modUnit_unit_ne ne]
  rfl

theorem readEnded_pumped : Pumped u i s (readEnded i u lba xs images ds s) := by
  have frame := readEnded_frame (i := i) (u := u) (lba := lba) (xs := xs) (images := images) (ds := ds) (s := s)
  have port : ((readEnded i u lba xs images ds s).slot i).port = (portEnded (readOut lba ds) (s.slot i)).port := by
    rw [frame, slot_mediaOf, modSlot_slot_same]
  have touched := sameBlocks_touchLines (u := u) (images := imagesIn xs) (s := deliveredBlocks i u lba ds s)
  refine ⟨?_, by rw [readEnded_unit], fun v ne => readEnded_unit_ne ne, ?_, readEnded_issue, ?_⟩
  · have same : s.modSlot i (withPort (portEnded (readOut lba ds) (s.slot i)).port) = s.modSlot i (portEnded (readOut lba ds)) :=
      modSlot_congr rfl
    rw [port, same]
    exact frame
  · rw [readEnded, readGood, State.countUnit, modUnit_fetch, endRequester_records]
    exact (congrArg FetchTable.records touched.fetch).trans rfl
  · funext b
    refine Eq.trans (b := (touchLines u (imagesIn xs) (deliveredBlocks i u lba ds s)).blockAt u b) ?_ (touched.blockAt u b)
    exact congrFun (sameBlocks_endRequester (v := u) (prime := false) (images := images)
      (s := setInFlight i none (tell i (.done .read .good) (touchLines u (imagesIn xs) (deliveredBlocks i u lba ds s))))) b

theorem readMoved_slot {j : SlotId} : (readMoved i u lba xs rest images ds s).slot j = if j = i then withPort
    { inFlight := some (.read (lba + ds.length) rest images),
      out := (s.slot i).port.out ++ ds.mapIdx (fun k d => .block (lba + k) d) } (s.slot i) else s.slot j := by
  have touched := sameBlocks_touchLines (u := u) (images := imagesIn xs) (s := deliveredBlocks i u lba ds s)
  rw [readMoved, setInFlight, modSlot_slot, touched.slot, deliveredBlocks_slot]
  split_ifs with here
  · rw [here]
    simp [toldMore, withPort]
  · exact modSlot_slot_ne here

theorem readMoved_pumped : Pumped u i s (readMoved i u lba xs rest images ds s) := by
  have touched := sameBlocks_touchLines (u := u) (images := imagesIn xs) (s := deliveredBlocks i u lba ds s)
  have unit (v : UnitId) : (readMoved i u lba xs rest images ds s).unit v = (deliveredBlocks i u lba ds s).unit v :=
    (touched.unit v : _)
  refine ⟨?_, by rw [unit, deliveredBlocks_unit], fun v ne => (unit v).trans (deliveredBlocks_unit_ne ne),
    (congrArg FetchTable.records touched.fetch).trans rfl, fun none_ => ?_, ?_⟩
  · have port : ((readMoved i u lba xs rest images ds s).slot i).port =
        { inFlight := some (.read (lba + ds.length) rest images),
          out := (s.slot i).port.out ++ ds.mapIdx (fun k d => .block (lba + k) d) } := by
      rw [readMoved_slot, if_pos rfl]
      rfl
    rw [port]
    have moved : readMoved i u lba xs rest images ds s = mediaOf (readMoved i u lba xs rest images ds s)
        (setInFlight i (some (.read (lba + ds.length) rest images)) (toldMore i
          (ds.mapIdx fun k d => .block (lba + k) d) s)) := by
      unfold readMoved
      rw [touched.frame]
      rfl
    rw [setInFlight, toldMore, modSlot_modSlot] at moved
    exact moved
  · exact (congrArg FetchTable.issue touched.fetch).trans none_
  · funext b
    exact touched.blockAt u b

theorem pumpRead_pumped (presents : (s.unit u).state = .presenting) : Pumped u i s (pumpRead i u s) := by
  cases flight : (s.slot i).port.inFlight with
  | none =>
    rw [pumpRead, flight]
    exact pumped_refl
  | some q =>
    cases q with
    | write lba left =>
      rw [pumpRead, flight]
      exact pumped_refl
    | read lba l images =>
      obtain ⟨xs, rest, ds, rfl, ready, stop⟩ := split_ready (s.ready u) l
      rw [pumpRead_eq flight ready stop]
      split_ifs
      · rw [afterRequest_presenting (by rw [readEnded_unit]; exact presents)]
        exact readEnded_pumped
      · exact readMoved_pumped

/-- What the port of a slot has been told by a delivery. -/
theorem pumpRead_port (presents : (s.unit u).state = .presenting)
    (flight : (s.slot i).port.inFlight = some (.read lba (xs ++ rest) images)) (ready : xs.map (s.ready u) = ds.map some)
    (stop : ∀ x, rest.head? = some x → s.ready u x = none) : ((pumpRead i u s).slot i).port =
      let out := (s.slot i).port.out ++ ds.mapIdx fun k d => ServerOut.block (lba + k) d
      if rest = [] then { inFlight := none, out := out ++ [.done .read .good] }
      else { inFlight := some (.read (lba + ds.length) rest images), out } := by
  rw [pumpRead_eq flight ready stop]
  dsimp only
  split_ifs
  · rw [afterRequest_presenting (by rw [readEnded_unit]; exact presents), readEnded_frame, slot_mediaOf, modSlot_slot_same]
    simp [portEnded, readOut]
  · rw [readMoved_slot, if_pos rfl]
    rfl

end Sys2Proof.Machine
end

section
/-! PROOFS. What an accepted block leaves of the records and of the Issue Queue (R163, R164, R167). -/

namespace Sys2Proof.Machine

open Sys2Proof

variable {s t z y : State} {u v : UnitId} {i : SlotId} {r : FetchRecord} {id : BitVec 16} {b : Nat} {data : Block}

/-! ## A fetch that is issued -/

/-- Two records of the same fetch: only their phases may differ. -/
def SameFetch (r q : FetchRecord) : Prop := q = { r with phase := q.phase }

theorem offerFetch_lastId : (offerFetch s r).fetch.lastId = s.fetch.lastId := by
  unfold offerFetch
  split
  · rfl
  · dsimp only
    split_ifs
    · simp [State.modRecord, State.ownAppend]
    · rfl

theorem offerFetch_kept {q : FetchRecord} (mem : q ∈ s.fetch.records) : ∃ q' ∈ (offerFetch s r).fetch.records, SameFetch q q' := by
  unfold offerFetch
  split
  · exact ⟨q, mem, rfl⟩
  · dsimp only
    split_ifs
    · refine ⟨_, List.mem_map_of_mem (a := q) ?_, ?_⟩
      · simpa [State.ownAppend] using mem
      · split_ifs <;> rfl
    · exact ⟨q, mem, rfl⟩

theorem hear_lastId {e : StationId} {p : Port} : (hear e p s).fetch.lastId = s.fetch.lastId := by
  unfold hear
  dsimp only
  split_ifs
  · rfl
  · exact foldl_keeps (fun t : State => t.fetch.lastId) _ (fun _ _ => by split_ifs <;> simp [offerFetch_lastId]) _ _

theorem createRecord_kept {first count reAsk : Nat} {waiting : List Nat} : ∃ q ∈
    (createRecord u first count reAsk waiting s).fetch.records,
    SameFetch { id := nextId s.fetch.lastId, unit := u, first, count, reAsk, waiting } q :=
  offerFetch_kept (by simp)

theorem createRecord_issue {first count reAsk : Nat} {waiting : List Nat} :
    (createRecord u first count reAsk waiting s).fetch.issue = s.fetch.issue := offerFetch_issue

theorem le_foldl_max : ∀ (l : List Nat) (a : Nat), a ≤ l.foldl max a ∧ ∀ k ∈ l, k ≤ l.foldl max a
  | [], _ => ⟨le_rfl, by simp⟩
  | k :: l, a => by
    obtain ⟨first, all⟩ := le_foldl_max l (max a k)
    refine ⟨(le_max_left a k).trans first, fun j mem => ?_⟩
    rcases List.mem_cons.mp mem with rfl | mem
    · exact (le_max_right a j).trans first
    · exact all j mem

theorem mem_spanOf {k : Nat} {l : List Nat} (mem : k ∈ b :: l) : k ∈ spanOf b l := by
  obtain ⟨low, lows⟩ := foldl_min_le l b
  obtain ⟨high, highs⟩ := le_foldl_max l b
  have between : l.foldl min b ≤ k ∧ k ≤ l.foldl max b := by
    rcases List.mem_cons.mp mem with rfl | mem
    · exact ⟨low, high⟩
    · exact ⟨lows k mem, highs k mem⟩
  exact List.mem_map.mpr ⟨k - l.foldl min b, List.mem_range.mpr (by omega), by omega⟩

/-- An issued fetch stands under the next identity and awaits every EMPTY block that was needed. -/
theorem issueFetch_issued {need : List Nat} (some_ : need ≠ []) (empty : ∀ k ∈ need, isEmpty (s.blockAt u k) = true) :
    (issueFetch u need s).fetch.issue = s.fetch.issue ∧ ∃ q ∈ (issueFetch u need s).fetch.records,
      q.id = nextId s.fetch.lastId ∧ q.unit = u ∧ q.reAsk = 0 ∧ ∀ k ∈ need, k ∈ q.waiting := by
  cases need with
  | nil => exact absurd rfl some_
  | cons b l =>
    have fetch (marked : List Nat) : (marked.foldl (setBlock u .pending) s).fetch = s.fetch := by
      rw [setBlocks_lines]
    have issued : issueFetch u (b :: l) s = createRecord u ((spanOf b l).headD b) (spanOf b l).length 0
      ((spanOf b l).filter fun k => isEmpty (s.blockAt u k))
      (((spanOf b l).filter fun k => isEmpty (s.blockAt u k)).foldl (setBlock u .pending) s) := rfl
    rw [issued]
    refine ⟨createRecord_issue.trans (congrArg FetchTable.issue (fetch _)), ?_⟩
    obtain ⟨q, mem, same⟩ := createRecord_kept (u := u) (first := (spanOf b l).headD b) (count := (spanOf b l).length)
      (reAsk := 0) (waiting := (spanOf b l).filter fun k => isEmpty (s.blockAt u k))
      (s := ((spanOf b l).filter fun k => isEmpty (s.blockAt u k)).foldl (setBlock u .pending) s)
    refine ⟨q, mem, ?_, by rw [same], by rw [same], fun k needed => ?_⟩
    · rw [same, fetch]
    · rw [same]
      exact List.mem_filter.mpr ⟨mem_spanOf needed, empty k needed⟩

/-- The one group that waits has its fetch issued, once a record can be had (R163). -/
theorem serveIssue_single {w : IssueEntry} (waits : s.fetch.issue = [w]) (room : s.canIssue w.unit = true)
    (some_ : s.emptyIn w.unit w.group (s.imagesOf w.unit w.prime) ≠ []) :
    (serveIssue s).fetch.issue = [] ∧ ∃ q ∈ (serveIssue s).fetch.records, q.id = nextId s.fetch.lastId ∧
      q.unit = w.unit ∧ q.reAsk = 0 ∧ ∀ k ∈ s.emptyIn w.unit w.group (s.imagesOf w.unit w.prime), k ∈ q.waiting := by
  have served : serveIssue s = issueFetch w.unit (s.emptyIn w.unit w.group (s.imagesOf w.unit w.prime))
      (leaveIssue (fun x => decide (x = w)) s) := by
    rw [serveIssue, waits, List.foldl_cons, List.foldl_nil, serveEntry]
    rw [if_neg (by simpa using some_), if_pos room]
  obtain ⟨issue, issued⟩ := issueFetch_issued (u := w.unit) (s := leaveIssue (fun x => decide (x = w)) s) some_
    fun k mem => by
      have := (List.mem_filter.mp mem).2
      simp only [Bool.and_eq_true] at this
      exact this.2
  rw [served]
  refine ⟨issue.trans ?_, issued⟩
  simp [leaveIssue, waits]

/-! ## The record of an accepted block -/

/-- The state with a block stored and out of its record, before the record may be freed. -/
def blockTaken (u : UnitId) (id : BitVec 16) (b : Nat) (data : Block) (s : State) : State :=
  (unpend id [b] (setBlock u (.valid data) s b)).countUnit u fun c => { c with accepted := bump c.accepted }

theorem blockStored_taken : blockStored u id b data s = freeIfEmpty id (blockTaken u id b data s) := rfl

theorem blockTaken_fetch : (blockTaken u id b data s).fetch = (unpend id [b] s).fetch := rfl

/-- A record that awaits more blocks than the accepted one. -/
theorem blockStored_more (recorded : r ∈ s.fetch.records) (here : r.id = id)
    (alone : ∀ r' ∈ s.fetch.records, r'.id = id → r' = r) (more : ∃ k ∈ r.waiting, k ≠ b) :
    (blockStored u id b data s).fetch.records = s.fetch.records.map fun x =>
      if x.id = id then { r with waiting := r.waiting.filter fun k => decide (k ≠ b) } else x := by
  have left : (r.waiting.filter fun k => !([b].contains k)) = r.waiting.filter fun k => decide (k ≠ b) :=
    List.filter_congr fun k _ => by simp
  have awaits : ¬ Exhausted id (blockTaken u id b data s) := by
    intro done
    have gone := (unpend_exhausted (bs := [b]) recorded here alone).mp done
    obtain ⟨k, mem, ne⟩ := more
    rw [left] at gone
    exact List.not_mem_nil (gone ▸ List.mem_filter.mpr ⟨mem, by simpa using ne⟩)
  rw [blockStored_taken, freeIfEmpty_awaits awaits, blockTaken_fetch, unpend_records alone, left]

theorem blockTaken_exhausted (recorded : r ∈ s.fetch.records) (here : r.id = id)
    (alone : ∀ r' ∈ s.fetch.records, r'.id = id → r' = r) (last : ¬ ∃ k ∈ r.waiting, k ≠ b) :
    Exhausted id (blockTaken u id b data s) := by
  refine (unpend_exhausted (bs := [b]) recorded here alone).mpr (List.filter_eq_nil_iff.mpr fun k mem => ?_)
  by_contra ne
  exact last ⟨k, mem, by simpa using ne⟩

theorem removed_records : (removeRecord id (blockTaken u id b data s)).fetch.records =
    s.fetch.records.filter fun x => decide (x.id ≠ id) := unpend_others

/-- A record that awaited the accepted block alone is freed. -/
theorem blockStored_last (done : Exhausted id (blockTaken u id b data s)) (none_ : s.fetch.issue = []) :
    (blockStored u id b data s).fetch.records = s.fetch.records.filter fun x => decide (x.id ≠ id) := by
  rw [blockStored_taken, freeIfEmpty_exhausted (by exact none_) done, removed_records]

theorem imagesOf_congr {prime : Bool} (images : (t.unit v).primeImages = (s.unit v).primeImages)
    (bound : (t.unit v).slot = (s.unit v).slot) (slots : ∀ j, t.slot j = s.slot j) :
    t.imagesOf v prime = s.imagesOf v prime := by
  unfold State.imagesOf
  rw [images, bound]
  cases (s.unit v).slot with
  | none => rfl
  | some j =>
    dsimp only
    rw [slots]

/-- A record that is freed lets the one group go on that waits for it. -/
theorem blockStored_serves {w : IssueEntry} (done : Exhausted id (blockTaken u id b data s))
    (pending : s.blockAt u b = .pending) (waits : s.fetch.issue = [w])
    (room : (s.fetch.records.filter fun x => decide (x.id ≠ id)).length < 16)
    (each : ((s.fetch.records.filter fun x => decide (x.id ≠ id)).filter fun x => decide (x.unit = w.unit)).length < 4)
    (some_ : s.emptyIn w.unit w.group (s.imagesOf w.unit w.prime) ≠ []) :
    (blockStored u id b data s).fetch.issue = [] ∧ ∃ q ∈ (blockStored u id b data s).fetch.records,
      q.id = nextId s.fetch.lastId ∧ q.unit = w.unit ∧ q.reAsk = 0 ∧
      ∀ k ∈ s.emptyIn w.unit w.group (s.imagesOf w.unit w.prime), k ∈ q.waiting := by
  set y := removeRecord id (blockTaken u id b data s) with removed
  have unit (v : UnitId) : (y.unit v).primeImages = (s.unit v).primeImages ∧ (y.unit v).slot = (s.unit v).slot := by
    rw [show y.unit v = (blockTaken u id b data s).unit v from rfl, blockTaken, State.countUnit, modUnit_unit]
    split_ifs <;> exact ⟨rfl, rfl⟩
  have images : y.imagesOf w.unit w.prime = s.imagesOf w.unit w.prime :=
    imagesOf_congr (unit _).1 (unit _).2 fun _ => rfl
  have empties (v : UnitId) (k : Nat) : isEmpty (y.blockAt v k) = isEmpty (s.blockAt v k) := by
    refine Eq.trans (b := isEmpty ((setBlock u (.valid data) s b).blockAt v k)) rfl ?_
    rw [setBlock_blockAt]
    split_ifs with same
    · obtain ⟨rfl, rfl, -⟩ := same
      rw [pending]
      rfl
    · rfl
  have need : y.emptyIn w.unit w.group (y.imagesOf w.unit w.prime) =
      s.emptyIn w.unit w.group (s.imagesOf w.unit w.prime) := by
    rw [images, State.emptyIn, State.emptyIn]
    exact List.filter_congr fun k _ => by rw [empties]
  have can : y.canIssue w.unit = true := by
    rw [State.canIssue, removed, removed_records]
    simp only [Bool.and_eq_true, decide_eq_true_eq]
    exact ⟨room, each⟩
  obtain ⟨issue, q, mem, qid, unit, reAsk, waiting⟩ := serveIssue_single (s := y) waits can (by rw [need]; exact some_)
  rw [need] at waiting
  have stored : blockStored u id b data s = serveIssue y := if_pos (exhausted_iff.mpr done)
  rw [stored]
  exact ⟨issue, q, mem, qid, unit, reAsk, waiting⟩

end Sys2Proof.Machine
end

section
/-! PROOFS. BLOCK_DATA that is accepted (R113, R116, R152, R156, R158, R163, R167). -/

namespace Sys2Proof.Machine

open Sys2Proof

variable {s t z y : State} {u v : UnitId} {i : SlotId} {r : FetchRecord} {id : BitVec 16} {b k : Nat} {data : Block}

/-- The read of a unit has been told that a block is ready. -/
def readTold (u : UnitId) (s : State) : State :=
  match (s.unit u).slot with
  | some i => pumpRead i u s
  | none => s

/-- What a delivery to the port of a unit leaves, wherever the unit is bound. -/
structure ReadTold (u : UnitId) (s t : State) : Prop where
  unit : t.unit u = { s.unit u with counters := { (s.unit u).counters with
    delivered := (t.unit u).counters.delivered, readsGood := (t.unit u).counters.readsGood } }
  others : ∀ v, v ≠ u → t.unit v = s.unit v
  records : t.fetch.records = s.fetch.records
  issue : s.fetch.issue = [] → t.fetch.issue = []
  blocks : t.blockAt u = s.blockAt u
  number : t.noticeNumber = s.noticeNumber
  tables : t.tables = s.tables
  inrush : t.inrush = s.inrush
  slot : ∀ j, ∃ p, t.slot j = withPort p (s.slot j)

theorem readTold_told (presents : (s.unit u).state = .presenting) : ReadTold u s (readTold u s) := by
  unfold readTold
  cases bound : (s.unit u).slot with
  | none => exact ⟨rfl, fun _ _ => rfl, rfl, fun h => h, rfl, rfl, rfl, rfl, fun j => ⟨(s.slot j).port, rfl⟩⟩
  | some i =>
    have pumped := pumpRead_pumped (i := i) presents
    refine ⟨pumped.unit, pumped.others, pumped.records, pumped.issue, pumped.blocks, ?_, ?_, ?_, fun j => ?_⟩
    · exact (congrArg State.noticeNumber pumped.frame).trans rfl
    · exact (congrArg State.tables pumped.frame).trans rfl
    · exact (congrArg State.inrush pumped.frame).trans rfl
    · dsimp only
      rw [pumped.frame, slot_mediaOf, modSlot_slot]
      split_ifs
      · exact ⟨_, rfl⟩
      · exact ⟨(s.slot j).port, rfl⟩

theorem isValid_ready : isValid (s.blockAt u k) = (s.ready u (.image k)).isSome := by
  unfold State.ready
  dsimp only
  cases s.blockAt u k <;> rfl

theorem blockStored_isValid (line : (s.line u (b / 8)).isSome = true) :
    isValid ((blockStored u id b data s).blockAt u k) = true ↔ k = b ∨ isValid (s.blockAt u k) = true := by
  rw [isValid_ready, blockStored_ready line, isValid_ready]
  by_cases same : k = b
  · rw [if_pos (congrArg Source.image same)]
    exact iff_of_true rfl (.inl same)
  · rw [if_neg fun eq => same (by cases eq; rfl)]
    exact ⟨.inr, fun h => h.resolve_left same⟩

/-- A prime that is DONE and whose end no GATE waits for, wherever the unit is bound. -/
theorem endPrime_idle {good : Bool} (idle : ∀ i, (s.unit u).slot = some i → (s.slot i).seq.state ≠ .waitGate) :
    endPrime u good s = (primeEnded u good s).notify (s.unit u).slot (.mediaState u (s.unit u).state
      (if good then .primed else .primeFailed) none (heldCount (s.unit u))) := by
  cases bound : (s.unit u).slot with
  | some i =>
    rw [endPrime_unheard bound (idle i bound), primeNotice, ← notify_mediaOf, ← primeEnded_frame]
  | none =>
    have ended : endPrime u good s = reportPrime u good (primeEnded u good s) := rfl
    rw [ended, reportPrime, primeEnded_unit]
    dsimp only [primedUnit]
    rw [bound]
    dsimp only
    rw [mediaNotice, primeEnded_unit]
    rfl

/-- What an accepted block leaves, before a prime may end. -/
structure BlockLeft (u : UnitId) (s t : State) : Prop where
  unit : ∃ c, t.unit u = { s.unit u with counters := c } ∧ c.accepted = bump (s.unit u).counters.accepted
  states : ∀ v, (t.unit v).slot = (s.unit v).slot ∧ (t.unit v).state = (s.unit v).state
  slot : ∀ j, ∃ p, t.slot j = withPort p (s.slot j)
  number : t.noticeNumber = s.noticeNumber
  tables : t.tables = s.tables
  inrush : t.inrush = s.inrush

theorem blockLeft_stored {e : StationId} {p : Port} (presents : (s.unit u).state = .presenting) :
    let y := blockStored u id b data (hear e p s)
    BlockLeft u s (readTold u y) ∧ ReadTold u y (readTold u y) := by
  intro y
  have move : FetchMove (fun _ => True) (hear e p s) y := blockStored_move
  have heard (v : UnitId) : (hear e p s).unit v = { s.unit v with
      counters := { (s.unit v).counters with fetches := ((hear e p s).unit v).counters.fetches } } := hear_counts.unit v
  have stored := blockStored_unit (u := u) (id := id) (b := b) (data := data) (s := hear e p s)
  have told : ReadTold u y (readTold u y) := readTold_told (by rw [stored, heard]; exact presents)
  have kept (v : UnitId) : (y.unit v).slot = (s.unit v).slot ∧ (y.unit v).state = (s.unit v).state :=
    ⟨(move.units v).slot.trans (by rw [heard]), (move.units v).state.trans (by rw [heard])⟩
  have counted : ∃ c, y.unit u = { s.unit u with counters := c } ∧ c.accepted = bump (s.unit u).counters.accepted := by
    rw [heard u] at stored
    exact ⟨_, stored, rfl⟩
  have counted' : ∃ c, (readTold u y).unit u = { s.unit u with counters := c } ∧
      c.accepted = bump (s.unit u).counters.accepted := by
    obtain ⟨c, eq, accepted⟩ := counted
    have unit := told.unit
    rw [eq] at unit
    exact ⟨_, unit, accepted⟩
  refine ⟨⟨counted', fun v => ?_, fun j => ?_, told.number.trans ?_, told.tables.trans ?_,
    told.inrush.trans ?_⟩, told⟩
  · by_cases same : v = u
    · rw [same, told.unit]
      exact kept u
    · rw [told.others v same]
      exact kept v
  · obtain ⟨q, eq⟩ := told.slot j
    exact ⟨q, eq.trans (congrArg (withPort q) ((move.slot j).trans hear_slot))⟩
  · exact (congrArg State.noticeNumber move.frame).trans hear_noticeNumber
  · exact (congrArg State.tables move.frame).trans hear_tables
  · exact (congrArg State.inrush move.frame).trans hear_inrush

end Sys2Proof.Machine
end

section
/-! PROOFS. BLOCK_DATA that is accepted, to the end of the prime (R113, R116, R156, R158, R167). -/

namespace Sys2Proof.Machine

open Sys2Proof

variable {s t z y : State} {u v : UnitId} {i : SlotId} {r : FetchRecord} {id : BitVec 16} {b k : Nat} {data : Block}

/-- What of an accepted block the end of a prime leaves as it was. -/
structure PrimeBeside (u : UnitId) (s t : State) : Prop where
  blocks : t.blockAt u = s.blockAt u
  accepted : (t.unit u).counters.accepted = (s.unit u).counters.accepted
  number : t.noticeNumber = s.noticeNumber
  records : t.fetch.records = s.fetch.records
  issue : s.fetch.issue = [] → t.fetch.issue = []
  slot : ∀ j, t.slot j = s.slot j

theorem primeBeside_refl : PrimeBeside u s s := ⟨rfl, rfl, rfl, rfl, fun h => h, fun _ => rfl⟩

theorem primeEnded_beside {good : Bool} : PrimeBeside u s (primeEnded u good s) where
  blocks := primeEnded_blockAt
  accepted := by
    rw [primeEnded_unit]
    rfl
  number := (congrArg State.noticeNumber primeEnded_frame).trans rfl
  records := primeEnded_records
  issue := primeEnded_issue
  slot j := (congrArg (fun y : State => y.slot j) primeEnded_frame).trans rfl

/-- A prime that runs comes to DONE with the accepted block once every other block that it covers is VALID. -/
theorem primeReady_told {m : MediaUnit} (told : ReadTold u (blockStored u id b data s) (readTold u (blockStored u id b data s)))
    (line : (s.line u (b / 8)).isSome = true)
    (unit : ∃ c, (readTold u (blockStored u id b data s)).unit u = { m with counters := c }) :
    ((readTold u (blockStored u id b data s)).unit u).prime = .running ∧
        (readTold u (blockStored u id b data s)).primeReady u = true ↔
      m.prime = .running ∧ ∀ k ∈ m.primeImages, k = b ∨ isValid (s.blockAt u k) = true := by
  obtain ⟨c, unit⟩ := unit
  rw [State.primeReady, told.blocks, unit]
  simp only [List.all_eq_true, blockStored_isValid line]

/-- Settles O48. -/
theorem blockAccepted : Obligations.BlockAccepted := by
  unfold Obligations.BlockAccepted
  intro h e u id block check data r s heard presents station record alone waits good line s1 b m ready more left cmd taken
    completes primed ends
  obtain ⟨blockLeft, told⟩ := blockLeft_stored (id := id) (b := b) (data := data) (e := e) (p := h.port) presents
  have exec_ : exec cmd s = .next (checkPrime u (readTold u (blockStored u id b data s1))) :=
    exec_blockAccepted heard station record waits good
  have recorded : r ∈ s1.fetch.records := List.mem_of_find?_eq_some record
  have here : r.id = id := by
    have := List.find?_some record
    simp only [Bool.and_eq_true, decide_eq_true_eq] at this
    exact this.1
  have blocks1 (v : UnitId) (k : Nat) : s1.blockAt v k = s.blockAt v k := by
    rw [State.blockAt, State.blockAt, State.line, State.line, hear_cache]
  have line1 : (s1.line u (b / 8)).isSome = true := by
    rw [State.line, hear_cache]
    exact line
  have unit1 (v : UnitId) : s1.unit v = { s.unit v with
      counters := { (s.unit v).counters with fetches := (s1.unit v).counters.fetches } } := hear_counts.unit v
  have slot1 (j : SlotId) : s1.slot j = s.slot j := hear_slot
  have readyY (x : Source) : (blockStored u id b data s1).ready u x = ready x := by
    have same : s1.ready u = s.ready u := ready_congr (blocks1 u) (by rw [unit1])
    rw [blockStored_ready line1, same]
  have presentsY : ((blockStored u id b data s1).unit u).state = .presenting := by
    rw [blockStored_unit, unit1]
    exact presents
  have slotY : ((blockStored u id b data s1).unit u).slot = m.slot := by
    rw [blockStored_unit, unit1]
  have slotsY (j : SlotId) : (blockStored u id b data s1).slot j = s.slot j := blockStored_move.slot j |>.trans (slot1 j)
  have holds : ∀ t, PrimeBeside u (readTold u (blockStored u id b data s1)) t → taken t := by
    intro t beside
    obtain ⟨c, unit, accepted⟩ := blockLeft.unit
    refine ⟨?_, beside.accepted.trans (by rw [unit]; exact accepted), beside.number.trans blockLeft.number, fun more_ => ?_,
      fun last none_ => ?_, ?_, ?_⟩
    · rw [beside.blocks, told.blocks]
      exact blockStored_blockAt line1
    · exact (beside.records.trans told.records).trans (blockStored_more recorded here alone more_)
    · exact (beside.records.trans told.records).trans
        (blockStored_last (blockTaken_exhausted recorded here alone last) (hear_issue.trans none_))
    · intro w last pending one room each need some_
      have same : s1.emptyIn w.unit w.group (s1.imagesOf w.unit w.prime) = need := by
        rw [imagesOf_congr (s := s) (by rw [unit1]) (by rw [unit1]) slot1, State.emptyIn]
        exact List.filter_congr fun k _ => by rw [blocks1]
      obtain ⟨issue, q, mem, facts⟩ := blockStored_serves (blockTaken_exhausted recorded here alone last)
        ((blocks1 u b).trans pending) (hear_issue.trans one) room each (by rw [same]; exact some_)
      rw [same, hear_lastId] at facts
      refine ⟨beside.issue (told.issue issue), q, ?_, facts⟩
      rw [beside.records, told.records]
      exact mem
    · intro i lba sent rest images ds bound flight all stop out
      have pumped : readTold u (blockStored u id b data s1) = pumpRead i u (blockStored u id b data s1) := by
        rw [readTold, slotY, bound]
      rw [beside.slot, pumped, pumpRead_port presentsY (by rw [slotsY]; exact flight)
        ((List.map_congr_left fun x _ => readyY x).trans all) (fun x first => (readyY x).trans (stop x first)), slotsY]
  have unit_ : ∃ c, (readTold u (blockStored u id b data s1)).unit u = { m with counters := c } := by
    obtain ⟨c, unit, -⟩ := blockLeft.unit
    exact ⟨c, unit⟩
  have primeDone : completes → checkPrime u (readTold u (blockStored u id b data s1)) =
      endPrime u true (readTold u (blockStored u id b data s1)) := fun all =>
    if_pos ((primeReady_told told line1 unit_).mpr ⟨all.1, fun k mem => (all.2 k mem).imp (fun eq => eq)
      fun valid => by rw [blocks1]; exact valid⟩)
  have goes : ∀ j, ∃ p, (readTold u (blockStored u id b data s1)).slot j = withPort p (s.slot j) := blockLeft.slot
  refine ⟨fun open_ => ?_, fun all idle => ?_, fun i q all bound waits_ free => ?_⟩
  · obtain ⟨c, unit⟩ := unit_
    have stays : checkPrime u (readTold u (blockStored u id b data s1)) = readTold u (blockStored u id b data s1) :=
      if_neg fun done => open_ (by
        obtain ⟨running, all⟩ := (primeReady_told told line1 ⟨c, unit⟩).mp done
        exact ⟨running, fun k mem => (all k mem).imp (fun eq => eq) fun valid => by rw [← blocks1]; exact valid⟩)
    rw [stays] at exec_
    exact ⟨_, exec_, holds _ primeBeside_refl, by rw [unit], by rw [unit]⟩
  · obtain ⟨c, unit⟩ := unit_
    have ended := endPrime_idle (good := true) (s := readTold u (blockStored u id b data s1)) (u := u) fun i bound => by
      obtain ⟨p, slot⟩ := goes i
      rw [slot]
      exact idle i (by rw [← bound, unit])
    rw [primeDone all, ended, unit, show m.state = .presenting from presents] at exec_
    refine ⟨_, exec_, holds _ primeEnded_beside, ?_, ?_⟩
    all_goals rw [primeEnded_unit]; rfl
  · obtain ⟨c, unit⟩ := unit_
    have passed := endPrime_passed (u := u) (i := i) (r := q) (s := readTold u (blockStored u id b data s1))
      (by rw [unit]; exact bound) (WaitsAtGate.of waits_ (goes i) blockLeft.inrush blockLeft.tables)
      (BootsFree.of free (fun v => (blockLeft.states v).1) (fun v here => (blockLeft.states v).2.symm.trans here)
        blockLeft.tables)
    have noticed : mediaOf (primeEnded u true (readTold u (blockStored u id b data s1)))
        (primeNotice u i true (readTold u (blockStored u id b data s1))) =
        primed (primeEnded u true (readTold u (blockStored u id b data s1))) := by
      rw [primeNotice, ← notify_mediaOf, ← primeEnded_frame, unit, ← bound, show m.state = .presenting from presents]
      rfl
    rw [primeDone all, passed, ← gatePassed_mediaOf, noticed] at exec_
    refine ⟨_, exec_, holds _ primeEnded_beside, ?_, ?_⟩
    all_goals rw [primeEnded_unit]; rfl

end Sys2Proof.Machine
end

section
/-! PROOFS. What a requester's groups leave of the units and the ports, and how they stand behind a reply
(R160 to R165, R193). -/

namespace Sys2Proof.Machine

open Sys2Proof

variable {A : UnitId → Prop} {s t z : State} {u v : UnitId} {g : Nat} {prime : Bool} {images : List Nat} {p : Port}

/-! ## One group of a requester (R160, R161) -/

/-- The line of a group, found or taken, at the most recent end and pinned. -/
def lineReady (u : UnitId) (g : Nat) (s : State) : State :=
  (if (s.line u g).isSome then touch u g s else takeLine u g s).modLine u g fun l => { l with pins := l.pins + 1 }

theorem requestGroup_eq : requestGroup u prime images s g =
    let z := lineReady u g s
    let need := z.emptyIn u g images
    if need.isEmpty then z
    else if z.canIssue u then issueFetch u need z
    else joinIssue { unit := u, group := g, prime } z := rfl

theorem takeLine_frame : takeLine u g s = { s with
    cache := (takeLine u g s).cache, fetch := { s.fetch with counters := (takeLine u g s).fetch.counters } } := by
  unfold takeLine
  dsimp only
  split_ifs
  · rfl
  · split <;> rfl

theorem lineReady_frame : lineReady u g s = { s with
    cache := (lineReady u g s).cache, fetch := { s.fetch with counters := (lineReady u g s).fetch.counters } } := by
  unfold lineReady
  split_ifs
  · rfl
  · rw [takeLine_frame]
    rfl

theorem lineReady_port : (lineReady u g s).port p = s.port p := by
  rw [lineReady_frame]
  cases p <;> rfl

theorem joinIssue_frame {e : IssueEntry} : joinIssue e s = { s with fetch := (joinIssue e s).fetch } := by
  unfold joinIssue
  split_ifs <;> rfl

/-! ## Units (R165) -/

theorem requestGroup_counts (asks : A u) : FetchCounts A s (requestGroup u prime images s g) := by
  have lined : FetchCounts A s (lineReady u g s) := fetchCounts_units (by rw [lineReady_frame])
  rw [requestGroup_eq]
  dsimp only
  split_ifs
  · exact lined
  · exact lined.trans (issueFetch_counts asks)
  · exact lined.trans (fetchCounts_units (by rw [joinIssue_frame]))

theorem handOver_counts (asks : A u) : FetchCounts A s (handOver u prime images s) :=
  FetchCounts.foldl (fun _ _ => requestGroup_counts asks) _ s

/-! ## Ports (R188) -/

theorem issueFetch_port {need : List Nat} : Grows (s.port p) ((issueFetch u need s).port p) := by
  unfold issueFetch
  cases need with
  | nil => exact grows_refl _
  | cons b l =>
    have kept (marked : List Nat) : (marked.foldl (setBlock u .pending) s).port p = s.port p := by
      rw [setBlocks_lines]
      cases p <;> rfl
    refine grows_trans (y := (((spanOf b l).filter fun k => isEmpty (s.blockAt u k)).foldl (setBlock u .pending) s).port p)
      (by rw [kept]; exact grows_refl _) ?_
    exact grows_trans (by cases p <;> exact grows_refl _) offerFetch_port

theorem requestGroup_port : Grows (s.port p) ((requestGroup u prime images s g).port p) := by
  rw [requestGroup_eq]
  dsimp only
  split_ifs
  · rw [lineReady_port]
    exact grows_refl _
  · exact grows_trans (by rw [lineReady_port]; exact grows_refl _) issueFetch_port
  · rw [joinIssue_frame]
    refine grows_trans (y := (lineReady u g s).port p) (by rw [lineReady_port]; exact grows_refl _) ?_
    cases p <;> exact grows_refl _

theorem handOver_port : Grows (s.port p) ((handOver u prime images s).port p) := by
  have each : ∀ (l : List Nat) (t : State), Grows (t.port p) ((l.foldl (requestGroup u prime images) t).port p) := by
    intro l
    induction l with
    | nil => exact fun t => grows_refl _
    | cons g l ih => exact fun t => grows_trans requestGroup_port (ih _)
  exact each _ s

/-! ## Behind a reply (R193) -/

theorem behind_takeLine : Behind (takeLine u g) := by
  refine Behind.read (read := (·.cache)) (fun p _ _ _ _ => by cases p <;> rfl)
    (F := fun c s => if c.length < 256 then { s with cache := c ++ [{ unit := u, group := g }] }
      else match c.find? replaceable with
        | some v => ({ s with cache := c.filter (fun l => !isLine v.unit v.group l) ++ [{ unit := u, group := g }] } :
            State).countFetch fun c => { c with replacements := bump c.replacements }
        | none => s) fun c => ?_
  by_cases room : c.length < 256
  · simp only [if_pos room]
    exact behind_cache (f := fun _ => c ++ [{ unit := u, group := g }])
  · simp only [if_neg room]
    cases c.find? replaceable with
    | none => exact behind_id
    | some v =>
      exact Behind.comp (F := fun s : State => s.countFetch fun c => { c with replacements := bump c.replacements })
        (behind_fetch (f := fun t => { t with counters := { t.counters with replacements := bump t.counters.replacements } }))
        (behind_cache (f := fun _ => c.filter (fun l => !isLine v.unit v.group l) ++ [{ unit := u, group := g }]))

theorem behind_lineReady : Behind (lineReady u g) := by
  refine Behind.comp (F := fun s => s.modLine u g fun l => { l with pins := l.pins + 1 })
    (G := fun s => if (s.line u g).isSome = true then touch u g s else takeLine u g s) behind_cache ?_
  exact behind_ite (c := fun s => (s.line u g).isSome) (fun p _ _ _ _ => by cases p <;> rfl)
    (behind_cache (f := fun c => c.filter (fun l => !isLine u g l) ++ c.filter (isLine u g))) behind_takeLine

theorem behind_joinIssue {e : IssueEntry} : Behind (joinIssue e) := by
  have eq : joinIssue e = fun s => if decide (e ∈ s.fetch.issue) = true then s
      else { s with fetch := { s.fetch with issue := s.fetch.issue ++ [e] } } := by
    funext s
    simp [joinIssue]
  rw [eq]
  exact behind_ite (c := fun s => decide (e ∈ s.fetch.issue)) (fun p _ _ _ _ => by cases p <;> rfl) behind_id
    (behind_fetch (f := fun t => { t with issue := t.issue ++ [e] }))

theorem behind_requestGroup : Behind fun s => requestGroup u prime images s g := by
  refine Behind.comp (F := fun z => if (z.emptyIn u g images).isEmpty then z
    else if z.canIssue u then issueFetch u (z.emptyIn u g images) z else joinIssue { unit := u, group := g, prime } z)
    ?_ behind_lineReady
  refine Behind.read (read := fun z => z.emptyIn u g images) (fun p _ _ _ _ => by cases p <;> rfl)
    (F := fun need z => if need.isEmpty then z
      else if z.canIssue u then issueFetch u need z else joinIssue { unit := u, group := g, prime } z) fun need => ?_
  cases need.isEmpty
  · exact behind_ite (c := fun z => z.canIssue u) (fun p _ _ _ _ => by cases p <;> rfl) behind_issueFetch behind_joinIssue
  · exact behind_id

theorem behind_handOver : Behind (handOver u prime images) := behind_foldl (fun _ => behind_requestGroup) _

end Sys2Proof.Machine
end

section
/-! PROOFS. MEDIA_BIND and the start of the prime (R139, R156, R158). -/

namespace Sys2Proof.Machine

open Sys2Proof

variable {s t y z : State} {u v : UnitId} {i : SlotId} {e : StationId} {h : Header} {a : Addr} {prime : PrimeState}

/-! ## What resolution reads (R146, R147) -/

theorem capacity_congr (tables : t.tables = s.tables) : t.capacity u = s.capacity u := by
  rw [State.capacity, State.capacity, State.regions, State.regions, tables]

theorem resolve_congr {k : Nat} (tables : t.tables = s.tables) (overlay : (t.unit u).overlay = (s.unit u).overlay) :
    t.resolve u k = s.resolve u k := by
  rw [State.resolve, State.resolve, State.regionAt, State.regionAt, State.regions, State.regions, tables, overlay]

theorem resolveAll_congr (tables : t.tables = s.tables) (overlay : (t.unit u).overlay = (s.unit u).overlay) :
    ∀ n k, t.resolveAll u k n = s.resolveAll u k n
  | 0, _ => rfl
  | n + 1, k => by
    rw [State.resolveAll, State.resolveAll, resolve_congr tables overlay, resolveAll_congr tables overlay n]

/-! ## The binding (R139) -/

/-- A unit that has just been bound, its prime in some state. -/
def boundUnit (i : SlotId) (e : StationId) (a : Addr) (boots : Nat) (prime : PrimeState) (m : MediaUnit) : MediaUnit :=
  { m with slot := some i, station := some (e, a), bootsLeft := boots, mediumChanged := true, state := .presenting, prime }

/-- The covered image blocks of a unit whose prime runs. -/
def primeOver (xs : List Source) (m : MediaUnit) : MediaUnit := { m with primeImages := imagesIn xs }

/-- A MEDIA_STATE notice of the unit as it presents. -/
def presentTold (u : UnitId) (i : SlotId) (held : Nat) (ev : MediaEvent) (s : State) : State :=
  s.notify (some i) (.mediaState u .presenting ev none held)

/-- The binding whose prime ends at once, with its notices. -/
def boundAtOnce (u : UnitId) (i : SlotId) (held : Nat) (ev : MediaEvent) (f : MediaUnit → MediaUnit) (s : State) : State :=
  presentTold u i held ev (presentTold u i held .bound (s.modUnit u f))

/-- The binding whose prime runs, with its notice. -/
def boundRunning (u : UnitId) (i : SlotId) (held : Nat) (xs : List Source) (f : MediaUnit → MediaUnit) (s : State) : State :=
  presentTold u i held .bound (handOver u true (imagesIn xs) (s.modUnit u fun m => primeOver xs (f m)))

theorem behind_boundAtOnce {held : Nat} {ev : MediaEvent} {f : MediaUnit → MediaUnit} :
    Behind (boundAtOnce u i held ev f) := behind_notify.comp (behind_notify.comp behind_modUnit)

theorem behind_boundRunning {held : Nat} {xs : List Source} {f : MediaUnit → MediaUnit} :
    Behind (boundRunning u i held xs f) := behind_notify.comp (behind_handOver.comp behind_modUnit)

theorem reportPrime_idle {good : Bool} (bound : (s.unit u).slot = some i) (idle : (s.slot i).seq.state ≠ .waitGate) :
    reportPrime u good s = s.notify (some i) (.mediaState u (s.unit u).state (if good then .primed else .primeFailed) none
      (heldCount (s.unit u))) := by
  rw [reportPrime, bound]
  dsimp only
  rw [gateReport, mediaNotice, notify_slot, if_neg idle]

section

variable {boots : Nat}

theorem boundUnit_unit : (y.modUnit u (boundUnit i e a boots prime)).unit u = boundUnit i e a boots prime (y.unit u) :=
  modUnit_unit_same

/-- The notice of a bind, and the report of a prime that ended with it. -/
theorem reportStart_atOnce {ev : MediaEvent} (ended : prime = .done ∧ ev = .primed ∨ prime = .failed ∧ ev = .primeFailed)
    (idle : (y.slot i).seq.state ≠ .waitGate) :
    reportStart u (mediaNotice u (some i) .bound none (y.modUnit u (boundUnit i e a boots prime))) =
      boundAtOnce u i (heldCount (y.unit u)) ev (boundUnit i e a boots prime) y := by
  have noticed : mediaNotice u (some i) .bound none (y.modUnit u (boundUnit i e a boots prime)) =
      presentTold u i (heldCount (y.unit u)) .bound (y.modUnit u (boundUnit i e a boots prime)) := by
    rw [mediaNotice, boundUnit_unit]
    rfl
  have unit : (presentTold u i (heldCount (y.unit u)) .bound (y.modUnit u (boundUnit i e a boots prime))).unit u =
      boundUnit i e a boots prime (y.unit u) := notify_unit.trans boundUnit_unit
  have report (good : Bool) : reportPrime u good (presentTold u i (heldCount (y.unit u)) .bound
      (y.modUnit u (boundUnit i e a boots prime))) = boundAtOnce u i (heldCount (y.unit u))
        (if good then .primed else .primeFailed) (boundUnit i e a boots prime) y := by
    rw [reportPrime_idle (i := i) (by rw [unit]; rfl) (by rw [presentTold, notify_slot]; exact idle), unit]
    rfl
  rw [noticed, reportStart, unit]
  rcases ended with ⟨rfl, rfl⟩ | ⟨rfl, rfl⟩
  · exact report true
  · exact report false

/-- A bind whose prime ends at once. -/
theorem takeBind_atOnce {ev : MediaEvent} (ended : prime = .done ∧ ev = .primed ∨ prime = .failed ∧ ev = .primeFailed)
    (idle : (y.slot i).seq.state ≠ .waitGate)
    (starts : startPrime u (bindUnit u i e h.src y) =
      y.modUnit u (boundUnit i e h.src (y.unitSetup u).presentBoots prime)) :
    takeBind h u i e y = ((.ok, .bind u .presenting i (y.unitSetup u).presentBoots (y.capacity u) prime),
      boundAtOnce u i (heldCount (y.unit u)) ev (boundUnit i e h.src (y.unitSetup u).presentBoots prime) y) := by
  have report := reportStart_atOnce (u := u) (e := e) (a := h.src) (boots := (y.unitSetup u).presentBoots) ended idle
  have unit : (boundAtOnce u i (heldCount (y.unit u)) ev (boundUnit i e h.src (y.unitSetup u).presentBoots prime) y).unit u =
      boundUnit i e h.src (y.unitSetup u).presentBoots prime (y.unit u) :=
    notify_unit.trans (notify_unit.trans boundUnit_unit)
  have cap : (boundAtOnce u i (heldCount (y.unit u)) ev (boundUnit i e h.src (y.unitSetup u).presentBoots prime) y).capacity u =
      y.capacity u := capacity_congr (notify_tables.trans (notify_tables.trans rfl))
  unfold takeBind
  rw [starts]
  dsimp only
  rw [report, unit, cap]
  rfl

theorem bindUnit_overlay : ((bindUnit u i e a y).unit u).overlay = (y.unit u).overlay := by
  unfold bindUnit
  rw [modUnit_unit_same]

theorem bindUnit_resolves {n k : Nat} : (bindUnit u i e a y).resolveAll u k n = y.resolveAll u k n :=
  resolveAll_congr (s := y) (t := bindUnit u i e a y) rfl bindUnit_overlay n k

theorem bindUnit_ready : (bindUnit u i e a y).ready u = y.ready u :=
  ready_congr (fun _ => rfl) bindUnit_overlay

theorem bindUnit_prime : (bindUnit u i e a y).modUnit u (fun m => { m with prime }) =
    y.modUnit u (boundUnit i e a (y.unitSetup u).presentBoots prime) := by
  rw [bindUnit, modUnit_modUnit]
  rfl

theorem startPrime_absent (absent : y.resolveAll u 0 (min 8 (y.capacity u)) = none) :
    startPrime u (bindUnit u i e a y) = y.modUnit u (boundUnit i e a (y.unitSetup u).presentBoots .failed) := by
  unfold startPrime
  rw [show (bindUnit u i e a y).capacity u = y.capacity u from rfl, bindUnit_resolves, absent]
  exact bindUnit_prime

theorem startPrime_done {xs : List Source} (covered : y.resolveAll u 0 (min 8 (y.capacity u)) = some xs)
    (ready : ∀ x ∈ xs, y.ready u x ≠ none) :
    startPrime u (bindUnit u i e a y) = y.modUnit u (boundUnit i e a (y.unitSetup u).presentBoots .done) := by
  unfold startPrime
  rw [show (bindUnit u i e a y).capacity u = y.capacity u from rfl, bindUnit_resolves, covered]
  dsimp only
  rw [bindUnit_ready, if_pos (by simpa [List.all_eq_true, Option.isSome_iff_ne_none] using ready)]
  exact bindUnit_prime

theorem startPrime_running {xs : List Source} (covered : y.resolveAll u 0 (min 8 (y.capacity u)) = some xs)
    (waits : ∃ x ∈ xs, y.ready u x = none) :
    startPrime u (bindUnit u i e a y) = handOver u true (imagesIn xs)
      (y.modUnit u fun m => primeOver xs (boundUnit i e a (y.unitSetup u).presentBoots .running m)) := by
  obtain ⟨x, mem, none_⟩ := waits
  unfold startPrime
  rw [show (bindUnit u i e a y).capacity u = y.capacity u from rfl, bindUnit_resolves, covered]
  dsimp only
  rw [bindUnit_ready, if_neg (by
    intro all
    have := List.all_eq_true.mp all x mem
    rw [none_] at this
    cases this), bindUnit, modUnit_modUnit]
  rfl

/-- The unit while its prime runs. -/
theorem handOver_bound {xs : List Source} {f : MediaUnit → MediaUnit} :
    (handOver u true (imagesIn xs) (y.modUnit u f)).unit u = { f (y.unit u) with
      counters := { (f (y.unit u)).counters with
        fetches := ((handOver u true (imagesIn xs) (y.modUnit u f)).unit u).counters.fetches } } := by
  have counts := (handOver_counts (A := fun _ => True) (u := u) (prime := true) (images := imagesIn xs)
    (s := y.modUnit u f) trivial).unit u
  rw [modUnit_unit_same] at counts
  exact counts

/-- A bind whose prime runs. -/
theorem takeBind_running {xs : List Source}
    (starts : startPrime u (bindUnit u i e h.src y) = handOver u true (imagesIn xs)
      (y.modUnit u fun m => primeOver xs (boundUnit i e h.src (y.unitSetup u).presentBoots .running m))) :
    takeBind h u i e y = ((.ok, .bind u .presenting i (y.unitSetup u).presentBoots (y.capacity u) .running),
      boundRunning u i (heldCount (y.unit u)) xs (boundUnit i e h.src (y.unitSetup u).presentBoots .running) y) := by
  set x := handOver u true (imagesIn xs)
      (y.modUnit u fun m => primeOver xs (boundUnit i e h.src (y.unitSetup u).presentBoots .running m)) with handed
  have unit : x.unit u = { primeOver xs (boundUnit i e h.src (y.unitSetup u).presentBoots .running (y.unit u)) with
      counters := { (y.unit u).counters with fetches := (x.unit u).counters.fetches } } := handOver_bound
  have tables : x.tables = y.tables := (handOver_move (A := fun _ => True) trivial).tables
  have noticed : mediaNotice u (some i) .bound none x = boundRunning u i (heldCount (y.unit u)) xs
      (boundUnit i e h.src (y.unitSetup u).presentBoots .running) y := by
    rw [mediaNotice, unit]
    rfl
  have unit' : (mediaNotice u (some i) .bound none x).unit u = x.unit u := notify_unit
  have report : reportStart u (mediaNotice u (some i) .bound none x) = mediaNotice u (some i) .bound none x := by
    rw [reportStart, unit', unit]
    rfl
  have cap : (mediaNotice u (some i) .bound none x).capacity u = y.capacity u :=
    capacity_congr (notify_tables.trans tables)
  unfold takeBind
  rw [starts]
  dsimp only
  rw [report, cap, unit', unit, noticed]
  rfl

end

end Sys2Proof.Machine
end

section
/-! PROOFS. MEDIA_BIND (R139, R156, R158). -/

namespace Sys2Proof.Machine

open Sys2Proof

variable {s t y z : State} {u v : UnitId} {i : SlotId} {e : StationId} {h : Header} {a : Addr} {prime : PrimeState}

/-- The rule of MEDIA_BIND. -/
def bindRule (h : Header) (slot : Byte) (e : StationId) (s : State) : Answer :=
  onUnit h (fun u s =>
    match finOf 8 slot.toNat with
    | none => refuse .range s
    | some i =>
      if !h.bodyExact then refuse .malformed s
      else if !s.holdsOn e (·.media) i then refuse .denied s
      else if (s.unit u).state ≠ .detached ∨ s.unitOf i ≠ none then
        ((.state, .bindRefused (s.unit u).state (s.unitOf i)), s)
      else takeBind h u i e s) s

theorem bindRule_takes {slot : Byte} (unit : finOf 4 h.target.toNat = some u) (names : finOf 8 slot.toNat = some i)
    (exactBody : h.bodyExact = true) (may : y.holdsOn e (·.media) i = true) (detached : (y.unit u).state = .detached)
    (free : y.unitOf i = none) : bindRule h slot e y = takeBind h u i e y := by
  rw [bindRule, onUnit, unit]
  dsimp only
  rw [names]
  simp [exactBody, may, detached, free]

/-- The frames that a port gains do not move those that it holds. -/
theorem grows_own {x y : PortState} {n : Nat} {f : OwnFrame} (grows : Grows x y) (stands : x.own[n]? = some f) :
    y.own[n]? = some f := by
  obtain ⟨l, eq⟩ := grows
  rw [eq]
  exact (List.getElem?_append_left (List.getElem?_eq_some_iff.mp stands).1).trans stands

theorem replyStands_replied {k : MsgKind} {st : Status} {d : ReplyData} :
    ReplyStands h k st d s (replied h k st d s) := by
  rw [ReplyStands, replied, State.ownAppend, modPort_port_same]
  simp

/-- Settles O44. -/
theorem bindPresents : Obligations.BindPresents := by
  unfold Obligations.BindPresents
  intro h e u i slot s taken unit names may detached unbound idle s1 cap covered bound told atOnce
  obtain ⟨-, -, -, -, exactBody⟩ := id taken
  have view : SameView i s (placed h .mediaBind (hear e h.port s)) := sameView_placed_hear
  set y := placed h .mediaBind s1 with place
  have idleY : (y.slot i).seq.state ≠ .waitGate := by rw [view.slot]; exact idle
  have overlayY : (y.unit u).overlay = (s.unit u).overlay := by rw [view.unit]
  have boots : (y.unitSetup u).presentBoots = (s.unitSetup u).presentBoots :=
    congrArg (fun t : Tables => (t.unitSetup[u]).presentBoots) view.tables
  have capY : y.capacity u = cap := capacity_congr view.tables
  have held : heldCount (y.unit u) = heldCount (s.unit u) := by rw [view.unit]; rfl
  have coveredY : y.resolveAll u 0 (min 8 (y.capacity u)) = covered := by
    rw [capY]
    exact resolveAll_congr view.tables overlayY _ _
  have readyY (x : Source) : y.ready u x = s.ready u x := by
    refine congrFun (ready_congr (fun b => ?_) overlayY) x
    rw [State.blockAt, State.blockAt, State.line, State.line, placed_cache, hear_cache]
  have takes : bindRule h slot e y = takeBind h u i e y :=
    bindRule_takes unit names exactBody (by rw [holdsOn_placed_hear]; exact may) (by rw [view.state]; exact detached)
      (by rw [view.unitOf]; exact unbound)
  have ends : ∀ prime ev, (prime = .done ∧ ev = .primed ∨ prime = .failed ∧ ev = .primeFailed) →
      startPrime u (bindUnit u i e h.src y) =
        y.modUnit u (boundUnit i e h.src (y.unitSetup u).presentBoots prime) → atOnce prime ev := by
    intro prime ev ended starts
    have answers := takes.trans (takeBind_atOnce ended idleY starts)
    rw [boots, capY, held] at answers
    exact congrArg Host.Outcome.next (request_behind taken rfl behind_boundAtOnce answers)
  refine ⟨fun absent => ends _ _ (.inr ⟨rfl, rfl⟩) (startPrime_absent (coveredY.trans absent)), fun xs some_ =>
    ⟨fun ready => ends _ _ (.inl ⟨rfl, rfl⟩) (startPrime_done (coveredY.trans some_) fun x mem => by
      rw [readyY]; exact ready x mem), fun waits => ?_⟩⟩
  obtain ⟨x, mem, none_⟩ := waits
  have answers := takes.trans (takeBind_running (startPrime_running (coveredY.trans some_) ⟨x, mem, (readyY x).trans none_⟩))
  rw [boots, capY, held] at answers
  have next := request_behind taken rfl behind_boundRunning answers
  set w := replied h .mediaBind .ok (.bind u .presenting i (s.unitSetup u).presentBoots cap .running) s1 with reply
  set f := fun m => primeOver xs (boundUnit i e h.src (s.unitSetup u).presentBoots .running m) with starting
  have move : FetchMove (fun v => v = u) (w.modUnit u f) (handOver u true (imagesIn xs) (w.modUnit u f)) := handOver_move rfl
  have unitW (v : UnitId) : w.unit v = s1.unit v := replied_unit
  refine ⟨handOver u true (imagesIn xs) (w.modUnit u f), congrArg Host.Outcome.next next, ?_, ?_, ?_, ?_, ?_, ?_, fun v ne => ?_⟩
  · exact grows_own (grows_trans (by cases h.port <;> exact grows_refl _) handOver_port) replyStands_replied
  · have same := handOver_bound (u := u) (y := w) (xs := xs) (f := f)
    rw [unitW] at same
    generalize (handOver u true (imagesIn xs) (w.modUnit u f)).unit u = x at same ⊢
    rw [same]
    rfl
  · exact move.slots.trans (replied_slots.trans hear_slots)
  · exact move.tables.trans (replied_tables.trans hear_tables)
  · exact (congrArg State.poolFree move.frame).trans (replied_poolFree.trans hear_poolFree)
  · exact (congrArg State.noticeNumber move.frame).trans (replied_noticeNumber.trans hear_noticeNumber)
  · rw [(handOver_counts (A := fun v => v = u) rfl).other v ne, modUnit_unit_ne ne, unitW]

end Sys2Proof.Machine
end

section
/-! PROOFS. A fetch asked, asked again, and offered where its station is heard (R164, R165, R169, R182, R188). -/

namespace Sys2Proof.Machine

open Sys2Proof

variable {s t y z : State} {u v : UnitId} {e : StationId} {p : Port} {r : FetchRecord}

/-! ## Offers as a station is heard (R182, R188) -/

/-- The record's media station is entry `e`, last heard through port `p`. -/
def viaHeard (e : StationId) (p : Port) (s : State) (r : FetchRecord) : Bool :=
  viaEntry e s r && decide (s.lastPorts[e] = some p)

theorem viaHeard_reached : ReachedThrough (viaHeard e p) p := by
  refine ⟨fun s t stations ports => ?_, fun s r via => ?_⟩
  · funext r
    simp only [viaHeard, viaEntry, stations, ports]
  · obtain ⟨entry, heard⟩ : viaEntry e s r = true ∧ s.lastPorts[e] = some p := by
      simpa [viaHeard] using via
    unfold viaEntry at entry
    split at entry
    · next e' a station =>
      obtain rfl : e' = e := of_decide_eq_true entry
      exact ⟨e', a, station, by rw [State.route, heard]; rfl⟩
    · cases entry

/-- What decides the offers may be read where the ports last heard stand. -/
theorem offerHeld_heard (heard : s.lastPorts[e] = some p) : offerHeld (viaEntry e) s = offerHeld (viaHeard e p) s := by
  have each : ∀ (l : List FetchRecord) (t : State), t.lastPorts = s.lastPorts →
      l.foldl (fun s r => if viaEntry e s r then offerFetch s r else s) t =
        l.foldl (fun s r => if viaHeard e p s r then offerFetch s r else s) t := by
    intro l
    induction l with
    | nil => exact fun _ _ => rfl
    | cons r l ih =>
      intro t same
      have via : viaHeard e p t r = viaEntry e t r := by
        rw [viaHeard, same, heard]
        simp
      rw [List.foldl_cons, List.foldl_cons, via]
      refine ih _ ?_
      split_ifs
      · exact offerFetch_lastPorts.trans same
      · exact same
  exact each _ s rfl

theorem hear_offered (moved : s.lastPorts[e] ≠ some p) (once : (s.fetch.records.map (·.id)).Nodup) :
    hear e p s = offered (fun r => decide ((s.unit r.unit).station.map (·.1) = some e)) p
      { s with lastPorts := upd s.lastPorts e fun _ => some p } := by
  have heard : ({ s with lastPorts := upd s.lastPorts e fun _ => some p } : State).lastPorts[e] = some p :=
    upd_same s.lastPorts e fun _ => some p
  have which : viaHeard e p { s with lastPorts := upd s.lastPorts e fun _ => some p } =
      fun r => decide ((s.unit r.unit).station.map (·.1) = some e) := by
    funext r
    rw [viaHeard, heard, viaEntry]
    rw [show ({ s with lastPorts := upd s.lastPorts e fun _ => some p } : State).unit r.unit = s.unit r.unit from rfl]
    cases (s.unit r.unit).station <;> simp
  unfold hear
  dsimp only
  rw [if_neg moved, offerHeld_heard heard, offerHeld_offered viaHeard_reached (by exact once), which]

/-! ## A new record (R164, R165) -/

/-- A record that enters under a fresh identity is offered at once. -/
theorem asked_eq (fresh : r.id ∉ s.fetch.records.map (·.id)) (held : r.phase = .held) :
    asked r s = offerFetch { s with fetch := { s.fetch with records := s.fetch.records ++ [r], lastId := r.id } } r := by
  set z : State := { s with fetch := { s.fetch with records := s.fetch.records ++ [r], lastId := r.id } } with entered
  unfold asked
  cases station : (s.unit r.unit).station with
  | none =>
    unfold offerFetch
    rw [show (z.unit r.unit).station = none from station]
  | some a =>
    obtain ⟨e, a⟩ := a
    have alone : ∀ x ∈ z.fetch.records, x.id = r.id → x = r := by
      intro x mem same
      rcases List.mem_append.mp mem with old | new
      · exact absurd (same ▸ List.mem_map_of_mem (f := (·.id)) old) fresh
      · exact List.mem_singleton.mp new
    have chosen : z.fetch.records.filter (fun x => isHeld x && decide (x = r)) = [r] := by
      have none_ : s.fetch.records.filter (fun x => isHeld x && decide (x = r)) = [] :=
        List.filter_eq_nil_iff.mpr fun x mem same => by
          simp only [Bool.and_eq_true, decide_eq_true_eq] at same
          exact fresh (List.mem_map.mpr ⟨x, mem, congrArg _ same.2⟩)
      rw [entered]
      dsimp only
      rw [List.filter_append, none_]
      simp [isHeld, held]
    rw [offerFetch_eq (p := z.route e) (by exact station) rfl alone]
    dsimp only
    rw [← entered, offered_eq, chosen]
    show sentFrom (z.route e) ([r].take (ownSpace (z.port (z.route e)))) z = _
    by_cases room : z.ownRoom (z.route e) = true
    · have space : 1 ≤ ownSpace (z.port (z.route e)) := by
        simp only [State.ownRoom, Bool.and_eq_true, decide_eq_true_eq] at room
        rw [ownSpace, if_pos room.1]
        omega
      rw [if_pos room, List.take_of_length_le (by simpa using space)]
    · have full : ownSpace (z.port (z.route e)) = 0 := by
        simp only [State.ownRoom, Bool.and_eq_true, decide_eq_true_eq] at room
        rw [ownSpace]
        split_ifs with up
        · have : ¬ (z.port (z.route e)).own.length < 24 := fun less => room ⟨up, less⟩
          omega
        · rfl
      rw [if_neg room, full, List.take_zero, sentFrom_nil]

theorem createRecord_asked {first count again : Nat} {waiting : List Nat}
    (fresh : nextId s.fetch.lastId ∉ s.fetch.records.map (·.id)) : createRecord u first count again waiting s =
      asked { id := nextId s.fetch.lastId, unit := u, first, count, reAsk := again, waiting } s :=
  (asked_eq (r := { id := nextId s.fetch.lastId, unit := u, first, count, reAsk := again, waiting }) fresh rfl).symm

/-! ## The re-ask (R169) -/

theorem exec_fetchDeadline_asks {due : Time} (found : s.fetch.records.find? (fun x => decide (x.id = r.id)) = some r)
    (phase : r.phase = .out due) (late : reached due s.now = true) (more : r.reAsk < (s.unitSetup r.unit).reAskLimit) :
    exec (.fetchDeadline r.id) s = .next (reAsk r s) := by
  have gone : fetchDue r s.now = true := by
    rw [fetchDue, phase]
    exact late
  refine congrArg Host.Outcome.next ?_
  rw [found]
  dsimp only
  rw [if_pos gone, if_pos more]

theorem spanPair_between {l : List Nat} {b : Nat} (mem : b ∈ l) :
    (spanPair l).1 ≤ b ∧ b < (spanPair l).1 + (spanPair l).2 := by
  have low := (foldl_min_le l (l.headD 0)).2 b mem
  have high := (le_foldl_max l (l.foldl min (l.headD 0))).2 b mem
  unfold spanPair
  dsimp only
  omega

theorem foldl_max_mem : ∀ (l : List Nat) (a : Nat), l.foldl max a = a ∨ l.foldl max a ∈ l
  | [], _ => .inl rfl
  | b :: l, a => by
    rcases foldl_max_mem l (max a b) with eq | mem
    · rcases max_choice a b with most | most
      · exact .inl (eq.trans most)
      · exact .inr (by rw [List.foldl_cons, eq, most]; simp)
    · exact .inr (List.mem_cons_of_mem b mem)

theorem spanPair_eq {l : List Nat} {lo hi : Nat} (low : lo ∈ l) (high : hi ∈ l) (all : ∀ b ∈ l, lo ≤ b ∧ b ≤ hi) :
    spanPair l = (lo, hi - lo + 1) := by
  have some_ : l ≠ [] := fun none_ => by rw [none_] at low; cases low
  obtain ⟨mem, least⟩ := lowestBlock_least some_
  have first : lowestBlock l = lo := le_antisymm (least lo low) (all _ mem).1
  have last : l.foldl max lo = hi := by
    refine le_antisymm ?_ ((le_foldl_max l lo).2 hi high)
    rcases foldl_max_mem l lo with eq | mem
    · rw [eq]
      exact (all lo low).2
    · exact (all _ mem).2
  unfold spanPair
  dsimp only
  rw [show l.foldl min (l.headD 0) = lo from first, last]

end Sys2Proof.Machine
end

section
/-! PROOFS. The line that a read waits on (R160 to R164). -/

namespace Sys2Proof.Machine

open Sys2Proof

variable {s t y z : State} {u v : UnitId} {g : Nat} {l : CacheLine} {others : List CacheLine}

/-! ## The line stands behind the others (R160 to R162) -/

/-- The lines of other groups, and behind them the line `l` of group `g` of unit `u`. -/
structure Behold (u : UnitId) (g : Nat) (others : List CacheLine) (l : CacheLine) : Prop where
  away : ∀ x ∈ others, isLine u g x = false
  here : isLine u g l = true

theorem Behold.changed {f : CacheLine → CacheLine} (b : Behold u g others l) (kept : ∀ x, (f x).unit = x.unit ∧ (f x).group = x.group) :
    Behold u g others (f l) where
  away := b.away
  here := by
    obtain ⟨unit, group⟩ := isLine_iff.mp b.here
    exact isLine_iff.mpr ⟨(kept l).1.trans unit, (kept l).2.trans group⟩

theorem Behold.modLine {f : CacheLine → CacheLine} (b : Behold u g others l) :
    { s with cache := others ++ [l] }.modLine u g f = { s with cache := others ++ [f l] } := by
  have same : others.map (fun x => if isLine u g x then f x else x) = others :=
    (List.map_congr_left fun x mem => if_neg (by rw [b.away x mem]; decide)).trans (List.map_id _)
  unfold State.modLine
  dsimp only
  rw [List.map_append, same, List.map_singleton, if_pos b.here]

theorem Behold.line (b : Behold u g others l) : ({ s with cache := others ++ [l] } : State).line u g = some l := by
  have none_ : others.find? (isLine u g) = none := List.find?_eq_none.mpr fun x mem => by
    rw [b.away x mem]
    decide
  rw [State.line, List.find?_append, none_, List.find?_singleton, if_pos b.here]
  rfl

theorem Behold.touch (b : Behold u g others l) :
    touch u g { s with cache := others ++ [l] } = { s with cache := others ++ [l] } := by
  have out : others.filter (fun x => !isLine u g x) = others := List.filter_eq_self.mpr fun x mem => by
    rw [b.away x mem]
    rfl
  have in_ : others.filter (isLine u g) = [] := List.filter_eq_nil_iff.mpr fun x mem => by
    rw [b.away x mem]
    decide
  unfold Machine.touch
  dsimp only
  rw [List.filter_append, List.filter_append, out, in_]
  simp [b.here]

/-- A line that holds the group is moved and pinned. -/
theorem lineReady_held (held : s.cache.filter (isLine u g) = [l]) :
    Behold u g (s.cache.filter fun x => !isLine u g x) l ∧
      lineReady u g s = { s with cache := (s.cache.filter fun x => !isLine u g x) ++ [{ l with pins := l.pins + 1 }] } := by
  have mem : l ∈ s.cache.filter (isLine u g) := by rw [held]; simp
  have b : Behold u g (s.cache.filter fun x => !isLine u g x) l :=
    ⟨fun x mem => by simpa using (List.mem_filter.mp mem).2, (List.mem_filter.mp mem).2⟩
  have found : (s.line u g).isSome = true := by
    rw [State.line, List.find?_isSome]
    exact ⟨l, (List.mem_filter.mp mem).1, b.here⟩
  refine ⟨b, ?_⟩
  rw [lineReady, if_pos found, Machine.touch, held]
  exact b.modLine

/-- A line that is taken for a group that none holds is pinned. -/
theorem lineReady_taken (none_ : s.cache.filter (isLine u g) = [])
    (takes : takeLine u g s = { z with cache := others ++ [{ unit := u, group := g }] })
    (fewer : ∀ x ∈ others, x ∈ s.cache) :
    Behold u g others { unit := u, group := g } ∧
      lineReady u g s = { z with cache := others ++ [{ unit := u, group := g, pins := 1 }] } := by
  have b : Behold u g others { unit := u, group := g } :=
    ⟨fun x mem => by simpa using List.filter_eq_nil_iff.mp none_ x (fewer x mem), isLine_iff.mpr ⟨rfl, rfl⟩⟩
  have absent : ¬ (s.line u g).isSome = true := by
    rw [State.line, List.find?_isSome]
    rintro ⟨x, mem, here⟩
    exact List.filter_eq_nil_iff.mp none_ x mem here
  refine ⟨b, ?_⟩
  rw [lineReady, if_neg absent, takes]
  exact b.modLine

/-! ## The blocks of the line -/

theorem Behold.blockAt (b : Behold u g others l) {k : Nat} (group : k / 8 = g) :
    ({ s with cache := others ++ [l] } : State).blockAt u k = l.blocks[Fin.ofNat 8 k] := by
  rw [State.blockAt, group, b.line]

/-- The blocks of a line with some of them PENDING. -/
def pendingIn (marked : List Nat) (l : CacheLine) : CacheLine :=
  { l with blocks := Vector.ofFn fun k : Fin 8 => if 8 * l.group + k ∈ marked then .pending else l.blocks[k] }

theorem pendingIn_nil : pendingIn [] l = l := by
  have blocks : (Vector.ofFn fun k : Fin 8 => if 8 * l.group + k ∈ ([] : List Nat) then .pending else l.blocks[k]) = l.blocks := by
    ext k hk
    simp
  rw [pendingIn, blocks]

theorem pendingIn_cons {k : Nat} {marked : List Nat} (group : k / 8 = l.group) : pendingIn marked
    { l with blocks := upd l.blocks (Fin.ofNat 8 k) fun _ => .pending } = pendingIn (k :: marked) l := by
  have blocks : (Vector.ofFn fun j : Fin 8 => if 8 * l.group + j ∈ marked then CacheBlock.pending
      else (upd l.blocks (Fin.ofNat 8 k) fun _ => .pending)[j]) =
      Vector.ofFn fun j : Fin 8 => if 8 * l.group + j ∈ k :: marked then .pending else l.blocks[j] := by
    refine congrArg Vector.ofFn (funext fun j => ?_)
    have same : 8 * l.group + j.val = k ↔ j = Fin.ofNat 8 k := by
      rw [Fin.ext_iff]
      simp only [Fin.ofNat]
      have := j.isLt
      omega
    rw [upd_get]
    by_cases here : j = Fin.ofNat 8 k
    · rw [if_pos here, if_pos (List.mem_cons.mpr (.inl (same.mpr here)))]
      split_ifs <;> rfl
    · rw [if_neg here]
      have iff_ : 8 * l.group + j.val ∈ k :: marked ↔ 8 * l.group + j.val ∈ marked := by
        rw [List.mem_cons]
        exact or_iff_right fun eq => here (same.mp eq)
      exact if_congr iff_.symm rfl rfl
  unfold pendingIn
  dsimp only
  rw [blocks]

/-- Blocks of the line behind the others become PENDING. -/
theorem Behold.setPending : ∀ {marked : List Nat} {l : CacheLine}, Behold u g others l → (∀ k ∈ marked, k / 8 = g) →
    marked.foldl (setBlock u .pending) { s with cache := others ++ [l] } =
      { s with cache := others ++ [pendingIn marked l] }
  | [], l, _, _ => by rw [pendingIn_nil]; rfl
  | k :: marked, l, b, groups => by
    have group : k / 8 = g := groups k (by simp)
    have lineGroup : l.group = g := (isLine_iff.mp b.here).2
    have one : setBlock u .pending { s with cache := others ++ [l] } k =
        { s with cache := others ++ [{ l with blocks := upd l.blocks (Fin.ofNat 8 k) fun _ => .pending }] } := by
      rw [setBlock, group]
      exact b.modLine
    have b' := b.changed (f := fun x => { x with blocks := upd x.blocks (Fin.ofNat 8 k) fun _ => .pending })
      fun _ => ⟨rfl, rfl⟩
    rw [List.foldl_cons, one, Behold.setPending b' fun j mem => groups j (by simp [mem]),
      pendingIn_cons (group.trans lineGroup.symm)]

end Sys2Proof.Machine
end

section
/-! PROOFS. A read that waits on its line and its fetch (R160 to R165). -/

namespace Sys2Proof.Machine

open Sys2Proof

variable {s t y z : State} {i : SlotId} {u v : UnitId} {g first : Nat} {bs : List Nat} {l : CacheLine}
  {others : List CacheLine}

/-! ## The line as it is asked for (R161, R164) -/

theorem lineAsked_none : lineAsked l none = { l with pins := l.pins + 1 } := by
  have blocks : (Vector.ofFn fun k : Fin 8 => l.blocks[k]) = l.blocks := by
    ext k hk
    simp
  unfold lineAsked
  dsimp only
  rw [blocks]

/-- The EMPTY blocks of a span that lies in the line's group. -/
theorem lineAsked_span {lo hi : Nat} (empty : Nat → Bool) (order : lo ≤ hi)
    (reads : ∀ k, k / 8 = l.group → empty k = decide (l.blocks[Fin.ofNat 8 k] = .empty)) :
    lineAsked l (some (lo, hi)) = pendingIn (((List.range (hi - lo + 1)).map (lo + ·)).filter empty)
      { l with pins := l.pins + 1 } := by
  have blocks : (Vector.ofFn fun k : Fin 8 => if lo ≤ 8 * l.group + k ∧ 8 * l.group + k ≤ hi ∧ l.blocks[k] = .empty
      then CacheBlock.pending else l.blocks[k]) = Vector.ofFn fun k : Fin 8 =>
        if 8 * l.group + k ∈ ((List.range (hi - lo + 1)).map (lo + ·)).filter empty then .pending else l.blocks[k] := by
    refine congrArg Vector.ofFn (funext fun k => if_congr ?_ rfl rfl)
    have place : Fin.ofNat 8 (8 * l.group + k.val) = k := by
      rw [Fin.ext_iff]
      simp only [Fin.ofNat]
      have := k.isLt
      omega
    have inGroup : (8 * l.group + k.val) / 8 = l.group := by
      have := k.isLt
      omega
    have read : empty (8 * l.group + k) = decide (l.blocks[k] = .empty) :=
      (reads _ inGroup).trans (congrArg (fun j : Fin 8 => decide (l.blocks[j] = .empty)) place)
    rw [List.mem_filter, read, decide_eq_true_eq, List.mem_map]
    constructor
    · rintro ⟨least, most, empty⟩
      exact ⟨⟨8 * l.group + k - lo, List.mem_range.mpr (by omega), by omega⟩, empty⟩
    · rintro ⟨⟨n, mem, eq⟩, empty⟩
      have := List.mem_range.mp mem
      exact ⟨by omega, by omega, empty⟩
  unfold lineAsked pendingIn
  dsimp only
  rw [blocks]

/-- A new record takes no part in the lines and the slots. -/
theorem asked_beside {r : FetchRecord} : (asked r s).cache = s.cache ∧ (asked r s).slots = s.slots := by
  unfold asked
  split
  · exact ⟨rfl, rfl⟩
  · dsimp only
    rw [offered_eq, sentFrom_frame]
    exact ⟨rfl, rfl⟩

/-- The line stands behind the others while the read waits. -/
theorem readWaits_cache : ∃ span, (readWaits i u first g bs others l s).cache = others ++ [lineAsked l span] := by
  unfold readWaits
  dsimp only
  split
  · exact ⟨none, rfl⟩
  · split_ifs
    · exact ⟨_, asked_beside.1⟩
    · exact ⟨none, rfl⟩
    · exact ⟨none, rfl⟩

/-! ## The request of the group (R161) -/

/-- A read of the blocks `bs` is in flight on the port of slot `i`. -/
def readStarted (i : SlotId) (first : Nat) (bs : List Nat) (s : State) : State :=
  setInFlight i (some (.read first (bs.map .image) bs)) s

theorem foldl_min_group {b : Nat} {more : List Nat} (groups : ∀ k ∈ b :: more, k / 8 = g) : more.foldl min b / 8 = g := by
  rcases foldl_min_mem more b with eq | mem
  · rw [eq]
    exact groups b (by simp)
  · exact groups _ (by simp [mem])

theorem foldl_max_group {b : Nat} {more : List Nat} (groups : ∀ k ∈ b :: more, k / 8 = g) : more.foldl max b / 8 = g := by
  rcases foldl_max_mem more b with eq | mem
  · rw [eq]
    exact groups b (by simp)
  · exact groups _ (by simp [mem])

theorem spanOf_head {b : Nat} {more : List Nat} : (spanOf b more).headD b = more.foldl min b := by
  unfold spanOf
  dsimp only
  rw [List.range_succ_eq_map]
  simp

theorem spanOf_length {b : Nat} {more : List Nat} :
    (spanOf b more).length = more.foldl max b - more.foldl min b + 1 := by
  simp [spanOf]

theorem mem_spanOf_group {b k : Nat} {more : List Nat} (groups : ∀ j ∈ b :: more, j / 8 = g) (mem : k ∈ spanOf b more) :
    k / 8 = g := by
  obtain ⟨n, inside, rfl⟩ := List.mem_map.mp mem
  have low := foldl_min_group groups
  have high := foldl_max_group groups
  have := List.mem_range.mp inside
  have order : more.foldl min b ≤ more.foldl max b :=
    ((foldl_min_le more b).1).trans (le_foldl_max more b).1
  omega

/-- The fetch of the EMPTY blocks of a line that stands behind the others. -/
theorem issueFetch_asked {b : Nat} {more : List Nat} {empty : Nat → Bool} (behold : Behold u g others l)
    (groups : ∀ k ∈ b :: more, k / 8 = g)
    (reads : ∀ k, k / 8 = g → empty k = decide (l.blocks[Fin.ofNat 8 k] = .empty))
    (fresh : nextId s.fetch.lastId ∉ s.fetch.records.map (·.id)) :
    let lo := more.foldl min b
    let hi := more.foldl max b
    issueFetch u (b :: more) { s with cache := others ++ [{ l with pins := l.pins + 1 }] } =
      asked { id := nextId s.fetch.lastId, unit := u, first := lo, count := hi - lo + 1
              waiting := ((List.range (hi - lo + 1)).map (lo + ·)).filter empty }
        { s with cache := others ++ [lineAsked l (some (lo, hi))] } := by
  intro lo hi
  have pinned : Behold u g others { l with pins := l.pins + 1 } := behold.changed (f := fun x => { x with pins := x.pins + 1 })
    fun _ => ⟨rfl, rfl⟩
  have lineGroup : l.group = g := (isLine_iff.mp behold.here).2
  have marked : ((spanOf b more).filter fun k => isEmpty
      (({ s with cache := others ++ [{ l with pins := l.pins + 1 }] } : State).blockAt u k)) =
      ((List.range (hi - lo + 1)).map (lo + ·)).filter empty := by
    refine List.filter_congr fun k mem => ?_
    have group := mem_spanOf_group groups mem
    rw [pinned.blockAt group, reads k group]
    cases l.blocks[Fin.ofNat 8 k] <;> rfl
  have asks : lineAsked l (some (lo, hi)) = pendingIn (((List.range (hi - lo + 1)).map (lo + ·)).filter empty)
      { l with pins := l.pins + 1 } :=
    lineAsked_span empty (((foldl_min_le more b).1).trans (le_foldl_max more b).1)
      fun k group => reads k (group.trans lineGroup)
  unfold issueFetch
  dsimp only
  rw [marked, spanOf_head, spanOf_length, pinned.setPending, ← asks]
  · exact createRecord_asked (s := { s with cache := others ++ [lineAsked l (some (lo, hi))] }) fresh
  · intro k mem
    exact mem_spanOf_group groups (List.mem_filter.mp mem).1

/-- The request of the one group of a read, whose line stands behind the others. -/
theorem requestGroup_waits (behold : Behold u g others l) (groups : ∀ k ∈ bs, k / 8 = g)
    (reads : ∀ k, k / 8 = g → z.blockAt u k = l.blocks[Fin.ofNat 8 k])
    (fresh : nextId z.fetch.lastId ∉ z.fetch.records.map (·.id))
    (ready : lineReady u g (readStarted i first bs s) =
      { readStarted i first bs z with cache := others ++ [{ l with pins := l.pins + 1 }] }) :
    requestGroup u false bs (readStarted i first bs s) g = readWaits i u first g bs others l z := by
  have pinned : Behold u g others { l with pins := l.pins + 1 } := behold.changed (f := fun x => { x with pins := x.pins + 1 })
    fun _ => ⟨rfl, rfl⟩
  have need : ({ readStarted i first bs z with cache := others ++ [{ l with pins := l.pins + 1 }] } : State).emptyIn u g bs =
      bs.filter fun b => decide (z.blockAt u b = .empty) := by
    refine List.filter_congr fun k mem => ?_
    rw [pinned.blockAt (groups k mem), reads k (groups k mem), decide_eq_true (groups k mem), Bool.true_and]
    cases l.blocks[Fin.ofNat 8 k] <;> rfl
  rw [requestGroup_eq, ready]
  dsimp only
  rw [need]
  unfold readWaits
  dsimp only
  cases empties : bs.filter fun b => decide (z.blockAt u b = .empty) with
  | nil =>
    rw [lineAsked_none]
    rfl
  | cons b more =>
    have inGroup : ∀ k ∈ b :: more, k / 8 = g := fun k mem =>
      groups k (List.mem_filter.mp (empties ▸ mem)).1
    dsimp only
    rw [if_neg (by simp)]
    by_cases room : z.fetch.records.length < 16 ∧ (recordsOf z u).length < 4
    · have can : ({ readStarted i first bs z with cache := others ++ [{ l with pins := l.pins + 1 }] } :
          State).canIssue u = true := by
        simp only [State.canIssue, Bool.and_eq_true, decide_eq_true_eq]
        exact room
      rw [if_pos can, if_pos room]
      exact issueFetch_asked (s := readStarted i first bs z) (empty := fun k => decide (z.blockAt u k = .empty)) behold inGroup
        (fun k group => by rw [reads k group]) fresh
    · have cannot : ¬ ({ readStarted i first bs z with cache := others ++ [{ l with pins := l.pins + 1 }] } :
          State).canIssue u = true := by
        simp only [State.canIssue, Bool.and_eq_true, decide_eq_true_eq]
        exact room
      rw [if_neg cannot, if_neg room, lineAsked_none, joinIssue]
      by_cases waits : ({ unit := u, group := g, prime := false } : IssueEntry) ∈ z.fetch.issue
      · rw [if_pos (by exact waits), if_pos waits]
        rfl
      · rw [if_neg (by exact waits), if_neg waits]
        rfl

end Sys2Proof.Machine
end

section
/-! PROOFS. READ waits on image blocks, the re-ask, and what a heard station is offered (R160 to R165, R169,
R182, R188). -/

namespace Sys2Proof.Machine

open Sys2Proof

variable {s t y z : State} {i : SlotId} {u v : UnitId} {g first count : Nat} {bs : List Nat} {l : CacheLine}
  {others : List CacheLine}

theorem groupsOf_one : ∀ {bs : List Nat}, bs ≠ [] → (∀ b ∈ bs, b / 8 = g) → groupsOf bs = [g]
  | [], some_, _ => absurd rfl some_
  | [b], _, groups => by
    rw [groupsOf, List.foldr_cons, List.foldr_nil, groups b (by simp)]
    rfl
  | b :: c :: bs, _, groups => by
    have rest := groupsOf_one (bs := c :: bs) (by simp) fun k mem => groups k (List.mem_cons_of_mem b mem)
    have step : groupsOf (b :: c :: bs) = insertRising (b / 8) (groupsOf (c :: bs)) := rfl
    rw [step, rest, groups b (by simp)]
    simp [insertRising]

theorem imagesIn_map : imagesIn (bs.map Source.image) = bs := by
  induction bs with
  | nil => rfl
  | cons b bs ih => exact congrArg (b :: ·) ih

theorem exec_read_accepted (p : Presents i u s) (positive : 1 ≤ count) (most : count ≤ 128)
    (inside : first + count ≤ s.capacity u) {xs : List Source} (resolved : s.resolveAll u first count = some xs) :
    exec (.storageRead i first count) s = .next (acceptRead i u first xs s) := by
  refine congrArg Host.Outcome.next ((portTakes_presents p).trans ?_)
  simp only [rangeGood_iff.mpr ⟨positive, most, inside⟩, resolved]
  rfl

/-- A read whose first block is not ready stays as it has been started. -/
theorem pumpRead_stops (flight : (s.slot i).port.inFlight = some (.read first (bs.map .image) bs)) (some_ : bs ≠ [])
    (stop : ∀ b, bs.head? = some b → isValid (s.blockAt u b) = false) : pumpRead i u s = s := by
  have nothing := pumpRead_eq (u := u) (xs := []) (rest := bs.map .image) (ds := []) flight rfl fun x head => by
    cases bs with
    | nil => cases head
    | cons b bs =>
      cases head
      have no := stop b rfl
      rw [isValid_ready] at no
      exact Option.isNone_iff_eq_none.mp (by simpa using no)
  have stays : setInFlight i (some (.read first (bs.map .image) bs)) s = s := modSlot_self (by rw [← flight])
  rw [nothing, if_neg (by simpa using some_), readMoved, deliveredBlocks_nil]
  exact stays

theorem readWaits_slot : (readWaits i u first g bs others l s).slot i = (readStarted i first bs s).slot i := by
  unfold readWaits
  dsimp only
  split
  · rfl
  · split_ifs
    · exact congrArg (·[i]) asked_beside.2
    · rfl
    · rfl

theorem touchLines_behold (groups : ∀ b ∈ bs, b / 8 = g) (some_ : bs ≠ []) (b : Behold u g others l)
    (cache : s.cache = others ++ [l]) : touchLines u bs s = s := by
  rw [touchLines, groupsOf_one some_ groups]
  have eq : s = { s with cache := others ++ [l] } := by rw [← cache]
  rw [List.foldl_cons, List.foldl_nil, eq]
  exact b.touch

theorem lineAsked_valid {span : Option (Nat × Nat)} {k : Fin 8} :
    isValid ((lineAsked l span).blocks[k]) = isValid l.blocks[k] := by
  unfold lineAsked
  cases span with
  | none => simp
  | some x =>
    simp only [Fin.getElem_fin, Vector.getElem_ofFn]
    split_ifs with pending
    · rw [pending.2.2]
      rfl
    · rfl

/-- A READ of the blocks of one group, the first of which is not VALID, waits. -/
theorem acceptRead_waits (behold : Behold u g others l) (groups : ∀ k ∈ bs, k / 8 = g) (some_ : bs ≠ [])
    (reads : ∀ k, k / 8 = g → z.blockAt u k = l.blocks[Fin.ofNat 8 k])
    (first_ : ∀ b, bs.head? = some b → isValid (z.blockAt u b) = false)
    (fresh : nextId z.fetch.lastId ∉ z.fetch.records.map (·.id))
    (ready : lineReady u g (readStarted i first bs s) =
      { readStarted i first bs z with cache := others ++ [{ l with pins := l.pins + 1 }] }) :
    acceptRead i u first (bs.map .image) s = readWaits i u first g bs others l z := by
  have asks : handOver u false bs (readStarted i first bs s) = readWaits i u first g bs others l z := by
    rw [handOver, groupsOf_one some_ groups]
    exact requestGroup_waits behold groups reads fresh ready
  obtain ⟨span, cache⟩ := readWaits_cache (i := i) (u := u) (first := first) (g := g) (bs := bs) (others := others) (l := l) (s := z)
  have behind : Behold u g others (lineAsked l span) := behold.changed (f := fun x => lineAsked x span) fun _ => ⟨rfl, rfl⟩
  have blocks (k : Nat) (group : k / 8 = g) : isValid ((readWaits i u first g bs others l z).blockAt u k) =
      isValid (z.blockAt u k) := by
    rw [reads k group, State.blockAt, State.line, cache]
    have := behind.blockAt (s := z) group
    unfold State.blockAt State.line at this
    dsimp only at this
    rw [this]
    exact lineAsked_valid
  unfold acceptRead
  rw [imagesIn_map]
  dsimp only
  rw [show setInFlight i (some (.read first (bs.map .image) bs)) s = readStarted i first bs s from rfl, asks,
    pumpRead_stops (u := u) ?flight some_ ?stop]
  · exact touchLines_behold groups some_ behind cache
  case flight =>
    rw [readWaits_slot, readStarted, setInFlight, modSlot_slot_same]
  case stop =>
    intro b head
    rw [blocks b (groups b (List.mem_of_mem_head? head))]
    exact first_ b head

end Sys2Proof.Machine
end

section
/-! PROOFS. FETCHES ASKED: the three lines that a read may wait on, the re-ask, and the offers (R160 to R165, R169,
R182, R188). -/

namespace Sys2Proof.Machine

open Sys2Proof

variable {s t y z : State} {i : SlotId} {u v : UnitId} {g first count k : Nat} {bs : List Nat} {l : CacheLine}
  {others : List CacheLine} {r : FetchRecord}

theorem blockAt_held (held : s.cache.filter (isLine u g) = [l]) (group : k / 8 = g) :
    s.blockAt u k = l.blocks[Fin.ofNat 8 k] := by
  have line : s.line u g = some l := by
    rw [State.line, ← List.head?_filter, held]
    rfl
  rw [State.blockAt, group, line]

theorem blockAt_unheld (none_ : s.cache.filter (isLine u g) = []) (group : k / 8 = g) : s.blockAt u k = .empty := by
  have line : s.line u g = none := by
    rw [State.line, ← List.head?_filter, none_]
    rfl
  rw [State.blockAt, group, line]

/-- A line that has just been taken holds nothing. -/
theorem newLine_blocks {j : Fin 8} : ({ unit := u, group := g } : CacheLine).blocks[j] = .empty := by simp

theorem takeLine_room (room : s.cache.length < 256) :
    takeLine u g s = { s with cache := s.cache ++ [{ unit := u, group := g }] } := if_pos room

theorem takeLine_replaces {w : CacheLine} (full : 256 ≤ s.cache.length) (victim : s.cache.find? replaceable = some w) :
    takeLine u g s = { s with
      cache := (s.cache.filter fun x => !isLine w.unit w.group x) ++ [{ unit := u, group := g }]
      fetch := { s.fetch with counters := { s.fetch.counters with replacements := bump s.fetch.counters.replacements } } } := by
  unfold takeLine
  dsimp only
  rw [if_neg (by omega), victim]
  rfl

/-- A record that is asked again stands under the next identity, with the span of what it awaits. -/
theorem reAsk_record : ∃ q ∈ (reAsk r s).fetch.records, SameFetch
    { id := nextId s.fetch.lastId, unit := r.unit, first := (spanPair r.waiting).1, count := (spanPair r.waiting).2
      reAsk := r.reAsk + 1, waiting := r.waiting } q :=
  createRecord_kept (u := r.unit) (s := removeRecord r.id s)

theorem createRecord_lastId {first count again : Nat} {waiting : List Nat} :
    (createRecord u first count again waiting s).fetch.lastId = nextId s.fetch.lastId := offerFetch_lastId

theorem reAsk_counters : ((reAsk r s).unit r.unit).counters.reAsks = bump (s.unit r.unit).counters.reAsks := by
  have counts := (createRecord_counts (A := fun _ => True) (u := r.unit) (first := (spanPair r.waiting).1)
    (count := (spanPair r.waiting).2) (reAsk := r.reAsk + 1) (waiting := r.waiting) (s := removeRecord r.id s) trivial).unit r.unit
  unfold reAsk
  dsimp only
  rw [State.countUnit, modUnit_unit_same, counts]
  rfl

theorem reAsk_asked {lo hi : Nat} (low : lo ∈ r.waiting) (high : hi ∈ r.waiting)
    (all : ∀ b ∈ r.waiting, lo ≤ b ∧ b ≤ hi)
    (fresh : nextId s.fetch.lastId ∉ (s.fetch.records.filter fun x => decide (x.id ≠ r.id)).map (·.id)) :
    reAsk r s = (asked { r with
        id := nextId s.fetch.lastId, first := lo, count := hi - lo + 1, phase := .held, reAsk := r.reAsk + 1 }
      { s with fetch := { s.fetch with records := s.fetch.records.filter fun x => decide (x.id ≠ r.id) } }).modUnit
        r.unit fun m => { m with counters := { m.counters with reAsks := bump m.counters.reAsks } } := by
  unfold reAsk
  rw [spanPair_eq low high all]
  dsimp only
  rw [createRecord_asked (s := removeRecord r.id s) fresh]
  rfl

theorem createRecord_beside {first count again : Nat} {waiting : List Nat} :
    (createRecord u first count again waiting s).cache = s.cache ∧
      (createRecord u first count again waiting s).slots = s.slots :=
  ⟨offerFetch_cache, offerFetch_slots⟩

/-- Settles O46. -/
theorem fetchesAsked : Obligations.FetchesAsked := by
  unfold Obligations.FetchesAsked
  refine ⟨?_, ?_, fun e p s moved once => hear_offered moved once⟩
  · intro i u first count g bs s p positive most inside resolved groups first_ fresh waits
    have some_ : bs ≠ [] := by
      rintro rfl
      have := resolveAll_length resolved
      simp only [List.map_nil, List.length_nil] at this
      omega
    have accepts := exec_read_accepted p positive most inside resolved
    refine ⟨fun l held => ?_, fun none_ => ⟨fun room => ?_, fun w full victim => ?_⟩⟩
    · obtain ⟨behold, ready⟩ := lineReady_held (s := readStarted i first bs s) held
      exact accepts.trans (congrArg Host.Outcome.next (acceptRead_waits behold groups some_
        (fun k group => blockAt_held held group) first_ fresh ready))
    · obtain ⟨behold, ready⟩ := lineReady_taken (s := readStarted i first bs s) none_ (takeLine_room room) fun _ mem => mem
      exact accepts.trans (congrArg Host.Outcome.next (acceptRead_waits behold groups some_
        (fun k group => (blockAt_unheld none_ group).trans newLine_blocks.symm) first_ fresh ready))
    · obtain ⟨behold, ready⟩ := lineReady_taken (s := readStarted i first bs s)
        (z := readStarted i first bs { s with fetch := { s.fetch with counters := { s.fetch.counters with
          replacements := bump s.fetch.counters.replacements } } })
        none_ (takeLine_replaces (s := readStarted i first bs s) full victim) fun _ mem => (List.mem_filter.mp mem).1
      exact accepts.trans (congrArg Host.Outcome.next (acceptRead_waits behold groups some_
        (fun k group => (blockAt_unheld none_ group).trans newLine_blocks.symm) first_ fresh ready))
  · intro r due s found phase late more id left
    have asks := exec_fetchDeadline_asks found phase late more
    refine ⟨⟨_, asks, createRecord_beside.1, createRecord_lastId, createRecord_beside.2, reAsk_counters, ?_⟩,
      fun lo hi low high all fresh => asks.trans (congrArg Host.Outcome.next (reAsk_asked low high all fresh))⟩
    obtain ⟨q, mem, same⟩ := reAsk_record (r := r) (s := s)
    refine ⟨q, mem, by rw [same], by rw [same], by rw [same], by rw [same], fun b waiting => ?_⟩
    rw [same]
    exact spanPair_between waiting

end Sys2Proof.Machine
end

section
/-! PROOFS. What the bridge puts up on an empty queue (R1). -/

namespace Sys2Proof.Machine

open Sys2Proof

variable {s : State} {i : SlotId} {c : Instr} {now : Time}

/-! ## What the state calls for at once (R70, R189, R199) -/

theorem canChoose_iff {x : PortState} : canChoose x = true ↔
    x.up = true ∧ x.sending = none ∧ (x.pass ≠ [] ∨ x.own ≠ []) := by
  unfold canChoose
  simp only [Bool.and_eq_true, Bool.not_eq_true', Bool.and_eq_false_iff, Option.isNone_iff_eq_none, List.isEmpty_eq_false_iff,
    and_assoc, ne_eq]

/-- What is put up at once is what the state calls for. -/
theorem mem_readyNow : c ∈ readyNow s ↔ CalledFor s c := by
  unfold readyNow
  rw [List.mem_append, List.mem_append, List.mem_map, List.mem_map]
  constructor
  · rintro ((due | ⟨i, mem, rfl⟩) | ⟨p, mem, rfl⟩)
    · split_ifs at due with restart
      · rw [List.mem_singleton.mp due]
        exact restart
      · cases due
    · have waits : (s.slot i).recovery.waiting ≠ [] := by simpa using (List.mem_filter.mp mem).2
      exact waits
    · exact canChoose_iff.mp (List.mem_filter.mp mem).2
  · intro called
    cases c
    case bridgeRestart => exact .inl (.inl (by rw [if_pos (by exact called)]; simp))
    case recoveryRequestTaken i =>
      have waits : (s.slot i).recovery.waiting ≠ [] := called
      exact .inl (.inr ⟨i, List.mem_filter.mpr ⟨List.mem_finRange i, by simpa using waits⟩, rfl⟩)
    case egressChoice p =>
      exact .inr ⟨p, List.mem_filter.mpr ⟨by cases p <;> simp, canChoose_iff.mpr called⟩, rfl⟩
    all_goals exact False.elim called

/-! ## Deadlines that are reached -/

theorem expired_iff {o : Option Time} : expired o now = true ↔ ∃ d, o = some d ∧ reached d now = true := by
  cases o <;> simp [expired]

theorem breakDue_iff {t : Transmitter} : breakDue t now = true ↔ ∃ d, t = .breakSpace d ∧ reached d now = true := by
  cases t <;> simp [breakDue]

theorem glitchDue_iff {x : Classifier} : glitchDue x now = true ↔ ∃ p, x.state = .pending p ∧ reached p.glitchDue now = true := by
  unfold glitchDue
  cases x.state <;> simp

theorem stuckDue_iff {x : Classifier} : stuckDue x now = true ↔
    ∃ p, (x.state = .passing p ∨ ∃ why, x.state = .blocked p why) ∧ reached p.stuckDue now = true := by
  unfold stuckDue
  cases x.state <;> simp

theorem fetchDue_iff {r : FetchRecord} : fetchDue r now = true ↔ ∃ d, r.phase = .out d ∧ reached d now = true := by
  unfold fetchDue
  cases r.phase <;> simp

theorem stepDue_iff {st : SeqState} {which : Step → Bool} : s.stepDue i st which = true ↔
    ∃ r d, (s.slot i).seq.state = st ∧ (s.slot i).seq.record = some r ∧ which r.current = true ∧ r.deadline = some d ∧
      reached d s.now = true := by
  unfold State.stepDue
  cases (s.slot i).seq.record with
  | none => simp
  | some r =>
    simp only [Bool.and_eq_true, decide_eq_true_eq, expired_iff, Option.some.injEq]
    constructor
    · rintro ⟨⟨state, step⟩, d, deadline, due⟩
      exact ⟨r, d, state, rfl, step, deadline, due⟩
    · rintro ⟨_, d, state, rfl, step, deadline, due⟩
      exact ⟨⟨state, step⟩, d, deadline, due⟩

theorem isPress_iff (x : Step) : isPress x = true ↔ x = .hold ∨ ∃ role, x = .press role := by
  cases x <;> simp [isPress]

theorem isDwell_iff (x : Step) : isDwell x = true ↔ ∃ kind, x = .dwell kind := by
  cases x <;> simp [isDwell]

theorem isExpectHigh_iff (x : Step) : isExpectHigh x = true ↔ x = .expectHigh := by
  cases x <;> simp [isExpectHigh]

theorem isExpectLow_iff (x : Step) : isExpectLow x = true ↔ ∃ soft, x = .expectLow soft := by
  cases x <;> simp [isExpectLow]

theorem isGate_iff (x : Step) : isGate x = true ↔ x = .gate := by
  cases x <;> simp [isGate]

/-- A step of slot `i` is in progress whose deadline is reached. -/
def StepComesDue (s : State) (i : SlotId) (st : SeqState) (which : Step → Prop) : Prop :=
  ∃ r d, (s.slot i).seq.state = st ∧ (s.slot i).seq.record = some r ∧ which r.current ∧ r.deadline = some d ∧
    reached d s.now = true

theorem stepDue_comes {st : SeqState} {which : Step → Bool} {kind : Step → Prop} (names : ∀ x, which x = true ↔ kind x) :
    s.stepDue i st which = true ↔ StepComesDue s i st kind := by
  rw [stepDue_iff]
  simp only [names]
  rfl

theorem mem_chosen {l : List (Bool × Instr)} : c ∈ chosen l ↔ (true, c) ∈ l := by
  unfold chosen
  rw [List.mem_map]
  constructor
  · rintro ⟨⟨b, x⟩, mem, rfl⟩
    obtain ⟨mem, rfl⟩ := List.mem_filter.mp mem
    exact mem
  · exact fun mem => ⟨(true, c), List.mem_filter.mpr ⟨mem, rfl⟩, rfl⟩

/-- The deadlines of a slot, each with what tells whether it is armed and reached, but for the hold-offs. -/
def slotChoices (s : State) (i : SlotId) : List (Bool × Instr) := [
    (breakDue (s.slot i).input.tx s.now, Instr.breakItemDeadline i),
    (expired (s.slot i).input.idleDue s.now, .holderIdleExpiry i),
    (expired (s.slot i).pg.due s.now, .pgFilterExpiry i),
    (glitchDue (s.slot i).pwrBtn s.now, .glitchDeadline i .pwr),
    (glitchDue (s.slot i).rstBtn s.now, .glitchDeadline i .rst),
    (stuckDue (s.slot i).pwrBtn s.now, .stuckDeadline i .pwr),
    (stuckDue (s.slot i).rstBtn s.now, .stuckDeadline i .rst),
    (s.stepDue i .stepping isPress, .pressDeadline i),
    (s.stepDue i .stepping isDwell, .dwellDeadline i),
    (s.stepDue i .stepping isExpectHigh, .expectHighDeadline i),
    (s.stepDue i .stepping isExpectLow, .expectLowDeadline i),
    (s.stepDue i .waitGate isGate, .gateWaitDeadline i),
    (expired ((s.slot i).recovery.window.map (·.closes)) s.now, .recoveryWindowClose i)]

theorem slotDeadlines_eq : slotDeadlines s i = chosen (slotChoices s i) ++
    ((s.slot i).matcher.holdOffs.filter fun h => expired h.2 s.now).map fun h => .holdOffExpiry i h.1 := rfl

/-- A deadline of a slot that is put up is armed and reached. -/
theorem comesDue_of_slot (mem : c ∈ slotDeadlines s i) : ComesDue s c := by
  rw [slotDeadlines_eq] at mem
  rcases List.mem_append.mp mem with mem | mem
  · have one := mem_chosen.mp mem
    simp only [slotChoices, List.mem_cons, Prod.mk.injEq, List.not_mem_nil, or_false] at one
    rcases one with ⟨due, rfl⟩ | ⟨due, rfl⟩ | ⟨due, rfl⟩ | ⟨due, rfl⟩ | ⟨due, rfl⟩ | ⟨due, rfl⟩ | ⟨due, rfl⟩ | ⟨due, rfl⟩ |
      ⟨due, rfl⟩ | ⟨due, rfl⟩ | ⟨due, rfl⟩ | ⟨due, rfl⟩ | ⟨due, rfl⟩
    · exact breakDue_iff.mp due.symm
    · exact expired_iff.mp due.symm
    · exact expired_iff.mp due.symm
    · exact glitchDue_iff.mp due.symm
    · exact glitchDue_iff.mp due.symm
    · exact stuckDue_iff.mp due.symm
    · exact stuckDue_iff.mp due.symm
    · exact (stepDue_comes isPress_iff).mp due.symm
    · exact (stepDue_comes isDwell_iff).mp due.symm
    · exact (stepDue_comes isExpectHigh_iff).mp due.symm
    · exact (stepDue_comes isExpectLow_iff).mp due.symm
    · exact (stepDue_comes isGate_iff).mp due.symm
    · obtain ⟨d, eq, due⟩ := expired_iff.mp due.symm
      obtain ⟨w, window, rfl⟩ := Option.map_eq_some_iff.mp eq
      exact ⟨w, window, due⟩
  · obtain ⟨⟨w, o⟩, inside, rfl⟩ := List.mem_map.mp mem
    obtain ⟨held, over_⟩ := List.mem_filter.mp inside
    obtain ⟨d, rfl, due⟩ := expired_iff.mp over_
    exact ⟨d, held, due⟩

theorem comesDue_of_bridge (mem : c ∈ bridgeDeadlines s) : ComesDue s c := by
  rcases List.mem_append.mp mem with mem | mem
  · obtain ⟨r, inside, rfl⟩ := List.mem_map.mp mem
    obtain ⟨held, due⟩ := List.mem_filter.mp inside
    exact ⟨r, held, rfl, fetchDue_iff.mp due⟩
  · have one := mem_chosen.mp mem
    simp only [List.mem_cons, Prod.mk.injEq, List.not_mem_nil, or_false] at one
    rcases one with ⟨due, rfl⟩ | ⟨due, rfl⟩
    · have waits : s.inrush.queue ≠ [] := by simpa using due.symm
      exact waits
    · obtain ⟨d, eq, due⟩ := expired_iff.mp due.symm
      obtain ⟨j, save, rfl⟩ := Option.map_eq_some_iff.mp eq
      exact ⟨j, save, due⟩

/-- The `n`-th of some commands is chosen where its condition holds. -/
theorem chosen_of {b : Bool} {l : List (Bool × Instr)} (n : Nat) (place : l[n]? = some (b, c)) (due : b = true) :
    c ∈ chosen l := mem_chosen.mpr (due ▸ List.mem_of_getElem? place)

theorem slotDeadline_of {b : Bool} (n : Nat) (due : b = true) (place : (slotChoices s i)[n]? = some (b, c)) :
    c ∈ (List.finRange 8).flatMap (slotDeadlines s) :=
  List.mem_flatMap.mpr ⟨i, List.mem_finRange i, List.mem_append_left _ (chosen_of n place due)⟩

/-- Every deadline that is armed and reached is put up. -/
theorem comesDue_put (due : ComesDue s c) : c ∈ (List.finRange 8).flatMap (slotDeadlines s) ++ bridgeDeadlines s := by
  cases c
  case breakItemDeadline i => exact List.mem_append_left _ (slotDeadline_of (i := i) 0 (breakDue_iff.mpr due) rfl)
  case holderIdleExpiry i => exact List.mem_append_left _ (slotDeadline_of (i := i) 1 (expired_iff.mpr due) rfl)
  case pgFilterExpiry i => exact List.mem_append_left _ (slotDeadline_of (i := i) 2 (expired_iff.mpr due) rfl)
  case glitchDeadline i b =>
    cases b
    · exact List.mem_append_left _ (slotDeadline_of (i := i) 3 (glitchDue_iff.mpr due) rfl)
    · exact List.mem_append_left _ (slotDeadline_of (i := i) 4 (glitchDue_iff.mpr due) rfl)
  case stuckDeadline i b =>
    cases b
    · exact List.mem_append_left _ (slotDeadline_of (i := i) 5 (stuckDue_iff.mpr due) rfl)
    · exact List.mem_append_left _ (slotDeadline_of (i := i) 6 (stuckDue_iff.mpr due) rfl)
  case pressDeadline i =>
    exact List.mem_append_left _ (slotDeadline_of (i := i) 7 ((stepDue_comes isPress_iff).mpr due) rfl)
  case dwellDeadline i =>
    exact List.mem_append_left _ (slotDeadline_of (i := i) 8 ((stepDue_comes isDwell_iff).mpr due) rfl)
  case expectHighDeadline i =>
    exact List.mem_append_left _ (slotDeadline_of (i := i) 9 ((stepDue_comes isExpectHigh_iff).mpr due) rfl)
  case expectLowDeadline i =>
    exact List.mem_append_left _ (slotDeadline_of (i := i) 10 ((stepDue_comes isExpectLow_iff).mpr due) rfl)
  case gateWaitDeadline i =>
    exact List.mem_append_left _ (slotDeadline_of (i := i) 11 ((stepDue_comes isGate_iff).mpr due) rfl)
  case recoveryWindowClose i =>
    obtain ⟨w, window, due⟩ := due
    exact List.mem_append_left _ (slotDeadline_of (i := i) 12 (expired_iff.mpr ⟨_, by rw [window]; rfl, due⟩) rfl)
  case holdOffExpiry i w =>
    obtain ⟨d, held, due⟩ := due
    refine List.mem_append_left _ (List.mem_flatMap.mpr ⟨i, List.mem_finRange i, List.mem_append_right _ ?_⟩)
    exact List.mem_map.mpr ⟨(w, some d), List.mem_filter.mpr ⟨held, due⟩, rfl⟩
  case fetchDeadline id =>
    obtain ⟨r, held, rfl, due⟩ := due
    refine List.mem_append_right _ (List.mem_append_left _ ?_)
    exact List.mem_map.mpr ⟨r, List.mem_filter.mpr ⟨held, fetchDue_iff.mpr due⟩, rfl⟩
  case inrushEvaluation =>
    have waits : s.inrush.queue ≠ [] := due
    exact List.mem_append_right _ (List.mem_append_right _ (chosen_of 0 rfl (by simpa using waits)))
  case saveComplete =>
    obtain ⟨j, save, due⟩ := due
    exact List.mem_append_right _ (List.mem_append_right _ (chosen_of 1 rfl (expired_iff.mpr ⟨_, by rw [save]; rfl, due⟩)))
  all_goals exact False.elim due

theorem mem_deadlines : c ∈ (List.finRange 8).flatMap (slotDeadlines s) ++ bridgeDeadlines s ↔ ComesDue s c := by
  refine ⟨fun mem => ?_, comesDue_put⟩
  rcases List.mem_append.mp mem with mem | mem
  · obtain ⟨i, -, mem⟩ := List.mem_flatMap.mp mem
    exact comesDue_of_slot mem
  · exact comesDue_of_bridge mem

/-! ## The tick (R1) -/

theorem mem_unitTickEvents : c ∈ unitTickEvents ↔ ComesWithUnit c := by
  unfold unitTickEvents
  rw [List.mem_append, List.mem_append, List.mem_append, List.mem_map, List.mem_map, List.mem_map]
  constructor
  · rintro (((⟨i, -, rfl⟩ | one) | ⟨i, -, rfl⟩) | ⟨i, -, rfl⟩)
    · exact trivial
    · rw [List.mem_singleton.mp one]
      exact trivial
    · exact trivial
    · exact trivial
  · intro comes
    cases c
    case silenceTick i => exact .inl (.inl (.inl ⟨i, List.mem_finRange i, rfl⟩))
    case inrushUnitUpkeep => exact .inl (.inl (.inr (List.mem_singleton.mpr rfl)))
    case coldMarkSet i => exact .inl (.inr ⟨i, List.mem_finRange i, rfl⟩)
    case lastAssertAgeOut i => exact .inr ⟨i, List.mem_finRange i, rfl⟩
    all_goals exact False.elim comes

theorem mem_tickEvents : c ∈ tickEvents s ↔ ComesDue s c ∨ s.msInUnit = 0 ∧ ComesWithUnit c := by
  unfold tickEvents
  rw [List.mem_append, mem_deadlines, ← mem_unitTickEvents]
  by_cases unit : s.msInUnit = 0
  · rw [if_pos unit]
    exact or_congr_right ⟨fun mem => ⟨unit, mem⟩, And.right⟩
  · rw [if_neg unit]
    exact or_congr_right (iff_of_false List.not_mem_nil fun both => unit both.1)

theorem idle_calls (called : c ∈ readyNow s) : idle s = { s with pending := readyNow s } := by
  unfold idle
  dsimp only
  rw [if_neg]
  intro none_
  rw [List.isEmpty_iff.mp none_] at called
  cases called

theorem idle_ticks (none_ : readyNow s = []) : idle s = { advance s with pending := tickEvents (advance s) } := by
  unfold idle
  dsimp only
  rw [if_pos (by rw [none_]; rfl)]

theorem step_idle (none_ : s.pending = []) : step s = .next (idle s) := by
  unfold step
  rw [none_]

/-- Settles O2. -/
theorem idleTakesWorkOrTicks : Obligations.IdleTakesWorkOrTicks := by
  unfold Obligations.IdleTakesWorkOrTicks
  intro s empty
  have steps := step_idle empty
  refine ⟨fun c called => ?_, fun quiet => ?_⟩
  · rw [idle_calls (mem_readyNow.mpr called)] at steps
    exact ⟨_, steps, rfl, fun d => mem_readyNow⟩
  · have none_ : readyNow s = [] := List.eq_nil_iff_forall_not_mem.mpr fun c mem => quiet c (mem_readyNow.mp mem)
    rw [idle_ticks none_] at steps
    by_cases unit : s.msInUnit = 999
    · have next : advance s = { s with now := s.now + 1, msInUnit := 0, unitTicks := s.unitTicks + 1 } :=
        if_pos (by omega)
      rw [next] at steps
      refine ⟨_, steps, rfl, fun c => mem_tickEvents.trans ?_, fun _ => ⟨rfl, rfl⟩, fun other => absurd unit other⟩
      exact or_congr Iff.rfl (and_congr_left' (iff_of_true rfl unit))
    · have next : advance s = { s with now := s.now + 1, msInUnit := s.msInUnit + 1 } := if_neg (by omega)
      rw [next] at steps
      refine ⟨_, steps, rfl, fun c => mem_tickEvents.trans ?_, fun other => absurd other unit, fun _ => ⟨rfl, rfl⟩⟩
      exact or_congr Iff.rfl (and_congr_left' (iff_of_false (Nat.succ_ne_zero _) unit))

end Sys2Proof.Machine
end
